-- ==== Sys2Proof/Word.lean ====
section
/-! DEFINITION. The word types of the model and their plainest arithmetic. -/

namespace Sys2Proof

/-- A byte as the manual's tables count them. -/
abbrev Byte := BitVec 8

/-- A 32-bit word: a BAR0 register, a binary32 value, an OTP word. -/
abbrev Word := BitVec 32

/-- The bit pattern of an IEEE 754 binary32 value (R296, R525). -/
abbrev F32 := BitVec 32

/-- Saturation of a counter of `w` bits (the "saturating" fields of the register maps). -/
def sat (w n : Nat) : Nat := min n (2 ^ w - 1)

/-- Division rounded up, as `ceil(a ÷ b)` of the manual. -/
def ceilDiv (a b : Nat) : Nat := (a + b - 1) / b

end Sys2Proof
end

