-- ==== Sys2Proof/Syntax.lean ====
section
/-! DEFINITION. The commands of the block: one constructor of `Instr` per row of spec/opcode_table.json, in the
table's order of subjects, and the plain data that they carry. A command carries what comes from outside the
block: pin levels, measured values, bytes that a read returned, the fields of a message or a register write. -/

namespace Sys2Proof

/-- The six dual-polarity inputs' kinds: STO, ESTOP and the FLT pair of stage link L (R426). -/
inductive PairId where
  | sto | estop | flt (L : Fin 8)
  deriving DecidableEq, Repr

/-- The ten interlock inputs (R247). -/
inductive Interlock where
  | cover (n : Fin 8) | web | jam
  deriving DecidableEq, Repr

/-- Input levels of the first fault sample (R527). -/
structure Pins where
  stoT : Bool
  stoC : Bool
  estopT : Bool
  estopC : Bool
  fltT : BitVec 8
  fltC : BitVec 8
  /-- bit n: IL_COVERn reads closed -/
  coverClosed : BitVec 8
  webClosed : Bool
  jamClosed : Bool
  /-- bit p: AUX_FLTp reads active; PMB_ALERT_L reads low -/
  auxFlt : BitVec 16
  pmbAlert : Bool
  deriving DecidableEq, Repr

/-- What a store read of one 64-byte line showed beyond the data (R95, R113). -/
inductive EccRead where
  | clean
  /-- a single-bit error in `word` and in the words of `more`; `hard`: the second read still shows one -/
  | corrected (word : Fin 8) (syndrome : Nat) (more : List (Fin 8 × Nat)) (hard : Bool)
  /-- no correction in `word` and in the words of `more`, single-bit errors in those of `fixed` -/
  | uncorrectable (word : Fin 8) (syndrome : Nat) (more fixed : List (Fin 8 × Nat))
  deriving DecidableEq, Repr

/-- How far the copy of a migration has come, and what the reads of its lines showed where they were not clean (R119). -/
structure MigCopy where
  upto : Nat
  ecc : List (Nat × EccRead)
  deriving DecidableEq, Repr

/-- Outcome of a bus-master read of host memory (R80, R480). -/
inductive HostRead where
  | ok | error | timeout
  /-- the data came with the EP bit set (R481) -/
  | poisoned
  deriving DecidableEq, Repr

/-- The fields every message carries: queue, TAG, JOB, and whether the entry's reserved bits are all 0. -/
structure MsgHdr where
  q : Fin 8
  tag : Nat
  job : Nat
  clean : Bool
  deriving DecidableEq, Repr

/-- Fields of COMPRESS and DECOMPRESS (table "Message payloads"). -/
structure SvcFields where
  src : Nat
  srcLen : Nat
  dst : Nat
  dstLen : Nat
  width : Nat
  noGrow : Bool
  overlay : Bool
  firstLine : Nat
  deriving DecidableEq, Repr

/-- What power-up calibration measured (table "Calibration items"). -/
structure CalibMeas where
  /-- per station: hits of each of the 160 cells, and the corrected output's DNL in 1/1,024 LSB -/
  tdc : List (List Nat × Nat)
  /-- per channel: for each of the 8 pairs, mean in µV and RMS noise in µV -/
  isense : List (List (Int × Nat))
  /-- each of the 4 reference cells against its OTP trim value, in ppm -/
  tref : List Int
  deriving DecidableEq, Repr

/-- What a controller told the sequencing master in enumeration (R396). -/
structure CtrlReport where
  index : Nat
  serial : Nat
  /-- its RING.GROUP; 32 and above for none -/
  group : Nat
  baseUs : Nat
  tableCrc : Nat
  /-- press-domain ropes: rope, HOME, SHARE channel, BACK channel (R342) -/
  ropes : List (Nat × Nat × Nat × Nat)
  deriving DecidableEq, Repr

/-- What ring enumeration found (R396). -/
structure EnumReport where
  masterTime : Nat
  controllers : List CtrlReport
  /-- HELLO type of each local eyelet by position, index 1 first -/
  eyelets : List Nat
  /-- kinds of aliased nodes as their heading controllers report them: 12-bit address and kind -/
  aliases : List (Nat × Nat)
  /-- delays in ns of the links of the upper and of the subordinate ring that end at none of this controller's ports -/
  upperDelays : List Nat
  subDelays : List Nat
  deriving DecidableEq, Repr

/-- Result of the 64 training frames of a stage link (R332). -/
structure TrainReport where
  good : Nat
  worstNs : Nat
  pwmSync : Bool
  deriving DecidableEq, Repr

/-- What the observer saw at an accepted zero crossing (R267, R268, R278, R280). -/
structure ZcMeas where
  /-- interval since the one before, in ticks -/
  interval : Nat
  /-- observer speed in 1/16 rpm, signed -/
  speed : Int
  /-- distance from the open-loop position in 1/16 degree electrical -/
  openErr : Int
  /-- degrees electrical, times 16, from the nearest softening ramp -/
  rampDist : Nat
  /-- sector that the observer's angle lies in, by log 38's numbering -/
  sector : Fin 6
  deriving DecidableEq, Repr

/-- What one PWM period measured (R271, R274, R276, R289). -/
structure PwmMeas where
  /-- observer speed in 1/16 rpm, signed -/
  speed : Int
  /-- back-EMF above the observer floor -/
  bemf : Bool
  /-- VBUS_SP in 0.1 V -/
  vbus : Nat
  /-- i_d estimate in 10 mA -/
  id : Int
  /-- duty the current loop asks for, in 1/4,096 -/
  duty : Nat
  /-- advance that the regulator of φ asks for, in 0.125° -/
  adv : Nat
  /-- bit l: leg l's high gate was on for the whole period -/
  fullOn : BitVec 3
  /-- bit l: leg l's bootstrap supply is above 7.5 V -/
  bootGood : BitVec 3
  deriving DecidableEq, Repr

/-- Readings of one 1 ms conversion (R364 to R368), with the digital gains of R213 applied. -/
structure SensorReadings where
  /-- ρ of NTC0 to NTC15 as 16-bit conversions of V_NTC ÷ V_REF -/
  ntc : List Nat
  /-- forward voltages of DIODE0 to DIODE3 in µV at 10 µA and 100 µA -/
  diode : List (Nat × Nat)
  /-- on-die sensors 0 to 5 in 0.1 °C -/
  die : List Int
  deriving DecidableEq, Repr

/-- One ring slot as it arrives: BEGIN, data blocks, END (R384, R387). -/
structure Slot where
  src : Nat
  words : List Nat
  hops : Nat
  cycle : Nat
  crc : Nat
  /-- forwarded eyelets, by 12-bit address, whose own slot their heading controller did not receive (R393); the manual
  does not say in which bits the slot tells it -/
  fwdStale : List Nat
  deriving DecidableEq, Repr

/-- One SEQ block (table "Ring control blocks"). -/
structure SeqBlock where
  command : Nat
  railSlot : Nat
  source : Nat
  target : Nat
  number : Nat
  deriving DecidableEq, Repr

/-- Kinds of host-interface reset (R62). -/
inductive LinkReset where
  | functionLevel | hot | linkDown | perst
  deriving DecidableEq, Repr

/-- What the hardware shows while a law-engine instruction executes (R322, R323, R325). -/
structure LawExec where
  /-- the two processors differ after it -/
  differ : Bool
  /-- its word in program RAM is uncorrectable -/
  fetchBad : Bool
  /-- correctable errors that its fetch and its reads met -/
  corrected : Nat
  /-- data RAM words that it finds uncorrectable -/
  upset : List Nat
  deriving DecidableEq, Repr

/-- Nothing out of the ordinary. -/
def LawExec.clean : LawExec := { differ := false, fetchBad := false, corrected := 0, upset := [] }

/-- What host memory returned to a DMA instruction: bytes from its first address on, the 64-byte lines of which the
completion is outstanding, and those that came with the EP bit set (R480, R481). -/
structure DmaHost where
  bytes : List Byte
  missing : List Nat
  poisoned : List Nat
  deriving DecidableEq, Repr

/-- How the last bursts of a DMA instruction were answered (R474, R480), with the address of a beat that failed. -/
inductive DmaAnswer where
  | ok
  | readError (addr : Nat)
  | timeout (addr : Nat)
  | writeRefused (addr : Nat)
  deriving DecidableEq, Repr

/-- One step of an in-service test, and what it showed (table "Tests"): an injection into a compare lane and whether it was
detected; the march of a line and its two reads; a program or data word, any ECC error and an uncorrectable one; the four
reference cells in ppm; hits at a station, with DNL in 1/1,024 LSB and span in ps of the last 65,536; a gate of a spindle
channel (6 for the shunt comparator) and the ticks until detection; invalid sync headers at a ring port since its step
before. -/
inductive IstStep where
  | lane (n : Fin 32) (polarity seen : Bool)
  | march (page line : Nat) (low high : EccRead)
  | word (data : Bool) (i : Nat) (ecc uncorrectable : Bool)
  | cell (ppm : List Int)
  | tdc (n : Fin 8) (hits dnl span : Nat)
  | gate (c : Fin 8) (g : Fin 7) (after : Option Nat)
  | port (p : Fin 4) (headers : Nat)
  deriving DecidableEq, Repr

/-- Stop kinds a remote controller signals (R343, R407; STATUS [6:4] of the controller slot). -/
inductive RemoteStop where
  | belay | ramp | coast | safe
  deriving DecidableEq, Repr

/-- The commands. -/
inductive Instr where
  -- start-up (chapters 02, 07, 13, 15, 16)
  | aonPowerOnReset (rise : Bool) (straps : BitVec 5) (pins : Pins)
  | otpShadowLoad
  | crystalStart (ok : Bool)
  | pllLockDeclared (i : Fin 8) (counts : List Nat) (us : Nat)
  | pllLockAttemptTimeout (i : Fin 8) (counts : List Nat) (us : Nat)
  | slotHeaderRead (slot0 slot1 : List Byte)
  | signatureVerification (image : List Byte)
  | sectionLoad (header payload padding : List Byte)
  | powerUpSlot
  | railPowerGood (n : Fin 12)
  | powerSeqTimeout (n : Fin 12)
  | powerUpCalibration (m : CalibMeas)
  | ringEnumeration (r : EnumReport)
  | stageLinkTraining (L : Fin 8) (r : TrainReport)
  | stageLinkRetrainTimer (L : Fin 8)
  | bootStepTimeout
  -- host link (chapter 03)
  | submissionQueueTailWrite (q : Fin 8) (value : Word)
  | completionQueueHeadWrite (q : Fin 8) (value : Word)
  | queueControlWrite (q : Fin 8) (value : Word)
  | entryTakeUp (q : Fin 8) (entry : List Byte) (read : HostRead)
  | completionWriteResumed (q : Fin 8)
  | coalesceTimerExpiry (q : Fin 8)
  | eventFifoDrain
  | hostLinkReset (kind : LinkReset)
  | d3hotEntry
  | ident (h : MsgHdr) (buf len : Nat)
  | stateSet (h : MsgHdr) (target : Nat)
  | armingComplete
  | armTimeout
  | jobOpen (h : MsgHdr) (last stations vAdm quota : Nat)
  | jobClose (h : MsgHdr) (mode : Nat)
  | framePut (h : MsgHdr) (src len rep baseRef declCycles declBytes : Nat)
  | framePutRaw (h : MsgHdr) (src len rep baseRef declCycles declBytes : Nat)
  | frameCommit (job : Nat) (data : List Byte) (read : HostRead)
  | quotaSet (h : MsgHdr) (quota : Nat)
  | runStart (h : MsgHdr) (frames speed accel : Nat)
  | runResume (h : MsgHdr) (speed accel : Nat)
  | runEntry
  | runModify (h : MsgHdr) (frames speed accel : Nat)
  | runStop (h : MsgHdr)
  | paramSet (h : MsgHdr) (space index : Nat) (value : F32)
  | paramGet (h : MsgHdr) (space index : Nat)
  | resultGet (h : MsgHdr) (kind buf len : Nat)
  | resultAck (h : MsgHdr) (kind : Nat)
  | compress (h : MsgHdr) (f : SvcFields)
  | compressRun (unit : Fin 2) (input : List Byte) (read : HostRead)
  | decompress (h : MsgHdr) (f : SvcFields)
  | decompressRun (input : List Byte) (read : HostRead)
  | pageRetire (h : MsgHdr) (page : Nat)
  | migrationComplete (copy : MigCopy)
  | logRead (h : MsgHdr) (log buf len : Nat)
  | calibRead (h : MsgHdr) (buf len : Nat)
  | calibWrite (h : MsgHdr) (buf len : Nat) (record : List Byte)
  | consumableSync (h : MsgHdr) (tags : BitVec 32)
  | faultClear (h : MsgHdr)
  | faultPinRelease (h : MsgHdr)
  | faultPinPulseEnd
  -- pins and registers (chapters 14, 19)
  | stoInput (t c : Bool)
  | estopInput (t c : Bool)
  | pairWireFault (p : PairId)
  | pairReturnNormal (p : PairId)
  | fltPairChange (L : Fin 8) (t c : Bool)
  | engineEventInterruptWrite (value : Word)
  | registerWrite (offset : BitVec 20) (size64 : Bool) (value : BitVec 64)
  | bar0UnsupportedAccess (offset : BitVec 20) (bytes : Nat) (write : Bool)
  -- web position and runs (chapter 06)
  | anchorCount (n : Fin 2) (a b : Bool)
  | anchorZPulse (n : Fin 2)
  | eyeletAnchorReport (count : Int) (time : Nat)
  | anchorStale
  | anchorOverspeed
  | webStandstill
  | ropeStandstill
  | facetReferencePulse
  | frameStart
  | frameStarved
  | cameraMarkReport (n : Fin 8) (frame : Nat) (along cross : Int)
  | regBaseWrite (n : Fin 8) (value : Word)
  | regOffsetWrite (n : Fin 8) (acc : Bool) (value : Word)
  -- scan timing and clocks (chapter 07)
  | sosPulse (n : Fin 8) (coarse cell : Nat) (testFine : Nat)
  | sosWindowExpiry (n : Fin 8)
  | scanCrossWrite (n : Fin 8) (f : Fin 8) (value : Word)
  | refLost
  | clockMonitorWindow (refCount : Nat)
  | refReturn
  | pllUnlock (i : Fin 8)
  | temperatureCompensationUpdate (pd0 pd8 : Int)
  -- raster store and decoders (chapters 04, 05)
  | decodeLine (n : Fin 8) (ecc : List (Nat × EccRead))
  | scrubBurst (ecc : EccRead)
  | scrubWriteBack
  | mergeBufferFlush (entry : Fin 16) (ecc : EccRead)
  | bar2Read (offset : BitVec 28) (len : Nat) (ecc : List (Nat × EccRead))
  | bar2Write (offset : BitVec 28) (data : List Byte)
  | bar2BaseWrite (value : Word)
  | spoilRecordPost
  | wasteMarker
  | wasteMinExpiry
  -- exposure (chapter 08)
  | backLaneStatusFrame (n : Fin 8) (frame : List Byte)
  | expoLinkLost (n : Fin 8)
  | laserEchoMismatch (n : Fin 8)
  | emitterTempStale (n : Fin 8)
  | expoLinkTraining (n : Fin 8) (ok : Bool)
  | interlockOpen (i : Interlock)
  | laserEnableRise (n : Fin 8)
  | toneEntryWrite (n : Fin 8) (t : Fin 16) (value : Word)
  | toneHoldWrite (n : Fin 8) (value : Word)
  | deadMaskWrite (n : Fin 8) (upper : Bool) (value : Word)
  | partnerConfigWrite (n : Fin 8) (value : Word)
  -- spindles (chapter 09)
  | spindleRunCommand (n : Fin 8)
  | spindleSenseTimeout (n : Fin 8)
  | alignTimeout (n : Fin 8)
  | zeroCrossing (n : Fin 8) (m : ZcMeas)
  | zeroCrossingTimeout (n : Fin 8)
  | pwmPeriod (n : Fin 8) (m : PwmMeas)
  | shortTimeout (n : Fin 8)
  | stopTimeout (n : Fin 8)
  | catchTimeout (n : Fin 8)
  | coastBackEmfTimeout (n : Fin 8)
  | spindleCommandSample (n : Fin 8) (mV : Nat)
  | spindleCommandEdge (n : Fin 8) (highNs periodNs : Nat)
  | spindleCommandTimeout (n : Fin 8)
  | spDesat (n : Fin 8) (gate : Fin 6)
  | spOvercurrent (n : Fin 8)
  | spBootUv (n : Fin 8) (leg : Fin 3)
  | vcpUv (dV : Nat)
  | vbusSpUv (dV : Nat)
  | vbusSpOv (dV : Nat)
  | rpsBlock (srcMv vbusMv : Int)
  -- law engine (chapter 10)
  | baseSampleBoundary
  | rampAxisTimeout (a : Fin 16)
  | inputWindowClose
  | outputReserveStart
  | ld (x : LawExec) (dst a b : Nat)
  | st (x : LawExec) (dst a b : Nat)
  | mov (x : LawExec) (imm : Bool) (dst a b : Nat)
  | add (x : LawExec) (dst a b : Nat)
  | sub (x : LawExec) (dst a b : Nat)
  | mul (x : LawExec) (dst a b : Nat)
  | mac (x : LawExec) (dst a b : Nat)
  | abs (x : LawExec) (dst a : Nat)
  | min (x : LawExec) (dst a b : Nat)
  | max (x : LawExec) (dst a b : Nat)
  | sel (x : LawExec) (dst a b : Nat)
  | cmp (x : LawExec) (cond : Fin 6) (dst a b : Nat)
  | brf (x : LawExec) (inv : Bool) (a skip : Nat)
  | lim (x : LawExec) (byp : Bool) (dst a b : Nat)
  | slew (x : LawExec) (byp : Bool) (dst a b : Nat)
  | lpf (x : LawExec) (byp : Bool) (dst a b : Nat)
  | biq (x : LawExec) (byp : Bool) (dst a b : Nat)
  | pi (x : LawExec) (byp : Bool) (dst a b : Nat)
  | intg (x : LawExec) (byp : Bool) (dst a b : Nat)
  | diff (x : LawExec) (byp : Bool) (dst a b : Nat)
  | clarke (x : LawExec) (three : Bool) (dst a : Nat)
  | park (x : LawExec) (dst a b : Nat)
  | ipark (x : LawExec) (dst a b : Nat)
  | sincos (x : LawExec) (dst a : Nat)
  | svm (x : LawExec) (dst a b : Nat)
  | obs (x : LawExec) (dst a b : Nat)
  | hold (x : LawExec) (dst a b : Nat)
  | share (x : LawExec) (dst a ch : Nat)
  | inp (x : LawExec) (dst port : Nat)
  | out (x : LawExec) (a port : Nat)
  | endp (x : LawExec)
  | lawControlWrite (value : Word)
  -- web transport (chapter 11)
  | upstreamFrame (L : Fin 8) (frame : List Byte) (arrivalNs : Nat)
  | stageLost (L : Fin 8) (slot : Fin 2)
  | busAbsorbLost (b : Fin 4)
  | busTrip (b : Fin 4)
  | tensionLimit (r : Fin 32)
  | shareStale (r : Fin 32)
  | spliceEdge (i : Fin 4)
  | spliceWindowExpiry (r : Fin 32)
  | belaySlow
  | coastTimeout
  | ropeRemoteStop (k : RemoteStop)
  | groupRemoteStop (k : RemoteStop)
  | auxStart (p : Fin 16)
  | auxStop (p : Fin 16)
  | auxResume (p : Fin 16)
  | auxAbort (p : Fin 16)
  | auxStep (p : Fin 16)
  | auxFltInput (p : Fin 16)
  | auxProfileWrite (p : Fin 16) (value : Word)
  -- process supplies and thermal (chapter 12)
  | sensorConversion (r : SensorReadings)
  | zeroCrossEdge (intervalUs : Nat)
  | zeroCrossLost
  | hvNodeLost (c : Fin 24)
  -- Utmos ring (chapter 13)
  | ringPortTraining (p : Fin 4) (kind index port serial : Nat)
  | ringPortDown (p : Fin 4)
  | ringPortRetrainTimer (p : Fin 4)
  | slotLaunch
  | slotReceive (p : Fin 4) (slot : Slot)
  | nodeLost (addr : BitVec 12)
  | tsReq (p : Fin 4) (t1 arrival departure : Nat)
  | tsRsp (p : Fin 4) (t2 arrival : Nat)
  | tsFup (p : Fin 4) (t3 : Nat)
  | ringTime
  | seq (p : Fin 2) (b : SeqBlock)
  | seqStepTimeout
  | groupReady (i : Fin 32)
  | groupStart (f0 : Int)
  | groupHalt (h : Int)
  | groupHaltPosition
  | groupTimeout
  -- power (chapter 15)
  | powerFail (vcpLow vddLow : Bool) (vcpDv vddCv : Nat)
  | cairnRecordWritten
  | shutDownSlot
  | railDischarged (n : Fin 12)
  | railDischargeTimeout (n : Fin 12)
  | railPowerGoodLoss (n : Fin 12)
  | powerReturnReset (straps : BitVec 5) (pins : Pins)
  | holdUpMeasurement (us : Nat)
  | holdupLow
  | powerFailArming
  | marginWrite (value : Word)
  | trimStep (t : Fin 4)
  | pmbusError (kind : Fin 3) (addr : BitVec 7)
  -- OTP and consumables (chapter 16)
  | program (key : BitVec 8)
  | read (key : BitVec 8)
  | lockW (key : BitVec 8) (region : Fin 16)
  | lockR (key : BitVec 8) (region : Fin 16)
  | otpPulseEnd (verified : Word)
  | consumableSyncTimer
  | tagSynchronisation (i : Fin 32) (answer : Option (List Byte))
  | tagPoll (answer : Option (List Byte))
  | usageMirrorPersist
  | lifetimeCounterPersist
  -- DMA and check units (chapter 17)
  | dmaStart (ch : Fin 16)
  | dmaStop (ch : Fin 16)
  | dmaResume (ch : Fin 16)
  | dmaReset (ch : Fin 16)
  | dmaTailWrite (ch : Fin 16) (value : Word)
  | dmaConfigWrite (ch : Fin 16) (value : Word)
  | move (ch : Fin 16) (h : DmaHost) (ecc : List (Nat × EccRead))
  | loop (ch : Fin 16)
  | wait (ch : Fin 16)
  | waitComplete (ch : Fin 16)
  | signal (ch : Fin 16)
  | scan (ch : Fin 16) (h : DmaHost) (ecc : List (Nat × EccRead))
  | jump (ch : Fin 16)
  | dmaEnd (ch : Fin 16)
  | nop (ch : Fin 16)
  | dmaInstructionComplete (ch : Fin 16) (answer : DmaAnswer)
  | checkUnitRunWrite (u : Fin 4) (value : Word)
  -- in-service test and boundary scan (chapter 18)
  | istTestStep (t : Fin 7) (st : IstStep)
  | bypass
  | idcode
  | samplePreload
  | extest
  | extestPulse
  | extestTrain
  | clamp
  | highz
  -- releases and returns
  | interlockClose (i : Interlock)
  | vcpUvRelease (dV : Nat)
  | vbusSpInhibitRelease (dV : Nat)
  | vcpGood (dV : Nat)
  | d3hotExit
  | pmbAlertFall (status : List (BitVec 7 × BitVec 16))
  | msixVectorUnmask (v : Fin 64)
  | auxFltRelease (p : Fin 16)
  deriving DecidableEq, Repr

end Sys2Proof
end

