-- ==== Sys2Proof/Machine/Bits.lean ====
section
/-! DEFINITION. Bit fields, byte order and the CRC parameters of R483: the helpers that the decoder, the
section readers and the meanings share. -/

namespace Sys2Proof.Bits

/-- Bits `[hi:lo]` of a word read as a number. -/
def field (w hi lo : Nat) : Nat := (w >>> lo) % 2 ^ (hi + 1 - lo)

/-- Bit `i` of a number. -/
def bit (w i : Nat) : Bool := w.testBit i

/-- A Bool as the bit it stands for. -/
def b2n (b : Bool) : Nat := if b then 1 else 0

/-- Number `n` of `w` bits read as two's complement. -/
def signed (w n : Nat) : Int := if n % 2 ^ w < 2 ^ (w - 1) then (n % 2 ^ w : Nat) else (n % 2 ^ w : Nat) - (2 ^ w : Nat)

/-- Two's complement of an integer in `w` bits. -/
def unsigned (w : Nat) (i : Int) : Nat := (i % (2 ^ w : Nat)).toNat

/-- Integer limited to `lo` and `hi`. -/
def clampI (lo hi i : Int) : Int := max lo (min hi i)

/-- The set bits of a mask below `n`, ascending. -/
def bitsOf (n m : Nat) : List Nat := (List.range n).filter (fun i => m.testBit i)

/-- Number of set bits below `n`. -/
def popCount (n m : Nat) : Nat := (bitsOf n m).length

/-- Byte `i` of a table, 0 past its end. -/
def byteAt (bs : List Byte) (i : Nat) : Nat := (bs.getD i 0).toNat

/-- `n` bytes from byte `i`, little-endian (R1). -/
def le (bs : List Byte) (i : Nat) : Nat → Nat
  | 0 => 0
  | n + 1 => byteAt bs i + 256 * le bs (i + 1) n

/-- `n` bytes from byte `i`, big-endian: OCT_ADDR and the SIGNATURE section. -/
def be (bs : List Byte) (i n : Nat) : Nat := ((bs.drop i).take n).foldl (fun a b => a * 256 + b.toNat) 0

def u16 (bs : List Byte) (i : Nat) : Nat := le bs i 2
def u32 (bs : List Byte) (i : Nat) : Nat := le bs i 4
def s8 (bs : List Byte) (i : Nat) : Int := signed 8 (byteAt bs i)
def s16 (bs : List Byte) (i : Nat) : Int := signed 16 (u16 bs i)
def f32 (bs : List Byte) (i : Nat) : F32 := BitVec.ofNat 32 (u32 bs i)

/-- `n` bytes of `v`, little-endian (R1). -/
def toLE : Nat → Nat → List Byte
  | 0, _ => []
  | n + 1, v => BitVec.ofNat 8 v :: toLE n (v / 256)

/-- All bytes of a range are 0: reserved bytes, padding. -/
def zeros (bs : List Byte) (i n : Nat) : Bool := ((bs.drop i).take n).all (· == 0)

/-- `lo ≤ v ≤ hi`: a range of a section table. -/
def inR (v lo hi : Nat) : Bool := decide (lo ≤ v ∧ v ≤ hi)

/-- The CRC algorithms of the table "CRC parameters" (R483). -/
inductive Poly where
  | crc32c | crc32 | ccitt | kermit
  deriving DecidableEq, Repr

def Poly.width : Poly → Nat
  | .crc32c | .crc32 => 32
  | .ccitt | .kermit => 16

/-- Initial value of the CRC register, in the bit order of the result (R485). -/
def Poly.init : Poly → Nat
  | .crc32c | .crc32 => 0xFFFFFFFF
  | .ccitt => 0xFFFF
  | .kermit => 0

/-- Final XOR of the result. -/
def Poly.final : Poly → Nat
  | .crc32c | .crc32 => 0xFFFFFFFF
  | _ => 0

/-- One bit step of the register. The reflected algorithms shift right with the mirrored polynomial,
CRC-16/CCITT shifts left. -/
def Poly.shift (p : Poly) (r : Nat) : Nat :=
  match p with
  | .crc32c => if r % 2 = 1 then (r / 2) ^^^ 0x82F63B78 else r / 2
  | .crc32 => if r % 2 = 1 then (r / 2) ^^^ 0xEDB88320 else r / 2
  | .kermit => if r % 2 = 1 then (r / 2) ^^^ 0x8408 else r / 2
  | .ccitt => if r ≥ 0x8000 then ((r * 2) % 0x10000) ^^^ 0x1021 else r * 2

def iterate (f : α → α) : Nat → α → α
  | 0, a => a
  | n + 1, a => iterate f n (f a)

/-- One byte fed to the register. -/
def Poly.feed (p : Poly) (r : Nat) (b : Byte) : Nat :=
  match p with
  | .ccitt => iterate p.shift 8 (r ^^^ (b.toNat * 256))
  | _ => iterate p.shift 8 (r ^^^ b.toNat)

/-- The CRC of a byte sequence. -/
def Poly.crc (p : Poly) (bs : List Byte) : Nat := (bs.foldl p.feed p.init) ^^^ p.final

/-- CRC-32C as every record of the manual uses it (R483). -/
def crc32c (bs : List Byte) : Nat := Poly.crc32c.crc bs

/-- CRC-8 of a block header: polynomial 0x2F, initial value and final XOR 0xFF, most significant bit first
(R129). -/
def crc8 (bs : List Byte) : Nat :=
  (bs.foldl (fun r b => iterate (fun r => if r ≥ 0x80 then ((r * 2) % 0x100) ^^^ 0x2F else r * 2) 8 (r ^^^ b.toNat)) 0xFF)
    ^^^ 0xFF

/-- Integer square root, by one bit of the result per step from bit `k - 1`. -/
def isqrtFrom (n : Nat) : Nat → Nat → Nat
  | 0, r => r
  | k + 1, r => isqrtFrom n k (if (r + 2 ^ k) * (r + 2 ^ k) ≤ n then r + 2 ^ k else r)

/-- Largest `r` below 2⁹⁶ with `r² ≤ n`. -/
def isqrt (n : Nat) : Nat := isqrtFrom n 96 0

end Sys2Proof.Bits
end

