-- ==== Sys2Proof/Machine/Compress.lean ====
section
/-! DEFINITION. Line blocks: packing, header checks, decoding and coding of one line (R128 to R137, R139, R145, R146,
R148 to R153). -/

namespace Sys2Proof.Machine

open Sys2Proof.Bits

/-- Pixels of packed bytes, two a byte, low nibble first (R130). -/
def unpack : List Byte → List Nat
  | [] => []
  | b :: r => b.toNat % 16 :: b.toNat / 16 :: unpack r

/-- Packed bytes of an even number of pixels. -/
def pack : List Nat → List Byte
  | a :: b :: r => BitVec.ofNat 8 (a + 16 * b) :: pack r
  | [a] => [BitVec.ofNat 8 a]
  | [] => []

/-- Fields of a block header (table "Block header"). -/
structure BlockHdr where
  mark : Nat
  kind : Nat
  flags : Nat
  pixels : Nat
  payload : Nat
  lineCrc : Nat
  line : Nat
  crc : Nat
  /-- CRC-8 of bytes 0 to 14 as they stand -/
  sum : Nat
  deriving DecidableEq, Repr

def BlockHdr.last (h : BlockHdr) : Bool := bit h.flags 0
def BlockHdr.overlay (h : BlockHdr) : Bool := bit h.flags 1

/-- The header at the front of `b`. -/
def readHdr (b : List Byte) : BlockHdr :=
  { mark := u16 b 0, kind := byteAt b 2, flags := byteAt b 3, pixels := u16 b 4, payload := u16 b 6, lineCrc := u32 b 8,
    line := le b 12 3, crc := byteAt b 15, sum := crc8 (b.take 15) }

/-- PAYLOAD lies in the range of its KIND (R131). -/
def BlockHdr.payloadOk (h : BlockHdr) : Bool :=
  match h.kind with
  | 0 => inR h.payload 1 (h.pixels / 2)
  | 1 => h.payload = h.pixels / 2
  | _ => h.payload = 0

/-- Checks 1 to 3 of the table "Block checks". -/
def check123 (h : BlockHdr) : Option Nat :=
  if h.mark != 0xC35A then some 1 else if h.crc != h.sum then some 2 else if 3 < h.kind then some 3 else none

/-- Checks 5 and 6; `left` bytes of the stream follow the header. -/
def check56 (h : BlockHdr) (width left : Nat) : Option Nat :=
  if h.pixels != width then some 5 else if !h.payloadOk || decide (left < h.payload) then some 6 else none

/-- Where a stream stands: the last line accepted, and whether the last accepted block was its base block. -/
structure WalkAt where
  last : Option Nat
  lastBase : Bool
  deriving DecidableEq, Repr

/-- The line after the last accepted one. -/
def WalkAt.next (w : WalkAt) : Nat := match w.last with | none => 0 | some l => l + 1

/-- OVERLAY agrees with R137. -/
def overlayOk (full : Bool) (w : WalkAt) (h : BlockHdr) : Bool := if full then !h.overlay || w.lastBase else h.overlay

/-- LINE is the line that R137 expects. -/
def lineOk (full : Bool) (lf : Nat) (w : WalkAt) (h : BlockHdr) : Bool :=
  decide (h.line < lf) &&
  (if full then (if h.overlay then w.last = some h.line else h.line = w.next) else decide (w.next ≤ h.line))

/-- LAST is 1 on the block that R137 names, and on no other; `rest` bytes follow the block. -/
def lastOk (full : Bool) (lf rest : Nat) (h : BlockHdr) : Bool :=
  if h.last then (if full then h.line + 1 = lf && (h.overlay || rest = 0) else rest = 0) else rest != 0

/-- Checks 1 to 8 on the block at the front of `b`, of which `b.length` bytes are left in the stream (R139). -/
def headerCheck (full : Bool) (width lf : Nat) (w : WalkAt) (b : List Byte) : Option Nat :=
  if b.length < 16 then some 6
  else
    let h := readHdr b
    let left := b.length - 16
    match check123 h with
    | some c => some c
    | none =>
      if 3 < h.flags || !overlayOk full w h then some 4
      else
        match check56 h width left with
        | some c => some c
        | none =>
          if !lineOk full lf w h then some 7
          else if !lastOk full lf (left - h.payload) h then some 8
          else none

/-- The walk after a block. -/
def WalkAt.accept (h : BlockHdr) : WalkAt := { last := some h.line, lastBase := !h.overlay }

/-- c of a block (R138). -/
def blockCost (pixels payload : Nat) : Nat := (pixels + 3) / 4 + (payload + 15) / 16 + 32

/-- Operations of a coded payload into `left` pixels (R132 to R134): pixels, or the failing check. `up` is the line above
from the present pixel on. Each operation takes a byte or more, so `fuel` counts them. -/
def decodeOps : Nat → List Byte → List Nat → Nat → List Nat ⊕ Nat
  | _, [], _, 0 => .inl []
  | _, _ :: _, _, 0 => .inr 11
  | _, [], _, _ + 1 => .inr 10
  | 0, _ :: _, _, _ + 1 => .inr 10
  | fuel + 1, op :: r, up, left + 1 =>
    let left := left + 1
    let kind := op.toNat / 64
    if kind = 3 then
      if op.toNat = 0xC0 then (if r.isEmpty then .inl (List.replicate left 0) else .inr 11)
      else if op.toNat = 0xC1 then (if r.isEmpty then .inl ((List.range left).map fun i => up.getD i 0) else .inr 11)
      else .inr 12
    else
      let short := op.toNat % 64
      if short = 0 && decide (r.length < 2) then .inr 10
      else
        let n := if short = 0 then u16 r 0 else short
        let r := if short = 0 then r.drop 2 else r
        if n = 0 || decide (16384 < n) || decide (left < n) then .inr 9
        else if kind = 0 then
          let k := (n + 1) / 2
          if r.length < k then .inr 10
          else if n % 2 = 1 && decide (16 ≤ byteAt r (k - 1)) then .inr 12
          else match decodeOps fuel (r.drop k) (up.drop n) (left - n) with
            | .inl ps => .inl ((unpack (r.take k)).take n ++ ps)
            | .inr c => .inr c
        else if kind = 1 then
          match r with
          | [] => .inr 10
          | t :: r =>
            if 16 ≤ t.toNat then .inr 12
            else match decodeOps fuel r (up.drop n) (left - n) with
              | .inl ps => .inl (List.replicate n t.toNat ++ ps)
              | .inr c => .inr c
        else
          match decodeOps fuel r (up.drop n) (left - n) with
          | .inl ps => .inl ((List.range n).map (fun i => up.getD i 0) ++ ps)
          | .inr c => .inr c

/-- A line's pixels from a block's payload and the line above, or the failing check 9 to 13 (R135, R139). -/
def decodeBlock (h : BlockHdr) (payload : List Byte) (up : List Nat) : List Nat ⊕ Nat :=
  let px := match h.kind with
    | 0 => decodeOps payload.length payload up h.pixels
    | 1 => .inl (unpack payload)
    | 2 => .inl ((List.range h.pixels).map fun i => up.getD i 0)
    | _ => .inl (List.replicate h.pixels 0)
  match px with
  | .inr c => .inr c
  | .inl ps => if crc32c (pack ps) = h.lineCrc then .inl ps else .inr 13

/-- Merge of two layers: the larger tone (R136). -/
def mergeLayers (base ovr : List Nat) : List Nat := List.zipWith max base ovr

/-- What the walk of a stream at commit found: peak C and b of its lines by line, or the failing check. `fuel` counts
blocks of 16 bytes or more. -/
def walkStream (full : Bool) (width lf : Nat) : Nat → WalkAt → List Byte → List (Nat × Nat × Nat) ⊕ Nat
  | 0, _, _ => .inr 6
  | fuel + 1, w, b =>
    if b.isEmpty && (!full || w.last = some (lf - 1)) then .inl []
    else
      match headerCheck full width lf w b with
      | some c => .inr c
      | none =>
        let h := readHdr b
        match walkStream full width lf fuel (WalkAt.accept h) (b.drop (16 + h.payload)) with
        | .inr c => .inr c
        | .inl ls => .inl ((h.line, blockCost h.pixels h.payload, 16 + h.payload) :: ls)

/-- Lengths of a coded operation: the short form up to 63, else the extended form (R132, R145). -/
def emitLen (kind n : Nat) : List Byte :=
  if n ≤ 63 then [BitVec.ofNat 8 (64 * kind + n)] else BitVec.ofNat 8 (64 * kind) :: toLE 2 n

/-- Equal leading pixels. -/
def matchLen : List Nat → List Nat → Nat
  | a :: r, b :: t => if a = b then matchLen r t + 1 else 0
  | _, _ => 0

/-- Equal tones from the front. -/
def runLen : List Nat → Nat
  | [] => 0
  | [_] => 1
  | a :: b :: r => if a = b then runLen (b :: r) + 1 else 1

def allZero (l : List Nat) : Bool := l.all (· == 0)

/-- A literal may end before these pixels (R145, lit_len). -/
def litEnd (upOk : Bool) (cur up : List Nat) : Bool :=
  cur.isEmpty || allZero cur || (upOk && cur = up) || decide (3 ≤ runLen cur) || (upOk && decide (4 ≤ matchLen cur up))

/-- lit_len of R145: at least one pixel. -/
def litLen (upOk : Bool) : List Nat → List Nat → Nat
  | _ :: cur, up => if litEnd upOk cur up.tail then 1 else litLen upOk cur up.tail + 1
  | [], _ => 0

/-- The operations of R145 from one pixel on; `fuel` counts operations. -/
def encodeOps (upOk : Bool) : Nat → List Nat → List Nat → List Byte
  | 0, _, _ => []
  | fuel + 1, cur, up =>
    if cur.isEmpty then []
    else if allZero cur then [0xC0]
    else if upOk && cur = up then [0xC1]
    else
      let r := runLen cur
      let u := if upOk then matchLen cur up else 0
      if 3 ≤ r && u ≤ r then emitLen 1 r ++ [BitVec.ofNat 8 (cur.headD 0)] ++ encodeOps upOk fuel (cur.drop r) (up.drop r)
      else if 4 ≤ u then emitLen 2 u ++ encodeOps upOk fuel (cur.drop u) (up.drop u)
      else
        let k := litLen upOk cur up
        emitLen 0 k ++ pack (cur.take k) ++ encodeOps upOk fuel (cur.drop k) (up.drop k)

/-- KIND and payload of a line (R145, R146). -/
def encodeLine (upOk : Bool) (cur up : List Nat) : Nat × List Byte :=
  if allZero cur then (3, [])
  else if upOk && cur = up then (2, [])
  else
    let p := encodeOps upOk cur.length cur up
    if cur.length / 2 < p.length then (1, pack cur) else (0, p)

/-- A block: header and payload (R128, R129). -/
def makeBlock (kind width line : Nat) (last overlay : Bool) (cur : List Nat) (payload : List Byte) : List Byte :=
  let h := toLE 2 0xC35A ++ toLE 1 kind ++ toLE 1 (b2n last + 2 * b2n overlay) ++ toLE 2 width ++ toLE 2 payload.length ++
    toLE 4 (crc32c (pack cur)) ++ toLE 3 line
  h ++ toLE 1 (crc8 h) ++ payload

/-- What a service has done so far (table "Service summary"). -/
structure SvcSum where
  lines : Nat
  raw : Nat
  cycles : Nat
  bytes : Nat
  copies : Nat
  blanks : Nat
  out : List Byte
  deriving DecidableEq, Repr

def SvcSum.zero : SvcSum := { lines := 0, raw := 0, cycles := 0, bytes := 0, copies := 0, blanks := 0, out := [] }

/-- One more valid block with what it put out. -/
def SvcSum.add (m : SvcSum) (kind pixels payload : Nat) (out : List Byte) : SvcSum :=
  { lines := m.lines + 1, raw := m.raw + b2n (kind = 1), cycles := max m.cycles (blockCost pixels payload),
    bytes := max m.bytes (16 + payload), copies := m.copies + b2n (kind = 2), blanks := m.blanks + b2n (kind = 3),
    out := m.out ++ out }

/-- COMPRESS over packed raw lines (R148 to R151): the summary, status code and line at which it stopped. -/
def compressLines (width : Nat) (noGrow overlay : Bool) (limit : Nat) (upOk : Bool) (up : List Nat) (line : Nat) :
    List (List Byte) → SvcSum → SvcSum × Nat × Option Nat
  | [], m => (m, 0x00, none)
  | b :: r, m =>
    let cur := unpack b
    let (kind, p) := encodeLine upOk cur up
    if kind = 1 && noGrow then (m, 0x0B, some line)
    else if limit < m.out.length + 16 + p.length then (m, 0x06, some line)
    else compressLines width noGrow overlay limit true cur (line + 1) r
      (m.add kind width p.length (makeBlock kind width line r.isEmpty overlay cur p))

/-- DECOMPRESS (R152, R153): the summary, status code, failing check and line at which it stopped. -/
def decompressBlocks (width limit : Nat) (overlay : Bool) :
    Nat → Nat → List Nat → List Byte → SvcSum → SvcSum × Nat × Nat × Option Nat
  | 0, _, _, _, m => (m, 0x00, 0, none)
  | fuel + 1, line, up, b, m =>
    if b.isEmpty then (m, 0x00, 0, none)
    else if b.length < 16 then (m, 0x0A, 6, some line)
    else
      let h := readHdr b
      let bad := match check123 h with
        | some c => some c
        | none => if 3 < h.flags || h.overlay != overlay then some 4
          else match check56 h width (b.length - 16) with
            | some c => some c
            | none => if h.line != line then some 7 else none
      match bad with
      | some c => (m, 0x0A, c, some line)
      | none =>
        match decodeBlock h ((b.drop 16).take h.payload) up with
        | .inr c => (m, 0x0A, c, some line)
        | .inl ps =>
          if limit < m.out.length + width / 2 then (m, 0x0C, 0, some line)
          else decompressBlocks width limit overlay fuel (line + 1) ps (b.drop (16 + h.payload))
            (m.add h.kind h.pixels h.payload (pack ps))

/-- Pieces of `n` bytes. -/
def chunks (n : Nat) : Nat → List Byte → List (List Byte)
  | 0, _ => []
  | k + 1, b => b.take n :: chunks n k (b.drop n)

end Sys2Proof.Machine
end

