-- ==== Sys2Proof/Config.lean ====
section
/-! DEFINITION. Values that the manual leaves open although the machine goes on: each an opaque function, so that
nothing can be proved about the value (the log entries name them). The first argument is the counter `freeCtr` of
State, which every use advances. -/

namespace Sys2Proof.Config

/-- Result of a law-engine function whose rounding the manual bounds and does not fix, as a binary32 pattern:
the operand follows the counter. -/
opaque freeF32 : Nat → F32 → F32

/-- A byte that the manual leaves open. -/
opaque freeByte : Nat → Byte

/-- A number that the manual leaves open. -/
opaque freeNat : Nat → Nat

/-- A truth value that the manual leaves open. -/
opaque freeBool : Nat → Bool

/-- A point of a compensated item's table (R213), from the words of OTP region 0, whose layout the manual does not give: item
(BACKUP trim, AON trim, thermistor gain, diode gain) and point 0 to 11. -/
opaque tempPoint : Nat → Nat → List (Nat × Word) → Int

/-- SINCOS of an operand, and a quotient of two (R296), where the manual bounds the error of a result and does not fix
the result; the same for every execution with the same operands. -/
opaque lawSin : F32 → F32
opaque lawCos : F32 → F32
opaque lawQuot : F32 → F32 → F32

/-- MIN and MAX of a NaN and a number answer NaN. -/
opaque lawMinNan : Bool

/-- MIN and MAX of two zeros of unlike sign answer the first operand. -/
opaque lawMinZero : Bool

/-- The quantity of an OBS block whose word q is no integer from 0 to 31. -/
opaque lawQuantity : F32 → Nat

/-- The index of LD and ST for a NaN. -/
opaque lawIndex : F32 → Nat

/-- What an in-port that nothing feeds reads as. -/
opaque freePort : Nat → F32

end Sys2Proof.Config
end

