-- ==== Sys2Proof/Machine/Float.lean ====
section
/-! DEFINITION. binary32 arithmetic of the law engine (R296), exact comparison, and conversion of numbers to and from
binary32. A finite value is the integer `Fp.val` times 2⁻¹⁴⁹. -/

namespace Sys2Proof.Fp

def negBit (x : F32) : Bool := x.toNat / 2 ^ 31 = 1
def expo (x : F32) : Nat := x.toNat / 2 ^ 23 % 256
def frac (x : F32) : Nat := x.toNat % 2 ^ 23

/-- Neither NaN nor an infinity. -/
def finite (x : F32) : Bool := expo x < 255

/-- A finite value times 2¹⁴⁹. -/
def mag (x : F32) : Nat :=
  if expo x = 255 then 0 else if expo x = 0 then frac x else (frac x + 2 ^ 23) * 2 ^ (expo x - 1)

def exact (x : F32) : Int := if negBit x then -(mag x : Int) else mag x

/-- A pattern as an operand of the law engine: a subnormal is read as +0 (R296). -/
def flush (x : F32) : F32 := if expo x = 0 && frac x != 0 then 0 else x

def val (x : F32) : Int := exact (flush x)

/-- `n ÷ d` rounded to the nearest integer, ties to even. -/
def divEven (n d : Nat) : Nat :=
  let q := n / d
  let r := n % d
  if 2 * r > d || (2 * r = d && q % 2 = 1) then q + 1 else q

/-- floor(log₂(n ÷ d)) for n, d above 0. -/
def log2Rat (n d : Nat) : Int :=
  let l : Int := (Nat.log2 n : Int) - Nat.log2 d
  let ge : Bool := if 0 ≤ l then d * 2 ^ l.toNat ≤ n else d ≤ n * 2 ^ (-l).toNat
  if ge then l else l - 1

/-- Magnitude bits of the binary32 nearest to n ÷ d, ties to even, with gradual underflow; a magnitude past the
largest finite value takes that value (R296). -/
def magBits (n d : Nat) : Nat :=
  if n = 0 then 0 else
    let e := log2Rat n d
    let q : Int := max (e - 23) (-149)
    let m := if 0 ≤ q then divEven n (d * 2 ^ q.toNat) else divEven (n * 2 ^ (-q).toNat) d
    let b := if -126 ≤ e then (e + 126).toNat * 2 ^ 23 + m else m
    min b 0x7F7FFFFF

def build (neg : Bool) (bits : Nat) : F32 := BitVec.ofNat 32 (bits + if neg then 2 ^ 31 else 0)

/-- binary32 nearest to n ÷ d, subnormals kept: a decimal limit of a section table (R525), a converted number. -/
def ofRat (n : Int) (d : Nat) : F32 := build (n < 0) (magBits n.natAbs d)

/-- Result of an operation with exact value n ÷ 2ᵏ: rounded, a subnormal written as +0 (R296; log 95). `z` is the sign of
an exact zero; a value that rounds to zero keeps its sign. -/
def result (n : Int) (k : Nat) (z : Bool) : F32 :=
  if n = 0 then build z 0 else
    let b := magBits n.natAbs (2 ^ k)
    if b = 0 then build (n < 0) 0 else if b < 2 ^ 23 then 0 else build (n < 0) b

def neg (x : F32) : F32 := build (!negBit x) (x.toNat % 2 ^ 31)

def abs (x : F32) : F32 := build false ((flush x).toNat % 2 ^ 31)

def lt (a b : F32) : Bool := val a < val b
def le (a b : F32) : Bool := val a ≤ val b
def eq (a b : F32) : Bool := val a = val b

def one : F32 := 0x3F800000
def half : F32 := 0x3F000000

/-- Integer part towards zero. -/
def trunc (x : F32) : Int := let v := val x; if v < 0 then -((-v) / 2 ^ 149) else v / 2 ^ 149

/-- Value times `k`, rounded down. -/
def floorTimes (x : F32) (k : Nat) : Int := (exact x * k) / 2 ^ 149

/-- x ≤ n ÷ d with the right side at its nearest binary32 (R525). -/
def leDec (x : F32) (n : Int) (d : Nat) : Bool := exact x ≤ exact (ofRat n d)
def geDec (x : F32) (n : Int) (d : Nat) : Bool := exact (ofRat n d) ≤ exact x

/-- Finite, and within n₁ ÷ d to n₂ ÷ d. -/
def within (x : F32) (lo hi : Int) (d : Nat) : Bool := finite x && geDec x lo d && leDec x hi d

/-- Finite and above 0. -/
def pos (x : F32) : Bool := finite x && decide (0 < exact x)

/-- Finite and at least 0. -/
def nonneg (x : F32) : Bool := finite x && decide (0 ≤ exact x)

end Sys2Proof.Fp
end

