-- ==== Sys2Proof/Machine/Tab.lean ====
section
/-! DEFINITION. Numbered tables of like things (eight stations, sixteen axes) and the 512-bit source masks of the
fault collector. -/

namespace Sys2Proof.Machine

/-- Entry `i` of a table replaced by `f` of itself. -/
def upd {α : Type} {n : Nat} (v : Vector α n) (i : Fin n) (f : α → α) : Vector α n := v.set i (f v[i])

/-- Entry by a number, with what an index past the end reads as. -/
def tab {α : Type} {n : Nat} (v : Vector α n) (d : α) (i : Nat) : α := v.toList.getD i d

/-- Entry by a number replaced; nothing past the end. -/
def updAt {α : Type} {n : Nat} (v : Vector α n) (i : Nat) (f : α → α) : Vector α n :=
  if h : i < n then v.set i (f v[i]) else v

/-- Every entry of a list at one place replaced. -/
def listUpd {α : Type} (l : List α) (i : Nat) (f : α → α) : List α := l.modify i f

/-- A source mask: registers j = 0 to 15 of 32 bits, bit b of register j standing for source 32j + b. -/
abbrev Mask := Vector Word 16

def Mask.empty : Mask := Vector.replicate 16 0

def Mask.has (m : Mask) (s : Nat) : Bool := (tab m 0 (s / 32)).getLsbD (s % 32)

def Mask.put (m : Mask) (s : Nat) : Mask := updAt m (s / 32) (· ||| (1#32 <<< (s % 32)))

def Mask.drop (m : Mask) (s : Nat) : Mask := updAt m (s / 32) (· &&& ~~~(1#32 <<< (s % 32)))

/-- The sources of a mask, ascending. -/
def Mask.sources (m : Mask) : List Nat := (List.range 512).filter m.has

end Sys2Proof.Machine
end

