-- ==== Sys2Proof/Machine/Types/Core.lean ====
section
/-! DEFINITION. State of the engine (chapter 01), the fault collector (chapter 14) and the boot (chapter 02). -/

namespace Sys2Proof.Machine

/-- Table "Engine state codes". -/
inductive EngState where
  | down | boot | idle | armed | run | halting | belay | safe | service
  deriving DecidableEq, Repr

/-- ENG_STATE.STOP. -/
inductive Stop where
  | none | halt | belay | ramp | coast
  deriving DecidableEq, Repr

/-- A message taken up from a queue: whom a completion is for. `epoch` counts the enables of the pair, so that a
completion of a message taken up before a disable is never written (R65). -/
structure MsgRef where
  q : Fin 8
  tag : Nat
  epoch : Nat
  deriving DecidableEq, Repr

/-- The engine (R14, R24 to R31) and ENG_IRQ (R506). -/
structure Engine where
  state : EngState
  prev : EngState
  /-- TARGET of the STATE_SET in progress; none reads 0xF -/
  target : Option EngState
  stop : Stop
  /-- ENG_STATE.ESTOP (R422) -/
  estop : Bool
  /-- marks of a belay stop (table "State transitions", rows 15 to 17) -/
  markEstop : Bool
  markCritical : Bool
  bootFail : Bool
  /-- the stop that STOP names has not reached standstill (ENG_EVENT.STOP_DONE) -/
  stopOpen : Bool
  cause : Nat
  stateTick : Nat
  /-- state before the first transition of tick `stateTick`, and the rank of the most severe trigger of that tick (R29): the
  model's own fields -/
  tickFrom : Option EngState
  tickSev : Nat
  evStateChg : Bool
  evArmTmo : Bool
  evStopDone : Bool
  armTmo : Nat
  coastTmo : Nat
  /-- the STATE_SET in progress (R26) -/
  setReq : Option MsgRef
  /-- ring time in ticks (ENG_TICK) -/
  time : Nat
  /-- ticks since AON power-on reset released -/
  sincePor : Nat
  irqVector : Nat
  irqEn : Bool
  irqMask : BitVec 3
  /-- tick of the newest ENG_IRQ message that an ENG_EVENT bit sent (R506), and of the newest power failure (R29): the model's
  own fields -/
  irqTick : Option Nat
  pfTick : Option Nat
  deriving DecidableEq, Repr

/-- Fault log entry (table "Fault log entry"). -/
structure FaultEntry where
  source : Nat
  reaction : Nat
  first : Bool
  same : Bool
  suppressed : Bool
  count : Nat
  tick : Nat
  /-- rank of the reaction among the triggers of its tick (R29): the model's own field -/
  rank : Nat
  deriving DecidableEq, Repr

/-- FLT_FIRST and FLT_FIRST_TICK while VALID is 1. -/
structure FirstFault where
  source : Nat
  cls : Nat
  reaction : Nat
  tick : Nat
  deriving DecidableEq, Repr

/-- A dual-polarity pair (R426): the two levels, whether it counts as active, and the wire fault. -/
structure Pair where
  t : Bool
  c : Bool
  active : Bool
  wire : Bool
  /-- the WIRE bit, write 1 to clear -/
  wireSeen : Bool
  deriving DecidableEq, Repr

/-- The fault collector (R412 to R430). -/
structure Faults where
  first : Option FirstFault
  ovf : Bool
  sticky : Mask
  same : Mask
  active : Mask
  /-- newest last, at most 512 (R417) -/
  log : List FaultEntry
  raised : Nat
  clears : Nat
  /-- FAULT_L is low -/
  pinLow : Bool
  pinPulse : Bool
  /-- sources still active after an accepted FAULT_CLEAR are raised again in the next tick (R424) -/
  rearm : Bool
  /-- tick whose FAULT event is due at its end (R418) -/
  evtTick : Option Nat
  /-- tick in which an accepted FAULT_CLEAR emptied a latch that an earlier tick had taken (R423) -/
  barTick : Option Nat
  /-- tick of the newest raise, and the sources raised in it -/
  curTick : Nat
  curSrcs : List Nat
  sto : Pair
  estop : Pair
  deriving DecidableEq, Repr

/-- A section that boot step 7 loaded: its type and payload bytes (R526). -/
structure Section where
  ty : Nat
  bytes : List Byte
  deriving DecidableEq, Repr

/-- Table "Boot failure codes". -/
inductive BootFail where
  | none | noFlash | header | layout | sectionHdr | sectionCrc | sectionContent | keyHash | signature | imageChanged
  | otpInvalid | xtal | pllLock | powerSeq | ringEnum | stageTrain | stepTimeout
  deriving DecidableEq, Repr

/-- The boot (R33 to R61) and what it loaded. -/
structure Boot where
  step : Nat
  slot : Nat
  fallback : Bool
  /-- the fall-back of R42 has been taken since step 5 -/
  fellBack : Bool
  secure : Bool
  signed : Bool
  trimDefault : Bool
  calibFail : Bool
  ovrInvalid : Bool
  optMissing : Bool
  fail : BootFail
  mode : Nat
  sectionCode : Nat
  item : Nat
  /-- BOOT_STEP_END1 to BOOT_STEP_END12 -/
  ends : Vector Nat 12
  /-- the two slot headers as step 5 read them -/
  hdr0 : List Byte
  hdr1 : List Byte
  /-- the section walk of R526: byte position, sections read, types met -/
  walkPos : Nat
  walkCount : Nat
  seen : List Nat
  /-- sections loaded, in image order -/
  sections : List Section
  /-- image bytes that step 7 has read before a SIGNATURE section header (R45) -/
  read7 : List Byte
  /-- step 6 digest of the signed data (R45) -/
  digest : Option Nat
  /-- the PCIe link is trained (R49) -/
  linkTrained : Bool
  /-- runs of the boot, and boot failures, since AON reset: the model's own field -/
  run : Nat
  /-- a restart of the boot waits for the end of the shut-down sequence (R54, log 52) -/
  restart : Bool
  /-- the first entry to IDLE after a power failure still has records to post (R90) -/
  fromCairn : Bool
  /-- calibration record in use, 2,296 bytes (R57 to R61) -/
  calib : List Byte
  deriving DecidableEq, Repr

/-- W1C bits that the controller has set in one tick, each as 8 × its register's BAR0 offset plus its bit number (R5), and by a
bit that no write reaches the registers of running maxima whose newest value is of that tick (R502): the model's own field. -/
structure W1cSet where
  tick : Nat
  bits : List Nat
  deriving DecidableEq, Repr

end Sys2Proof.Machine
end

