-- ==== Sys2Proof/Machine/Types/Dma.lean ====
section
/-! DEFINITION. State of the DMA engine and check units (chapter 17), and of the in-service test and the TAP (chapter 18). -/

namespace Sys2Proof.Machine

/-- Table "Channel state codes". -/
inductive ChState where
  | idle | running | waiting | ended | stopped | halted
  deriving DecidableEq, Repr

/-- CHn_ERR.KIND. -/
inductive DmaErr where
  | none | readError | timeout | illegal | address | poison | loopOverflow | refusedWrite
  deriving DecidableEq, Repr

/-- An active loop: slot of its LOOP, REMAIN, backward jumps made (R475). -/
structure LoopFrame where
  slot : Nat
  remain : Nat
  jumps : Nat
  deriving DecidableEq, Repr

/-- A MOVE or SCAN whose bursts are being served: what the host and the reads of lines show, the offset of the next burst,
and the line read last with its poison (R478). -/
structure DmaWork where
  host : DmaHost
  ecc : List (Nat × EccRead)
  off : Nat
  line : Option (Nat × Bool)
  deriving DecidableEq, Repr

/-- One DMA channel. -/
structure Chan where
  state : ChState
  dbPend : Bool
  sig : Bool
  half : Bool
  full : Bool
  loops : List LoopFrame
  pc : Nat
  vector : Nat
  irqEn : Bool
  poison : Bool
  entry : Nat
  tail : Nat
  endAt : Nat
  errPc : Nat
  errKind : DmaErr
  errAddr : Nat
  errSpace : Nat
  /-- words of the instruction in progress, as the engine read them -/
  cur : Option (Nat × Nat)
  /-- its bursts, where some are still to be served -/
  work : Option DmaWork
  /-- its bursts have been issued, and it waits for their completions -/
  issued : Bool
  /-- host address of a burst that it has outstanding -/
  hostOut : Option Nat
  /-- its failure, with the failing beat's address and space -/
  failed : Option (DmaErr × Nat × Nat)
  /-- STOP waits for the boundary -/
  stopReq : Bool
  /-- the check unit that a SCAN in progress waits for -/
  unitWait : Option Nat
  /-- tick at which the WAIT in progress started, and whether its press event or unit event has occurred since -/
  waitStart : Nat
  seen : Bool
  deriving DecidableEq, Repr

/-- One check unit. -/
structure CheckUnit where
  poly : Nat
  fold : Bool
  run : Nat
  done : Bool
  busy : Bool
  poison : Bool
  owner : Nat
  deriving DecidableEq, Repr

/-- The DMA engine with the check units. -/
structure Dma where
  /-- program RAM: 64-bit words that are not 0, by rising word number (slot s: words 2s and 2s + 1) -/
  ram : List (Nat × Nat)
  /-- words that are uncorrectable, rising -/
  ramBad : List Nat
  ch : Vector Chan 16
  cu : Vector CheckUnit 4
  flags : BitVec 16
  /-- the channel at which the round robin goes on (R478): the model's own field -/
  turn : Nat
  deriving DecidableEq, Repr

/-- One in-service test. -/
structure IstTest where
  lap : Nat
  item : Nat
  laps : Nat
  failLap : Option Nat
  /-- the lap in progress has failed, and the last lap -/
  failed : Bool
  lastFailed : Bool
  running : Bool
  /-- tick at which the lap in progress began, and IST_LAP raised for it -/
  start : Nat
  lapRaised : Bool
  /-- parts of the lap that have passed, rising (R491) -/
  passed : List Nat
  deriving DecidableEq, Repr

/-- The in-service test controller. -/
structure Ist where
  en : BitVec 7
  berLim : Nat
  lapLim : Nat
  seen : BitVec 7
  fails : Nat
  test : Vector IstTest 7
  /-- sample of the last injection of test 0; sample of the last words of test 2, and their number; ticks of the last march
  and of the last conversion set -/
  injected : Option Nat
  words : Nat × Nat
  marched : Option Nat
  converted : Option Nat
  /-- of each station: the facet of the last hits and its hits, and the hits of the lap (test 4) -/
  hits : Vector (Nat × Nat) 8
  tdc : Vector Nat 8
  /-- of each port: tick at which its count began, END CRC failures then, and invalid sync headers since (test 6) -/
  ring : Vector (Option (Nat × Nat × Nat)) 4
  deriving DecidableEq, Repr

/-- TAP instructions (table "Instructions" of chapter 18). -/
inductive TapInstr where
  | bypass | idcode | samplePreload | extest | extestPulse | extestTrain | clamp | highz
  deriving DecidableEq, Repr

/-- The TAP: instruction in force, the one under which the register behaves, and whether it holds the pins (R494). -/
structure Tap where
  ir : TapInstr
  cells : TapInstr
  holds : Bool
  deriving DecidableEq, Repr

end Sys2Proof.Machine
end

