-- ==== Sys2Proof/Machine/Types/Drive.lean ====
section
/-! DEFINITION. State of the stage links, axes, ropes, DC buses, the ramp unit and the auxiliary axes (chapter 11),
and of process supplies and thermal management (chapter 12). -/

namespace Sys2Proof.Machine

/-- One slot of a stage link (R330, R331, R337). -/
structure StageSlot where
  /-- last fresh frame's currents, VDC, POS, ALIVE, TEMP and FLAGS -/
  iu : Int
  iv : Int
  iw : Int
  vdc : Nat
  pos : Nat
  /-- POS of the fresh frame before it, for the position change -/
  posPrev : Nat
  alive : Option Bool
  temp : Int
  flags : Nat
  /-- fresh in this sample -/
  fresh : Bool
  /-- samples in a row without a fresh frame, and the STAGE_LOST episode -/
  missing : Nat
  lostEp : Bool
  /-- chopper: samples in a row with duty at least 0.25 and current below CHOP_I_MIN (R348) -/
  lowI : Nat
  /-- downstream MODE and three value fields as last sent -/
  mode : Nat
  f0 : Nat
  f1 : Nat
  f2 : Nat
  en : Bool
  deriving DecidableEq, Repr

/-- One stage link. -/
structure StageLink where
  up : Bool
  pair : Pair
  /-- the INH pair is asserted -/
  inh : Bool
  /-- asserted by R335 until FAULT_CLEAR -/
  inhHeld : Bool
  crcErr : Nat
  echoErr : Nat
  rtt : Nat
  training : Bool
  /-- SAMPLE of the last downstream frame -/
  sample : Nat
  /-- a valid frame arrived in this sample, its highest VDC, and an ECHO right or wrong was counted -/
  valid : Bool
  vdc : Nat
  echoed : Bool
  flags0 : Nat
  flags1 : Nat
  slot : Vector StageSlot 2
  deriving DecidableEq, Repr

/-- One DC bus (R347 to R350). -/
structure DcBus where
  /-- V_b in 0.1 V, and whether it is of this sample -/
  vdc : Nat
  fresh : Bool
  absorbLost : Bool
  trip : Bool
  /-- duty sent, in 1/65,535 -/
  duty : Nat
  /-- samples in a row above VBUS_TRIP -/
  ovr : Nat
  deriving DecidableEq, Repr

/-- One rope (R341 to R346, R352). -/
structure Rope where
  still : Bool
  splice : Bool
  /-- samples in a row with tension out of range or stale, and the episode -/
  tens : Nat
  tensEp : Bool
  /-- samples in a row in which every member axis was within AXIS_STILL (R352) -/
  quiet : Nat
  /-- ring cycles in a row in which its SHARE and BACK channels were stale (R343) -/
  shareMiss : Nat
  backMiss : Nat
  /-- speed reference of the last boundary, in m/s (port k = 0) -/
  vRef : F32
  deriving DecidableEq, Repr

/-- The ramp unit (R354): sample of its first boundary, per axis sign of ω at the start and OFF. -/
structure RampUnit where
  active : Bool
  start : Option Nat
  sign : Vector Int 16
  off : Vector Bool 16
  deriving DecidableEq, Repr

/-- Table "Auxiliary axis states". -/
inductive AuxState where
  | idle | moving | stopping | suspended | fault
  deriving DecidableEq, Repr

/-- One auxiliary axis (R357 to R360). -/
structure Aux where
  target : Int
  /-- held target of the move -/
  held : Int
  pos : Int
  speed : Nat
  accel : Nat
  state : AuxState
  reject : Bool
  fltIn : Bool
  /-- direction of the move when the limit became active -/
  limitDir : Bool
  /-- the stop in progress was an ABORT, and ends in IDLE -/
  abort : Bool
  /-- present direction: true is positive -/
  dir : Bool
  /-- steps of the ramp from rest to the present speed, and the interval loaded, in 1/65,536 SYS cycle (log 46) -/
  rampSteps : Nat
  interval : Nat
  deriving DecidableEq, Repr

/-- Temperatures and throttling (R364 to R371). -/
structure Therm where
  level : Nat
  critical : Bool
  pinned : Bool
  /-- T_J in 0.1 °C -/
  tj : Int
  /-- °C as binary32: NTC0 to NTC15, DIODE0 to DIODE3, on-die sensors 0 to 5 -/
  value : Vector F32 26
  broken : Vector Bool 26
  /-- conversions in a row outside the limits, or inside them while broken -/
  run : Vector Nat 26
  /-- last on-die readings in 0.1 °C -/
  die : Vector Int 6
  deriving DecidableEq, Repr

/-- Fuser heaters (R372 to R375); `acc` in 2⁻¹⁴⁹. -/
structure Heaters where
  on : Vector Bool 4
  cutoff : Vector Bool 4
  acc : Vector Nat 4
  /-- MODE 1: this edge holds the decision of the one before -/
  half : Vector Bool 4
  zcOk : Bool
  zcPeriod : Nat
  good : Nat
  /-- tick from which the present high phase is still to be charged, and ticks high not charged yet (R466) -/
  since : Vector Nat 4
  high : Vector Nat 4
  deriving DecidableEq, Repr

/-- High-voltage channels (R376 to R380). -/
structure Hv where
  live : BitVec 24
  missing : Vector Nat 24
  faultEp : BitVec 24
  arcEp : BitVec 24
  lostEp : BitVec 24
  /-- set-points sent: voltage, current limit, enable -/
  sent : List (Nat × F32 × F32 × Bool)
  deriving DecidableEq, Repr

end Sys2Proof.Machine
end

