-- ==== Sys2Proof/Machine/Types/Expo.lean ====
section
/-! DEFINITION. State of the exposure pipeline and its links (chapter 08) and of the spindle channels (chapter 09). -/

namespace Sys2Proof.Machine

/-- What blanks a station: an open interlock (R249), its laser enable held low otherwise, the temperature limit (R252), a
BLANK_STATION reaction (R420), a channel that is not locked (R31, R273), FACET_SLIP (R173), an unlocked EXP PLL (table
"Consequences of an unlock"). -/
inductive BlankKind where
  | interlock | laser | temp | reaction | spindle | slip | pll
  deriving DecidableEq, Repr

/-- A condition that blanks a station, with the spoil cause and source of the lines that it blanks. -/
structure BlankCond where
  kind : BlankKind
  cause : Nat
  source : Nat
  deriving DecidableEq, Repr

/-- Why a station is blank (R173, R250, R273): the conditions held, oldest first. When the last one clears, the station waits
for line 0 of the first frame due. -/
structure BlankCause where
  conds : List BlankCond
  /-- the conditions have cleared, and the station waits for line 0 (R250) -/
  resume : Bool
  /-- spoil cause and source of the condition that cleared last -/
  last : Nat × Nat
  deriving DecidableEq, Repr

/-- What a slot of a facet carries: frame-table entry, frame number, line, whether it is late, and spoil cause and source
of a line that is off. -/
structure SlotLine where
  entry : Nat
  number : Nat
  line : Nat
  late : Bool
  off : Option (Nat × Nat)
  deriving DecidableEq, Repr

/-- The facet in progress at a station: number, window, FACET.BLANK, whether its pulse was one of anchored mode, interval in
1/65,536 SYS cycle, tick of its pulse and t_ref after that tick in 8 ps, slots B0 to B31, and the settings that its words take.
Slots from `split` on take the second of two settings. -/
structure FacetNow where
  k : Nat
  w : Nat
  blank : Bool
  anchored : Bool
  ref : Int
  tk : Nat
  tick : Nat
  lines : List (Option SlotLine)
  split : Nat
  /-- the tone entries of the frame that it starts are in force (R231); true where it starts none -/
  toned : Bool
  tone0 : Vector Nat 16
  tone1 : Vector Nat 16
  derate0 : Bool
  derate1 : Bool
  dead : BitVec 36
  xreg : Int
  cross : Vector Int 8
  deriving DecidableEq, Repr

/-- A 66-bit block of the forward stream (R234, table "Forward control blocks"): a control block by its fields, or a data block
with its four pixel words. The time of START is t_0 in 8 ps while the block waits, and DELAY as it is sent (R235). -/
inductive FwdBlock where
  | idle
  | facet (k w : Nat) (blank : Bool) (tG : Nat)
  | start (t : Int)
  | cfg (addr data : Nat)
  | chk (crc span : Nat)
  | test (emitter i1 i2 : Nat)
  | data (words : List Nat)
  deriving DecidableEq, Repr

/-- A forward lane (R236): blocks since its last CHK, CRC register over them, span number counted from link-up without wrap,
and the block sent last. -/
structure Lane where
  count : Nat
  crc : Nat
  span : Nat
  last : FwdBlock
  deriving DecidableEq, Repr

/-- The facet in exposure, from its start of scan to the next one: t_0 in 8 ps of the tick count, interval in 1/65,536 SYS
cycle, how long before its slot a word leaves in 8 ps, FACET.BLANK, whether START has gone to the lanes, the next slot whose words
leave, and whether the blocks of its retrace have been sent. -/
structure FacetOut where
  t0 : Int
  tk : Nat
  lead : Nat
  blank : Bool
  started : Bool
  next : Nat
  retraced : Bool
  deriving DecidableEq, Repr

/-- A facet that has been sent: number, job, frame numbers and lines of its slots, and for each lane the first and last span
that carried its data blocks (R241). -/
structure SentFacet where
  k : Nat
  job : Nat
  lines : List (Nat × Nat)
  spans : Vector (Option (Nat × Nat)) 4
  deriving DecidableEq, Repr

/-- Emitter health of one emitter (R244, R245). -/
structure Emitter where
  /-- sum in mΩ and number of the readings that learn the baseline, at most 8 -/
  sum : Int
  count : Nat
  strikes : Nat
  deriving DecidableEq, Repr

/-- The exposure pipeline and link of one station. -/
structure Expo where
  linkUp : Bool
  echo : Bool
  derate : Bool
  /-- derating ends at line 0 of the next frame (R251) -/
  derateEnd : Bool
  tempLimit : Bool
  uncomp : Bool
  /-- failing spans since boot, and the last CRC_ERR of a good frame -/
  crcErr : Nat
  lastCrc : Nat
  /-- consecutive frames missing or discarded -/
  bad : Nat
  temp : Int
  hold : Bool
  tone : Vector Nat 16
  /-- entries written and not yet in force, newest first, each with the tick from which it waits for a frame (R231) -/
  toneSet : Vector (List (Nat × Nat)) 16
  lateLine : Nat
  lateCount : Nat
  hEmitter : Nat
  hStrikes : Nat
  hRd : Nat
  mlc : Nat
  dead : BitVec 36
  /-- dead mask that the next facet compensates (R246) -/
  emit : Vector Emitter 36
  /-- next emitter of the rotation (R243), and the emitter under test with the tick by which its reading must arrive -/
  rot : Nat
  test : Option (Nat × Nat)
  cfgAddr : Nat
  cfgData : Nat
  cfgPend : Bool
  blank : BlankCause
  now : Option FacetNow
  out : Option FacetOut
  /-- slot words of the facet in exposure, beam by beam: slot and word, off words left out -/
  words : List (List (Nat × Nat))
  /-- the newest facets sent, newest first -/
  sent : List SentFacet
  /-- blocks that wait for a lane, the four lanes, and the time since the last block in 1/8 ns: a lane sends a block every
  4.125 ns (R234) -/
  queue : List FwdBlock
  lanes : Vector Lane 4
  phase : Nat
  deriving DecidableEq, Repr

/-- Interlock inputs and laser enables (R247 to R249). `true` is open. -/
structure Interlocks where
  cover : Vector Bool 8
  web : Bool
  jam : Bool
  lsr : Vector Bool 8
  /-- ticks since AON reset at which the inputs closed (R248) -/
  coverAt : Vector Nat 8
  webAt : Nat
  jamAt : Nat
  deriving DecidableEq, Repr

/-- Table "Channel state codes". -/
inductive SpState where
  | off | sense | align | ramp | closed | brake | coast | short | halted
  deriving DecidableEq, Repr

/-- What a row of this tick owes to other units at the tick's end (R264). -/
inductive SpOwed where
  /-- OFF has been entered: STATE_SET IDLE may have waited for it (R25) -/
  | off
  | syncLoss
  | drive
  deriving DecidableEq, Repr

/-- A channel that a row has moved in this tick: what it was before, which row 17 or 18 of the same tick restores, and what the
row owes (R264). -/
structure SpTurn where
  state : SpState
  tries : Nat
  syncLosses : Nat
  startFail : Bool
  barred : Bool
  owed : List SpOwed
  deriving DecidableEq, Repr

/-- One spindle channel. Observer speed in 1/16 rpm, i_d in 10 mA, duty in 1/4,096, advance in 0.125°; values of the
speed loop in 2⁻²⁴ rpm, rpm per second, facet or A (log 37). -/
structure Spindle where
  state : SpState
  /-- the run command in force (R258) -/
  runCmd : Bool
  reverse : Bool
  /-- the next ALIGN begins a start of its own, with fresh start tries (R277, R281; log 99) -/
  fresh : Bool
  /-- speed command of a pin source in 2⁻²⁴ rpm, and CMD as PARAM_SET wrote it -/
  cmd : Int
  param : F32
  samples : List Nat
  /-- set-point after the rate limit of R261 -/
  setPoint : Int
  speed : Int
  duty : Nat
  adv : Nat
  id : Int
  idRef : Int
  /-- integral of the speed loop, and the loop's current command -/
  integ : Int
  iCmd : Int
  wRef : Int
  aRef : Int
  phase : Int
  wCmd : Int
  fwCount : Nat
  freqOk : Bool
  lockRevs : Nat
  badRevs : Nat
  /-- locked by R272, apart from the learning condition of R204 -/
  locked : Bool
  regenLim : Bool
  cmdLost : Bool
  catchFail : Bool
  startFail : Bool
  /-- no start until the run command has been absent (R269) -/
  barred : Bool
  tries : Nat
  syncLosses : Nat
  lastInterval : Option Nat
  agree : Nat
  /-- COAST: still trying to catch (R281) -/
  catching : Bool
  /-- COAST entered at STOP_TMO: row 13 alone ends it (R275) -/
  resting : Bool
  /-- BRAKE has been entered, and the channel has reached neither OFF nor a new start since (R275) -/
  braking : Bool
  desat : BitVec 6
  oc : Bool
  bsUv : BitVec 3
  firstLeg : Nat
  /-- tick of that event -/
  firstTick : Nat
  ovf : Bool
  events : Nat
  /-- high gate of leg l held low by R289 -/
  bsHold : BitVec 3
  fullOn : Vector Nat 3
  /-- leg that the next period refreshes (R290) -/
  refresh : BitVec 3
  /-- gate outputs UH, UL, VH, VL, WH, WL -/
  gates : BitVec 6
  sector : Nat
  /-- electrical angle to go to the commutation that the last zero crossing fixed, or in RAMP to the next one of the open loop, in
  2⁻²⁴ degree, negative after it until its softening ramp has ended (R266 to R268) -/
  comm : Option Int
  /-- legs that the commutation turns off and on, and the duties of both, in 1/4,096 (R266) -/
  outLeg : Nat
  inLeg : Nat
  outDuty : Nat
  inDuty : Nat
  /-- RAMP: the open-loop rate in 2⁻²⁴ rpm (R268) -/
  rampRate : Int
  turn : Option SpTurn
  deriving DecidableEq, Repr

/-- Bridge and gate supplies (R288, R291, R292). -/
structure SpBus where
  vbus : Nat
  vcp : Nat
  vbusUv : Bool
  vbusOv : Bool
  vcpUv : Bool
  rpsOn : Bool
  rpsRev : Bool
  deriving DecidableEq, Repr

end Sys2Proof.Machine
end

