-- ==== Sys2Proof/Machine/Types/Host.lean ====
section
/-! DEFINITION. State of the host link: queues, messages in progress, jobs, frames, results and the spoil log
(chapter 03). -/

namespace Sys2Proof.Machine

/-- Table "Status codes". -/
inductive Status where
  | ok | opcode | field | range | busy | notReady | noRoom | quota | locked | state | integrity | noGrow | expansion
  | timeout | budget | otpCrc | verify
  deriving DecidableEq, Repr

/-- A completion or an event (table "Completion entry"). -/
structure Completion where
  tag : Nat
  status : Status
  rep : Bool
  more : Bool
  event : Bool
  result : Nat
  time : Nat
  deriving DecidableEq, Repr

/-- What an entry waits for: free slots of its completion queue (R68), FENCE, and as a PARAM_SET that no other waits (R315). -/
structure EntryNeed where
  slots : Nat
  fence : Bool
  param : Bool
  deriving DecidableEq, Repr

/-- One queue pair (R65 to R69). -/
structure QPair where
  enable : Bool
  size : Nat
  vector : Nat
  irqEn : Bool
  coalesce : Nat
  dbErr : Bool
  fetchErr : Bool
  /-- halted by a read error until disabled and enabled again (R68) -/
  halted : Bool
  sqHead : Nat
  /-- what the entry at SQ_HEAD waits for, once it has been read -/
  head : Option EntryNeed
  sqTail : Nat
  cqHead : Nat
  sqBase : Nat
  cqBase : Nat
  /-- the controller's write position of the completion queue, and the next phase -/
  cqWr : Nat
  phase : Bool
  /-- completions waiting for a free slot, oldest first -/
  waiting : List Completion
  /-- an interrupt is owed for completions written (R69) -/
  unsignalled : Bool
  /-- messages taken up whose final completion is not written -/
  running : Nat
  /-- the next enable number (see `MsgRef`) -/
  epoch : Nat
  deriving DecidableEq, Repr

/-- HOST_EVT_CFG and the event FIFO (R70). -/
structure Events where
  cq : Fin 8
  enable : Bool
  mask : BitVec 8
  lost : Nat
  fifo : List Completion
  /-- events dropped since the last EVT_LOST -/
  dropped : Nat
  deriving DecidableEq, Repr

/-- Where one repetition of a frame stands at one station. -/
structure StationProg where
  n : Nat
  /-- due position of line 0 at the station, in lines: F + D_n' -/
  due : Int
  /-- lines that ended facets have carried, from line 0 -/
  done : Nat
  /-- lines through the end of the facet in progress -/
  cur : Nat
  /-- first and last spoiled line, and whether a line between them is not spoiled -/
  spoil : Option (Nat × Nat)
  gap : Bool
  deriving DecidableEq, Repr

/-- One started repetition, one frame number (R10, R11). -/
structure Prog where
  job : Nat
  number : Nat
  /-- the FRAME_PUT it is a repetition of -/
  entry : Nat
  /-- start position F in lines -/
  start : Int
  lines : Nat
  stations : List StationProg
  /-- tick in which it started at S0 -/
  tick : Nat
  /-- cause, source and tick of the first spoiled line -/
  cause : Option (Nat × Nat × Nat)
  late : Bool
  /-- a stop cut it; its outcome is final at standstill (R88, R89) -/
  cut : Bool
  deriving DecidableEq, Repr

/-- An entry of the frame table: one FRAME_PUT from its decision on (R78 to R81). -/
structure Frame where
  entry : Nat
  job : Nat
  ref : MsgRef
  raw : Bool
  src : Nat
  len : Nat
  rep : Nat
  /-- frame numbers that its commit takes: REPEAT, whatever JOB_CLOSE withdraws later (R74, R77) -/
  taken : Nat
  /-- frame number whose base layer is reused -/
  base : Option Nat
  /-- first byte and length in the job's run of bytes: reserved, then stored -/
  off : Nat
  size : Nat
  committed : Bool
  /-- first frame number, once committed -/
  first : Nat
  /-- repetitions started, and repetitions printed or spoiled -/
  started : Nat
  ended : Nat
  /-- repetitions spoiled whose records are not acknowledged -/
  spoiled : Nat
  /-- station table: station, offset, length -/
  streams : List (Nat × Nat × Nat)
  deriving DecidableEq, Repr

/-- A job (R74, R79, R85). -/
structure Job where
  id : Nat
  last : Nat
  stations : BitVec 8
  vAdm : Nat
  quota : Nat
  closed : Bool
  /-- queue that QUOTA_FREE names -/
  queue : Fin 8
  /-- occupancy has reached the quota since the last QUOTA_FREE -/
  quotaArmed : Bool
  /-- the job's run of bytes: page k of the run and the store page that holds it -/
  pages : List (Nat × Nat)
  /-- next frame number -/
  next : Nat
  /-- b_n: peak line bytes of each station over the committed frames -/
  peak : Vector Nat 8
  deriving DecidableEq, Repr

/-- Spoiled-frame record (table "Spoiled-frame record"). -/
structure SpoilRec where
  job : Nat
  frameFirst : Nat
  frameLast : Nat
  stations : BitVec 8
  cause : Nat
  source : Nat
  position : Int
  tick : Nat
  seq : Nat
  late : Bool
  merged : Bool
  fromCairn : Bool
  mixed : Bool
  /-- first and last line of each station; none reads 0xFFFFFF in both -/
  range : Vector (Option (Nat × Nat)) 8
  /-- the frame-table entry of each repetition that the record names -/
  entries : List Nat
  /-- further jobs merged into it (R91) -/
  jobs : List Nat
  deriving DecidableEq, Repr

/-- A result kind other than SPOIL (R86): the bytes and whether they have been returned. -/
structure Result where
  bytes : List Byte
  returned : Bool
  deriving DecidableEq, Repr

/-- COMPRESS or DECOMPRESS waiting or in progress (R147, R148, R152). -/
structure Service where
  ref : MsgRef
  src : Nat
  srcLen : Nat
  dst : Nat
  dstLen : Nat
  width : Nat
  noGrow : Bool
  overlay : Bool
  firstLine : Nat
  deriving DecidableEq, Repr

/-- RUN_START or RUN_RESUME that waits for entry by R218, or for its run group by R404. -/
structure RunWait where
  ref : MsgRef
  resume : Bool
  job : Nat
  frames : Nat
  speed : Nat
  accel : Nat
  deriving DecidableEq, Repr

/-- PARAM_SET waiting for its boundary (R315, R316). -/
structure ParamWait where
  ref : MsgRef
  space : Nat
  index : Nat
  value : F32
  /-- number of the boundary at which it applies -/
  due : Nat
  deriving DecidableEq, Repr

/-- RUN_MODIFY waiting for its boundary (R183). -/
structure ModifyWait where
  ref : MsgRef
  speed : Nat
  accel : Nat
  deriving DecidableEq, Repr

/-- A write of the controller into host memory: results, frame-free outputs, completion entries. -/
structure HostWrite where
  addr : Nat
  data : List Byte
  /-- the data carry the EP bit (R481) -/
  ep : Bool := false
  deriving DecidableEq, Repr

/-- The host link. -/
structure HostIf where
  q : Vector QPair 8
  /-- the queue that R67 served last, and the tick of that take-up -/
  turn : Fin 8
  taken : Option Nat
  evt : Events
  /-- HOST_WASTE -/
  wasteDelay : Nat
  wasteMode : Bool
  wasteMin : Nat
  /-- D3hot (R64) -/
  d3hot : Bool
  /-- message address and data of each MSI-X table entry; mask bits and pending bits (R507) -/
  msixTab : Vector (BitVec 96) 64
  msixMask : BitVec 64
  msixPend : BitVec 64
  /-- MSI-X messages sent, newest last -/
  msix : List (Fin 64)
  /-- writes to host memory, newest last -/
  out : List HostWrite
  /-- answers to BAR2 reads, newest last: bytes and EP bit -/
  bar2Out : List (List Byte × Bool)
  /-- upper words that reads of lower words have latched, by their offset (R2) -/
  latch : List (Nat × Nat)
  /-- errors logged under AER: Unsupported Requests and poisoned BAR2 reads (R108, R499) -/
  aer : Nat
  runWait : Option RunWait
  paramWait : Option ParamWait
  modifyWait : List ModifyWait
  /-- COMPRESS messages and raw frames waiting for a compressor, in fetch order; the two compressors -/
  cmpWait : List (Service ⊕ Nat)
  cmp : Vector (Option (Service ⊕ Nat)) 2
  decWait : List Service
  dec : Option Service
  /-- PAGE_RETIRE in progress -/
  retireReq : Option MsgRef
  /-- CONSUMABLE_SYNC in progress: tags still to synchronise, and the number authenticated -/
  syncReq : Option (MsgRef × List Nat × Nat)
  deriving DecidableEq, Repr

/-- Jobs, frames, results and the spoil log. -/
structure Jobs where
  jobs : List Job
  frames : List Frame
  nextEntry : Nat
  prog : List Prog
  /-- spoiled repetitions with a final outcome whose record is not posted -/
  outcome : List Prog
  spoil : List SpoilRec
  spoilSeq : Nat
  spoilMerged : Bool
  /-- records that the last RESULT_GET of SPOIL returned, and their bytes -/
  batch : Nat
  batchBytes : List Byte
  resIdent : Option Result
  resCompress : Option Result
  resDecompress : Option Result
  resLog : Option Result
  /-- waste spans in lines of anchor position, and WASTE_L low with its minimum time elapsed or not (R92) -/
  waste : List (Int × Int)
  wasteLow : Option Bool
  deriving DecidableEq, Repr

end Sys2Proof.Machine
end

