-- ==== Sys2Proof/Machine/Types/Law.lean ====
section
/-! DEFINITION. State of the law engine (chapter 10). -/

namespace Sys2Proof.Machine

/-- A data RAM word: a binary32 pattern and its STALE bit; `bad` marks an uncorrectable word (R325). -/
structure DWord where
  v : F32
  stale : Bool
  bad : Bool
  deriving DecidableEq, Repr

/-- A link update still to write: destination, source value and STALE, start value, step i and steps (R312). -/
structure LinkRun where
  link : Nat
  dest : Nat
  x : F32
  stale : Bool
  v : F32
  i : Nat
  steps : Nat
  deriving DecidableEq, Repr

/-- A latched in-port (R303). -/
structure PortVal where
  port : Nat
  v : F32
  fresh : Bool
  deriving DecidableEq, Repr

/-- LAW_TRAP.KIND. -/
inductive TrapKind where
  | none | lockstep | fetch | overrun
  deriving DecidableEq, Repr

/-- The law engine. -/
structure Law where
  stop : Bool
  /-- STOP as it acts since the last boundary (R327) -/
  stopped : Bool
  halted : Bool
  /-- FAULT_CLEAR entered IDLE and the next boundary restarts the engine (R326) -/
  restart : Bool
  prgBad : Bool
  checkFail : Bool
  /-- IDLE has been entered (R297) -/
  started : Bool
  /-- a boundary has passed since -/
  begun : Bool
  nan : Bool
  clamp : Bool
  last : Nat
  peak : Nat
  budget : Nat
  worst : Nat
  trapPc : Nat
  trapProg : Nat
  trapKind : TrapKind
  ce : Nat
  dataUe : Nat
  /-- program RAM from address 0: instruction words, and the addresses that hold stored poison, rising -/
  prog : List Nat
  progBad : List Nat
  /-- data RAM: words that differ from +0 with STALE 0, by rising index -/
  data : List (Nat × DWord)
  c : Bool
  /-- programs still due in this sample, the first running, and its program counter -/
  due : List Nat
  pc : Nat
  /-- cycles of the sample so far -/
  cycles : Nat
  sample : Nat
  /-- ports latched at the close of the input window -/
  latched : List PortVal
  /-- in-ports that the controller writes at boundaries: 0x0100 to 0x0102, rope ports and HV set-points -/
  ports : List (Nat × F32)
  /-- raw position at the last boundary, in au -/
  rawAt : Int
  /-- out-ports committed, and those written in the sample in progress -/
  outPorts : List (Nat × F32)
  outNew : List (Nat × F32)
  /-- SHARE values sent in this sample, committed for the ring, and of the last ring cycle: those delivered, and, marked
  true, those sent and not delivered (R306) -/
  shareNew : List (Nat × F32)
  shareOut : List (Nat × F32)
  shareIn : List (Nat × F32 × Bool)
  /-- link updates of the programs that completed in this sample, and those under way (R312) -/
  linkNew : List LinkRun
  links : List LinkRun
  /-- quantities in model hold, and over their residual limit (R321), with their episodes (R319) -/
  hold : BitVec 32
  plaus : BitVec 32
  plausEp : BitVec 32
  holdEp : BitVec 32
  deriving DecidableEq, Repr

end Sys2Proof.Machine
end

