-- ==== Sys2Proof/Machine/Types/Power.lean ====
section
/-! DEFINITION. State of the power supervisor and the cairn slots (chapter 15), of the OTP array and the consumable
tags (chapter 16), and of what the persistent store holds besides. -/

namespace Sys2Proof.Machine

/-- What started the shut-down sequence in progress or ended (section "Shut-down", R440, R441, R443). -/
inductive ShutCause where
  | host | critical | masterStep | abort | bootFail | powerFail
  deriving DecidableEq, Repr

/-- A shut-down sequence. -/
structure ShutDown where
  /-- by what the sequence goes on, and what started it (R440, R441) -/
  cause : ShutCause
  origin : ShutCause
  /-- slot in progress; SLOTS once the last slot has ended -/
  slot : Nat
  /-- the rails of the slot are disabled -/
  begun : Bool
  /-- rails not yet discharged, timed out or marked early-off -/
  wait : BitVec 12
  /-- a slave: number of the step whose acknowledgement is owed -/
  owed : Option Nat
  /-- slaves that have acknowledged the slot -/
  acks : BitVec 32
  done : Bool
  /-- tick of the end -/
  endTick : Nat
  /-- an input returned before the end -/
  returned : Bool
  /-- the sequence cut a power-up (R437) -/
  cutUp : Bool
  /-- rails marked early-off and no-discharge in this sequence (R439) -/
  early : BitVec 12
  noDis : BitVec 12
  deriving DecidableEq, Repr

/-- A power-up sequence (R436, R442). -/
structure PowerUp where
  slot : Nat
  /-- C_MEAS has been compared with HOLD_C_MIN (step 2 of the table "Power-up in step 8") -/
  compared : Bool
  /-- the rails of the slot are enabled -/
  enabled : Bool
  acks : BitVec 32
  /-- a slave: number of the step whose acknowledgement is owed -/
  owed : Option Nat
  deriving DecidableEq, Repr

/-- PMBus command sent (table "PMBus commands used"). -/
structure PmbCmd where
  addr : Nat
  page : Option Nat
  code : Nat
  /-- data byte or word, when the command carries one -/
  data : Option Nat
  /-- PMB_CFG: 400 kHz, and PEC -/
  fast : Bool
  pec : Bool
  deriving DecidableEq, Repr

/-- The power supervisor. -/
structure Power where
  /-- PD0 to PD9: 0 off, 1 load, 2 operation -/
  domain : Vector Nat 10
  en : BitVec 12
  good : BitVec 12
  earlyOff : BitVec 12
  noDischarge : BitVec 12
  up : Option PowerUp
  down : Option ShutDown
  slaveNoack : BitVec 32
  cMeas : Nat
  armed : Bool
  low : Bool
  vhold : Nat
  /-- VCP in 0.1 V and VDD_3V3 in 10 mV as last reported; VCP has been good since AON reset, and the tick since which it is
  good without a break (R431, R440, R446) -/
  vcp : Nat
  vdd : Option Nat
  vcpGood : Bool
  vcpSince : Option Nat
  /-- tick since AON reset of the newest enable or disable of each rail (R434) -/
  switched : Vector Nat 12
  /-- MODE of each rail -/
  margin : Vector Nat 12
  /-- TRIM0 to TRIM3: code and target -/
  trim : Vector Nat 4
  trimTo : Vector Nat 4
  pmbAddr : Nat
  pmbAlert : Bool
  nacks : Nat
  pecErr : Nat
  pmbOut : List PmbCmd
  /-- words that STATUS_WORD returned: address and word, newest last -/
  pmbLog : List (Nat × Nat)
  /-- record of a power failure that is being written (R447), the power-up that the failure cut (R437), and straps of a reset
  that VDD_3V3 asserted meanwhile (R511): the last two the model's own fields -/
  writing : Option (List Byte)
  upCut : Bool
  resetOwed : Option (BitVec 5)
  /-- of PD6 only the PCIe part is on (R53) -/
  pciePart : Bool
  deriving DecidableEq, Repr

/-- A word or fuse as three copies: what each reads at nominal and at margin level. -/
structure OtpCell where
  n0 : Word
  n1 : Word
  n2 : Word
  m0 : Word
  m1 : Word
  m2 : Word
  deriving DecidableEq, Repr

/-- CMD of OTP_CMD. -/
inductive OtpKind where
  | program | read | lockW | lockR
  deriving DecidableEq, Repr

/-- A programming command in progress (R456 to R458). -/
structure OtpJob where
  kind : OtpKind
  /-- word address, or region of a lock -/
  addr : Nat
  /-- bits to blow -/
  data : Word
  copy : Nat
  /-- pulses given to the copy -/
  pulses : Nat
  /-- copies verified, and the most extra pulses of any copy -/
  verified : Nat
  extra : Nat
  deriving DecidableEq, Repr

/-- OTP array, fuses, shadow and the programming registers. -/
structure Otp where
  /-- words that are not all 0, by rising address -/
  cells : List (Nat × OtpCell)
  /-- lock fuses of the regions, bit 0 of each copy -/
  wFuse : Vector OtpCell 16
  rFuse : Vector OtpCell 16
  /-- shadow words that are not 0, by rising address -/
  shadow : List (Nat × Word)
  valid : BitVec 16
  blank : BitVec 16
  wlock : BitVec 16
  rlock : BitVec 16
  regions : BitVec 16
  count : Nat
  /-- marginal words, rising, and the margin bits of the locks -/
  marginal : List Nat
  wMargin : BitVec 16
  rMargin : BitVec 16
  addr : Nat
  data : Word
  done : Bool
  marg : Bool
  retries : Nat
  copies : Nat
  result : Nat
  job : Option OtpJob
  deriving DecidableEq, Repr

/-- One consumable tag: what the persistent store keeps (R464), and what this boot knows. -/
structure Tag where
  id : List Byte
  kind : Nat
  confirmed : Nat
  pending : Nat
  txn : Nat
  /-- TXN and DELTA in flight -/
  flight : Option (Nat × Nat)
  /-- mirror as last written to the persistent store -/
  stored : Nat
  /-- pending usage that waits for the first synchronisation's TAG_ID (R465) -/
  first : Bool
  present : Bool
  auth : Bool
  /-- fraction of a meter unit: au, pixel words or ticks -/
  frac : Nat
  deriving DecidableEq, Repr

/-- A tag exchange in progress. -/
structure Exchange where
  tag : Fin 32
  tries : Nat
  /-- header as read, nonce, key; none before step 3 -/
  header : List Byte
  nonce : List Byte
  key : List Byte
  polls : Nat
  /-- of the periodic round, not of a CONSUMABLE_SYNC -/
  periodic : Bool
  deriving DecidableEq, Repr

/-- The consumable unit. -/
structure Cons where
  tag : Vector Tag 32
  /-- 64-bit synchronisation counter -/
  counter : Nat
  /-- CONSUMABLE_AUTH of R461 has been raised in this boot -/
  rootRaised : Bool
  cur : Option Exchange
  /-- tags that the periodic synchronisation has still to do -/
  queue : List Nat
  tagShown : Nat
  /-- commands written to tags, newest last: tag and 32 bytes -/
  out : List (Nat × List Byte)
  /-- log of discarded usage, oldest first: tag, TAG_ID that it belonged to, and usage (R465; log 127) -/
  discarded : List (Nat × List Byte × Nat)
  deriving DecidableEq, Repr

/-- The rest of the persistent store: cairn slots and next slot, lifetime counters as
persisted, and the counters in RAM (R448, R493). -/
structure Persist where
  cairn : List (List Byte)
  cairnNext : Nat
  /-- newest valid record: slot, KIND, TAIL_VALID, SEQ -/
  cairnSlot : Option Nat
  cairnKind : Nat
  cairnTail : Bool
  cairnSeq : Nat
  life : Vector Nat 12
  lifeRam : Vector Nat 12
  /-- fractions of a second in RUN (ticks) and of a millimetre (au) -/
  lifeTick : Nat
  lifeAu : Nat
  deriving DecidableEq, Repr

end Sys2Proof.Machine
end

