-- ==== Sys2Proof/Machine/Types/Ring.lean ====
section
/-! DEFINITION. State of the Utmos ring ports, nodes, ring time, run group and SEQ layer (chapter 13). -/

namespace Sys2Proof.Machine

/-- A block of a ring lane (R384): a control block, or a data block, with its 8 bytes. -/
structure RingBlock where
  control : Bool
  bytes : List Byte
  deriving DecidableEq, Repr

/-- One ring port (R384, R385, R398). Stamps in 1/64 tick. -/
structure RingPort where
  lock : Bool
  up : Bool
  downSeen : Bool
  crcErr : Nat
  /-- failing END CRCs since boot, which test 6 counts (R486): the model's own field -/
  endBad : Nat
  delay : Nat
  /-- neighbour's serial of the HELLO exchange -/
  serial : Nat
  /-- forwards slots: from the first slot launch after the port came up -/
  forwards : Bool
  /-- stamps of the exchange in progress: t1 of the TS_REQ sent, t2 and t4 of its TS_RSP -/
  t1 : Option Nat
  t2 : Option Nat
  t4 : Option Nat
  /-- ring cycles in a row without TS_RSP -/
  noRsp : Nat
  /-- training goes on -/
  training : Bool
  /-- t2 and t3 of the last TS_RSP and TS_FUP sent -/
  answer : Option (Nat × Nat)
  /-- newest HELLO, TS_REQ, TS_RSP and TS_FUP blocks sent -/
  control : List RingBlock
  deriving DecidableEq, Repr

/-- Another node: a controller of the upper ring or an eyelet of the subordinate ring (R389, R392, R402). -/
structure RingNode where
  /-- found at enumeration -/
  present : Bool
  live : Bool
  serial : Nat
  /-- RING.GROUP as the controller reported it (R403) -/
  group : Option Nat
  /-- cycles in a row undelivered, and, while lost, delivered -/
  missing : Nat
  good : Nat
  /-- delivered for the cycle whose window is open -/
  delivered : Bool
  /-- words of the last delivered slot, and whether they are those of the sample -/
  words : List Nat
  stale : Bool
  /-- EYELET_FAULT episode -/
  faultEp : Bool
  /-- its HELLO after a retraining carried another serial (R402) -/
  wrong : Bool
  /-- ports of its ring at which a correct copy of its slot has arrived in this cycle, and in the one before -/
  heard : BitVec 2
  heardLast : BitVec 2
  deriving DecidableEq, Repr

/-- GROUP word of the controller slot (R391). -/
inductive GroupMsg where
  | none | ready | start | halt
  deriving DecidableEq, Repr

/-- Run group (R403 to R407). -/
structure RingGroup where
  /-- message that this controller's slots carry, its position and number -/
  msg : GroupMsg
  pos : Int
  number : Nat
  /-- SPEED and ACCEL of word 8 -/
  speed : Nat
  accel : Nat
  /-- members that have sent READY and not withdrawn it -/
  ready : BitVec 32
  /-- values of H held (R406) -/
  halts : List Int
  deriving DecidableEq, Repr

/-- A slot that this controller sent (R387): ring (false: upper), ports that it left by, source address, CYCLE, words, the
blocks BEGIN, data and END, and the forwarded eyelets, by 12-bit address, whose own slot was undelivered here (R393; log 47). -/
structure SlotSent where
  sub : Bool
  ports : List Nat
  src : Nat
  cycle : Nat
  words : List Nat
  blocks : List RingBlock
  fwdStale : List Nat
  deriving DecidableEq, Repr

/-- The ring controller. -/
structure Ring where
  index : Nat
  port : Vector RingPort 4
  ctrl : Vector RingNode 32
  node : Vector RingNode 128
  timeMaster : Bool
  upperWrap : Bool
  subWrap : Bool
  synced : Bool
  enumDone : Bool
  /-- cycles run since step 1 of R396 has set ring time, at most 64; none before -/
  timeSet : Option Nat
  late : Nat
  /-- CYCLE for which RING_LATE was raised last -/
  lateCycle : Option Nat
  /-- offset to the steering neighbour in 1/64 tick -/
  err : Int
  /-- cycles in a row within ±20 ns, and beyond 100 ns -/
  within : Nat
  beyond : Nat
  /-- ring time is steered up (1), down (−1) or not -/
  steer : Int
  /-- TICK divider of the tick in progress, and ticks until it may change again (R399) -/
  divider : Nat
  steerWait : Nat
  /-- published anchor: raw count and launch tick (R394) -/
  anchCount : Int
  anchTime : Nat
  /-- newest slots sent, one per ring -/
  sent : List SlotSent
  /-- slot copies forwarded in the cycle: port, source, HOPS as sent on -/
  forwarded : List (Nat × Nat × Nat)
  group : RingGroup
  /-- SEQ layer: source and number seen, next own number, blocks sent by port -/
  seqSeen : List (Nat × Nat)
  seqNext : Nat
  seqOut : List (Nat × RingBlock)
  deriving DecidableEq, Repr

end Sys2Proof.Machine
end

