-- ==== Sys2Proof/Machine/Types/Store.lean ====
section
/-! DEFINITION. State of the raster store (chapter 04) and of the station decoders (chapter 05). -/

namespace Sys2Proof.Machine

/-- KIND of a store error log entry. -/
inductive ErrKind where
  | corrected | uncorrectable | poison | remapped
  deriving DecidableEq, Repr

/-- AGENT of a store error log entry. -/
inductive Agent where
  | decoder | scrubber | host | dma | migration | flush
  deriving DecidableEq, Repr

/-- Store error log entry (R111). -/
structure StoreErr where
  addr : Nat
  syndrome : Nat
  kind : ErrKind
  agent : Agent
  tick : Nat
  count : Nat
  deriving DecidableEq, Repr

/-- A merge-buffer entry: one 64-byte line, its valid bytes by offset, whether poisoned data are among them, its place in
arrival order (R103, R104). -/
structure MergeEntry where
  line : Nat
  bytes : List (Nat × Byte)
  poison : Bool
  age : Nat
  deriving DecidableEq, Repr

/-- A corrected line that waits for the scrubber's write-back, with a corrected word, its syndrome, and whether the read after
the write-back will still show an error (R100, R113). -/
structure ScrubFix where
  line : Nat
  word : Nat
  syndrome : Nat
  hard : Bool
  deriving DecidableEq, Repr

/-- The raster store. -/
structure Store where
  /-- data bytes 0 to 0x1_FFFF_FFFF, as strictly rising (address, byte) pairs; an address not listed reads 0 -/
  mem : List Host.Cell
  /-- 64-byte lines that hold stored poison, rising -/
  poison : List Nat
  /-- retired pages, oldest first (R123, R492) -/
  retired : List Nat
  /-- remapped lines (R113, R116); the entry holds the line's data in place of the DRAM, with its poison -/
  remap : Vector (Option Nat) 8
  fullSeen : Bool
  merge : Vector (Option MergeEntry) 16
  mergeSeq : Nat
  log : List StoreErr
  logLost : Nat
  ce : Nat
  ue : Nat
  ceAddr : Nat
  /-- corrected errors in the window: page and tick (R112) -/
  pageErr : List (Nat × Nat)
  /-- pages for which PAGE_WEAK has been raised and whose count has not fallen below the limit since: the model's own field -/
  weak : List Nat
  pageLimit : Nat
  window : Nat
  scrubEnable : Bool
  scrubInterval : Nat
  lapLimit : Nat
  /-- next 64-byte line to scrub, and the tick at which the lap began -/
  scrubLine : Nat
  lapStart : Nat
  lastLap : Nat
  /-- time of the scrubber's last burst, in ns since AON reset (R98) -/
  lastBurst : Option Nat
  /-- corrected lines waiting for their write-back, oldest first (R100) -/
  scrubFix : List ScrubFix
  migSource : Nat
  migActive : Bool
  migAbandoned : Bool
  migDone : Nat
  migDest : Nat
  bar2Base : Nat
  wrDrop : Nat
  deriving DecidableEq, Repr

/-- A decoded line in a band buffer (R139, R216). -/
structure BandLine where
  number : Nat
  entry : Nat
  line : Nat
  /-- packed pixels; a blanked line is empty -/
  pixels : List Byte
  /-- spoil cause and source of a line blanked by a check or by poison -/
  blank : Option (Nat × Nat)
  deriving DecidableEq, Repr

/-- A layer stream being decoded: base layer from the frame itself or from the frame that BASE_REF names. -/
structure Stream where
  /-- byte position within the stream -/
  pos : Nat
  /-- last line accepted -/
  last : Option Nat
  /-- that line's base block was the last accepted block -/
  lastBase : Bool
  /-- the block at `pos` has been accepted by a re-synchronisation (R142) -/
  found : Bool
  /-- first 64-byte line of the job's run that the decoder has not read from the store for this stream -/
  seen : Nat
  /-- lines before `seen` that were delivered poisoned (R108) -/
  bad : List Nat
  deriving DecidableEq, Repr

/-- A station decoder. -/
structure Decoder where
  blanked : Nat
  check : Nat
  resync : Nat
  lastLine : Nat
  /-- repetition being decoded: entry and frame number, and the next line to deliver -/
  cur : Option (Nat × Nat)
  nextLine : Nat
  own : Stream
  base : Stream
  /-- decoded line above of each layer, packed; empty reads as blank -/
  above : List Byte
  aboveOver : List Byte
  /-- re-synchronisations whose lines have not all passed: last line that each blanks, and the code of its check, 0 for poison
  (R142, R143) -/
  blankTo : List (Nat × Nat)
  /-- decoded lines waiting for their facet, oldest first -/
  band : List BandLine
  deriving DecidableEq, Repr

end Sys2Proof.Machine
end

