-- ==== Sys2Proof/Machine/Types/Web.lean ====
section
/-! DEFINITION. State of the anchor unit, the facet scheduler, registration and runs (chapter 06), and of the
clocks, PLLs and scan timing (chapter 07). -/

namespace Sys2Proof.Machine

/-- One hardware anchor (R157, R159). -/
structure AnchIn where
  a : Bool
  b : Bool
  count : Int
  /-- count at the last rising Z edge -/
  zCount : Option Int
  deriving DecidableEq, Repr

/-- The anchor unit. Positions in au (R156). -/
structure Anchor where
  inp : Vector AnchIn 2
  src : Nat
  /-- raw position of the selected anchor, and the remainder of the division by SCALE_DEN (R158) -/
  raw : Int
  rem : Int
  follow : Int
  debt : Nat
  qerr : Bool
  zerr : Bool
  stale : Bool
  debtTrip : Bool
  /-- in an ANCHOR_REVERSE episode (R162) -/
  reverse : Bool
  /-- the web is at standstill by R165 -/
  still : Bool
  /-- tick, follower and raw position at each change, newest first (R164) -/
  hist : List (Nat × Int × Int)
  /-- eyelet anchor: last count reported, tick of that report, extrapolation speed in au per second (R160) -/
  eyeCount : Option Int
  eyeTick : Nat
  eyeSpeed : Int
  /-- follower position of that report, and whether the follower is extrapolated from it -/
  eyeBase : Int
  eyeOn : Bool
  /-- ring cycles in a row without a report, and ANCHOR_STALE holds (R160) -/
  eyeMiss : Nat
  eyeLost : Bool
  /-- ticks in a row with a raw speed below STILL_SPEED (R165) -/
  quiet : Nat
  /-- ticks in a row with a speed estimate above 1.02 × V_ADM of the run, and its ANCHOR_OVERSPEED has been raised (R166) -/
  overTime : Nat
  overEp : Bool
  deriving DecidableEq, Repr

/-- Facet results of one station (R171 to R173). -/
structure FacetStation where
  w : Nat
  slip : Bool
  peak : Nat
  /-- residual, in 1/256 line -/
  res : Int
  /-- the FACET_SLIP episode goes on -/
  episode : Bool
  deriving DecidableEq, Repr

/-- The facet scheduler. -/
structure Facet where
  anchored : Bool
  /-- the grid has not been set since the change to anchored mode -/
  fresh : Bool
  limited : Bool
  /-- interval loaded, in 1/65,536 SYS cycle -/
  interval : Nat
  /-- t_ref of the last pulse after the pulse's tick, in 1/65,536 SYS cycle: the fraction that the timer carries (R169, R203) -/
  frac : Nat
  /-- grid position P_k of the next pulse, in au -/
  grid : Int
  /-- ε_k of the last pulse, in au (R169) -/
  err : Int
  /-- number of pulses issued -/
  k : Nat
  /-- tick of the last pulse -/
  tick : Nat
  /-- last intervals issued, newest first, for the frequency condition (R272) -/
  past : List Nat
  st : Vector FacetStation 8
  /-- REG_DROPPED, saturating at 16 bits (R176) -/
  regDropped : Nat
  deriving DecidableEq, Repr

/-- Registration of one station (R174 to R178, R212). -/
structure RegStation where
  k : Int
  /-- K in force since the last run start or resume -/
  kUsed : Int
  trimAlong : Int
  trimCross : Int
  accAlong : Int
  accCross : Int
  /-- sums in force at the station since the frame that it prints -/
  along : Int
  cross : Int
  /-- frame numbers reported already, and steps used for the newest -/
  seen : List Nat
  /-- frame for which REG_LIMIT was raised last -/
  limFrame : Option Nat
  /-- NEW of the camera's status word at its last report (R392) -/
  camNew : Bool
  deriving DecidableEq, Repr

/-- The run (R12, R179 to R188). `active` from entry to RUN until it ends or is suspended. -/
structure Run where
  active : Bool
  number : Nat
  job : Nat
  /-- LAST, STATIONS and V_ADM of the job -/
  last : Nat
  stations : BitVec 8
  vAdm : Nat
  /-- FRAMES of RUN_START -/
  frames : Nat
  speed : Nat
  accel : Nat
  /-- start position of the stretch in lines (R179), its frames N, and how many have started -/
  f0 : Int
  /-- number of the stretch's first frame -/
  first : Nat
  stretch : Nat
  started : Nat
  suspended : Bool
  /-- stop position Z of a halt, in au (R185) -/
  halt : Option Int
  /-- ramp speed in au per second (R182), and the reference speed of the last boundary -/
  vRamp : Int
  vRef : Int
  delayed : Bool
  deriving DecidableEq, Repr

/-- One PLL (R192 to R196). -/
structure Pll where
  band : Nat
  attempts : Nat
  locked : Bool
  searchFail : Bool
  lockTime : Nat
  unlockSeen : Bool
  /-- run of the boot whose lock sequence the attempts count (R193), and a lock that it has declared: the model's own fields -/
  run : Nat
  held : Bool
  deriving DecidableEq, Repr

/-- Clocks and temperature compensation (R197 to R200, R213, R214). -/
structure Clock where
  pll : Vector Pll 8
  refOk : Bool
  onBackup : Bool
  backupOk : Bool
  returnReady : Bool
  refLostSeen : Bool
  backupTrim : Nat
  aonTrim : Nat
  /-- digital gains on thermistor and diode conversions, in ppm -/
  thermGain : Int
  diodeGain : Int
  clamped : Bool
  tempActive : Bool
  /-- tick since power-on reset of the last change of the reference (R198) -/
  changed : Option Nat
  deriving DecidableEq, Repr

/-- Scan timing of one station (R201 to R212). Times in units of 8 ps; model entries with 8 fractional bits. -/
structure Scan where
  learned : Bool
  renum : Bool
  subst : Bool
  facet : Nat
  missed : Nat
  e : Int
  q : Int
  qPeak : Nat
  /-- |q_k| of that facet up to 65,535, the new value of QPEAK (R502) -/
  qAbs : Nat
  /-- last 16 fine times of the test edge, in 0.1 ps, newest first -/
  fines : List Nat
  spanOut : Bool
  /-- learning is in progress, and the pulses it has taken -/
  learning : Bool
  pulses : Nat
  model : Vector Int 12
  /-- each facet's g of one revolution earlier, in history mode (R206) -/
  history : Vector Int 12
  /-- e of the last revolution, newest first; ē in 1/256 -/
  eHist : List Int
  eMean : Int
  saved : Option (Vector Int 12)
  /-- substituted facets in a row -/
  subRow : Nat
  /-- in a SOS_PRED episode, and facets within PRED_LIM since -/
  predEp : Bool
  predGood : Nat
  crossSet : Vector Int 8
  cross : Vector Int 8
  /-- start-of-scan time of the facet, from t_ref, accepted or substituted; none before the facet's pulse -/
  tSos : Option Int
  /-- start-of-scan intervals in ticks, for the frequency condition, and the last pulse's tick (R272) -/
  past : List Nat
  lastPulse : Option Nat
  deriving DecidableEq, Repr

end Sys2Proof.Machine
end

