-- ==== Sys2Proof/Machine/State.lean ====
section
/-! DEFINITION. The state of the machine, what it is right after reset, and the reasons for which a step can stop. -/

namespace Sys2Proof.Machine

/-- The whole block, as plain data. -/
structure State where
  eng : Engine
  flt : Faults
  boot : Boot
  host : HostIf
  jobs : Jobs
  store : Store
  dec : Vector Decoder 8
  anch : Anchor
  facet : Facet
  reg : Vector RegStation 8
  run : Run
  clk : Clock
  scan : Vector Scan 8
  expo : Vector Expo 8
  il : Interlocks
  sp : Vector Spindle 8
  spBus : SpBus
  law : Law
  stage : Vector StageLink 8
  bus : Vector DcBus 4
  rope : Vector Rope 32
  /-- ROPE_STATUS.DRAW_LIM -/
  drawLim : Bool
  ramp : RampUnit
  /-- present speed v_b of a belay stop in m/s (R353) -/
  vBelay : F32
  aux : Vector Aux 16
  therm : Therm
  htr : Heaters
  hv : Hv
  ring : Ring
  pwr : Power
  otp : Otp
  cons : Cons
  pers : Persist
  dma : Dma
  ist : Ist
  tap : Tap
  w1c : W1cSet
  /-- number of open values used so far (log 1): the model's own field -/
  freeCtr : Nat
  /-- commands that wait, first in, first out -/
  pending : List Instr
  deriving DecidableEq, Repr

/-- Reasons for which the block stops for want of a described effect: none. The manual gives every command an effect, or
leaves a value open with which the block goes on. -/
inductive Fault where
  deriving DecidableEq, Repr

/-- Reasons for which a command is not executed. -/
inductive Refusal where
  /-- The command has no meaning yet. Raised by an arm of `exec`. Safe: nothing is claimed about the command. -/
  | notModelled (mnemonic : String)
  deriving DecidableEq, Repr

/-- `n` like entries. -/
def each {α : Type} (n : Nat) (a : α) : Vector α n := Vector.replicate n a

def Engine.reset : Engine :=
  { state := .boot, prev := .down, target := none, stop := .none, estop := false, markEstop := false,
    markCritical := false, bootFail := false, stopOpen := false, cause := 0, stateTick := 0, tickFrom := none, tickSev := 0, evStateChg := false, evArmTmo := false,
    evStopDone := false, armTmo := 0, coastTmo := 0, setReq := none, time := 0, sincePor := 0, irqVector := 0,
    irqEn := false, irqMask := 0, irqTick := none, pfTick := none }

def Pair.reset : Pair := { t := true, c := false, active := true, wire := false, wireSeen := false }

def Pair.normal : Pair := { t := false, c := true, active := false, wire := false, wireSeen := false }

def Faults.reset : Faults :=
  { first := none, ovf := false, sticky := Mask.empty, same := Mask.empty, active := Mask.empty, log := [], raised := 0,
    clears := 0, pinLow := false, pinPulse := false, rearm := false, evtTick := none, barTick := none,
    curTick := 0, curSrcs := [], sto := Pair.reset,
    estop := Pair.reset }

def Boot.reset : Boot :=
  { step := 1, slot := 0, fallback := false, fellBack := false, secure := false, signed := false, trimDefault := false, calibFail := false,
    ovrInvalid := false, optMissing := false, fail := .none, mode := 0, sectionCode := 0, item := 0, ends := each 12 0,
    hdr0 := [], hdr1 := [], walkPos := 0, walkCount := 0, seen := [], sections := [], read7 := [], digest := none,
    linkTrained := false, run := 0, restart := false, fromCairn := false, calib := [] }

def QPair.reset : QPair :=
  { enable := false, size := 0, vector := 0, irqEn := false, coalesce := 0, dbErr := false, fetchErr := false,
    halted := false, sqHead := 0, head := none, sqTail := 0, cqHead := 0, sqBase := 0, cqBase := 0, cqWr := 0, phase := true,
    waiting := [], unsignalled := false, running := 0, epoch := 0 }

/-- The host interface after reset; the round robin serves queue 0 first (log 123). -/
def HostIf.reset : HostIf :=
  { q := each 8 QPair.reset, turn := 7, taken := none,
    evt := { cq := 0, enable := false, mask := 0, lost := 0, fifo := [], dropped := 0 },
    wasteDelay := 0, wasteMode := false, wasteMin := 0, d3hot := false, msixMask := BitVec.allOnes 64, msixPend := 0, msixTab := each 64 0,
    msix := [], out := [], bar2Out := [], latch := [], aer := 0, runWait := none, paramWait := none, modifyWait := [], cmpWait := [],
    cmp := each 2 none, decWait := [], dec := none, retireReq := none, syncReq := none }

def Jobs.reset : Jobs :=
  { jobs := [], frames := [], nextEntry := 0, prog := [], outcome := [], spoil := [], spoilSeq := 0, spoilMerged := false,
    batch := 0, batchBytes := [], resIdent := none, resCompress := none, resDecompress := none, resLog := none,
    waste := [], wasteLow := none }

def Store.reset : Store :=
  { mem := [], poison := [], retired := [], remap := each 8 none, fullSeen := false, merge := each 16 none, mergeSeq := 0,
    log := [], logLost := 0, ce := 0, ue := 0, ceAddr := 0, pageErr := [], weak := [], pageLimit := 16, window := 3600,
    scrubEnable := true, scrubInterval := 1, lapLimit := 300, scrubLine := 0, lapStart := 0, lastLap := 0,
    lastBurst := none, scrubFix := [], migSource := 0, migActive := false, migAbandoned := false, migDone := 0, migDest := 0,
    bar2Base := 0, wrDrop := 0 }

def Stream.reset : Stream := { pos := 0, last := none, lastBase := false, found := false, seen := 0, bad := [] }

def Decoder.reset : Decoder :=
  { blanked := 0, check := 0, resync := 0, lastLine := 0, cur := none, nextLine := 0, own := Stream.reset,
    base := Stream.reset, above := [], aboveOver := [], blankTo := [], band := [] }

def Anchor.reset : Anchor :=
  { inp := each 2 { a := false, b := false, count := 0, zCount := none }, src := 0, raw := 0, rem := 0, follow := 0,
    debt := 0, qerr := false, zerr := false, stale := false, debtTrip := false, reverse := false, still := false,
    hist := [], eyeCount := none, eyeTick := 0, eyeSpeed := 0, eyeBase := 0, eyeOn := false,
    eyeMiss := 0, eyeLost := false, quiet := 0, overTime := 0, overEp := false }

def Facet.reset : Facet :=
  { anchored := false, fresh := false, limited := false, interval := 0, frac := 0, grid := 0, err := 0, k := 0, tick := 0,
    past := [], st := each 8 { w := 2, slip := false, peak := 0, res := 0, episode := false }, regDropped := 0 }

def RegStation.reset : RegStation :=
  { k := 0, kUsed := 0, trimAlong := 0, trimCross := 0, accAlong := 0, accCross := 0, along := 0, cross := 0, seen := [],
    limFrame := none, camNew := false }

def Run.reset : Run :=
  { active := false, number := 0, job := 0, last := 0, stations := 0, vAdm := 0, frames := 0, speed := 0, accel := 0, f0 := 0, first := 0, stretch := 0, started := 0, suspended := false,
    halt := none, vRamp := 0, vRef := 0, delayed := false }

def Pll.reset : Pll :=
  { band := 32, attempts := 0, locked := false, searchFail := false, lockTime := 0, unlockSeen := false, run := 0, held := false }

def Clock.reset : Clock :=
  { pll := each 8 Pll.reset,
    refOk := false, onBackup := false, backupOk := true, returnReady := false, refLostSeen := false, backupTrim := 0,
    aonTrim := 0, thermGain := 0, diodeGain := 0, clamped := false, tempActive := false, changed := none }

def Scan.reset : Scan :=
  { learned := false, renum := false, subst := false, facet := 0, missed := 0, e := 0, q := 0, qAbs := 0, qPeak := 0, fines := [],
    spanOut := false, learning := false, pulses := 0, model := each 12 0, history := each 12 0, eHist := [], eMean := 0, saved := none,
    subRow := 0, predEp := false, predGood := 0, crossSet := each 8 0, cross := each 8 0, tSos := none, past := [],
    lastPulse := none }

/-- A forward lane at link-up: span 0, no block since a CHK (R236). -/
def Lane.reset : Lane := { count := 0, crc := 0xFFFFFFFF, span := 0, last := .idle }

def Expo.reset : Expo :=
  { linkUp := false, echo := false, derate := false, derateEnd := false, tempLimit := false, uncomp := false, crcErr := 0,
    lastCrc := 0, bad := 0, temp := 0, hold := false, tone := each 16 0, toneSet := each 16 [], lateLine := 0,
    lateCount := 0, hEmitter := 0, hStrikes := 0, hRd := 0, mlc := 0, dead := 0,
    emit := each 36 { sum := 0, count := 0, strikes := 0 }, rot := 0, test := none, cfgAddr := 0,
    cfgData := 0, cfgPend := false,
    blank := { conds := [], resume := false, last := (0, 0) }, now := none, out := none, words := [], sent := [],
    queue := [], lanes := each 4 Lane.reset, phase := 0 }

def Interlocks.reset : Interlocks :=
  { cover := each 8 true, web := true, jam := true, lsr := each 8 false, coverAt := each 8 0, webAt := 0, jamAt := 0 }

def Spindle.reset : Spindle :=
  { state := .off, runCmd := false, reverse := false, fresh := false, cmd := 0, param := 0, samples := [], setPoint := 0,
    speed := 0, duty := 0, adv := 0, id := 0, idRef := 0, integ := 0, iCmd := 0, wRef := 0, aRef := 0, phase := 0,
    wCmd := 0, fwCount := 0, freqOk := false, lockRevs := 0, badRevs := 0, locked := false, regenLim := false,
    cmdLost := false, catchFail := false, startFail := false, barred := false, tries := 0, syncLosses := 0,
    lastInterval := none, agree := 0, catching := false, resting := false, braking := false, desat := 0, oc := false, bsUv := 0, firstLeg := 7, firstTick := 0, ovf := false,
    events := 0, bsHold := 0, fullOn := each 3 0, refresh := 0, gates := 0, sector := 0, comm := none, outLeg := 0, inLeg := 0,
    outDuty := 0, inDuty := 0, rampRate := 0, turn := none }

def SpBus.reset : SpBus :=
  { vbus := 0, vcp := 0, vbusUv := false, vbusOv := false, vcpUv := false, rpsOn := false, rpsRev := false }

def Law.reset : Law :=
  { stop := false, stopped := false, halted := false, restart := false, prgBad := false, checkFail := false,
    started := false, begun := false, nan := false, clamp := false, last := 0, peak := 0, budget := 0, worst := 0, trapPc := 0,
    trapProg := 0, trapKind := .none, ce := 0, dataUe := 0, prog := [], progBad := [], data := [], c := false, due := [],
    pc := 0, cycles := 0, sample := 0, latched := [], ports := [], rawAt := 0, outPorts := [], outNew := [], shareNew := [],
    shareOut := [], shareIn := [], linkNew := [], links := [], hold := 0, plaus := 0, plausEp := 0, holdEp := 0 }

def StageSlot.reset : StageSlot :=
  { iu := 0, iv := 0, iw := 0, vdc := 0, pos := 0, posPrev := 0, alive := none, temp := 0, flags := 0, fresh := false,
    missing := 0, lostEp := false, lowI := 0, mode := 0, f0 := 0, f1 := 0, f2 := 0, en := false }

def StageLink.reset : StageLink :=
  { up := false, pair := Pair.normal, inh := true, inhHeld := false, crcErr := 0, echoErr := 0, rtt := 0,
    training := false, sample := 0, valid := false, vdc := 0, echoed := false, flags0 := 0, flags1 := 0, slot := each 2 StageSlot.reset }

def DcBus.reset : DcBus := { vdc := 0, fresh := false, absorbLost := false, trip := false, duty := 0, ovr := 0 }

def Rope.reset : Rope := { still := false, splice := false, tens := 0, tensEp := false, quiet := 0, shareMiss := 0, backMiss := 0, vRef := 0 }

def Aux.reset : Aux :=
  { target := 0, held := 0, pos := 0, speed := 0, accel := 0, state := .idle, reject := false, fltIn := false,
    limitDir := false, abort := false, dir := false, rampSteps := 0, interval := 0 }

def Therm.reset : Therm :=
  { level := 0, critical := false, pinned := false, tj := 0, value := each 26 0, broken := each 26 false,
    run := each 26 0, die := each 6 0 }

def Heaters.reset : Heaters :=
  { on := each 4 false, cutoff := each 4 false, acc := each 4 0, half := each 4 false, zcOk := false, zcPeriod := 0,
    good := 0, since := each 4 0, high := each 4 0 }

def Hv.reset : Hv := { live := 0, missing := each 24 0, faultEp := 0, arcEp := 0, lostEp := 0, sent := [] }

def RingPort.reset : RingPort :=
  { lock := false, up := false, downSeen := false, crcErr := 0, endBad := 0, delay := 0, serial := 0, forwards := false, t1 := none,
    t2 := none, t4 := none, noRsp := 0, training := false, answer := none, control := [] }

def RingNode.reset : RingNode :=
  { present := false, live := false, serial := 0, group := none, missing := 0, good := 0, delivered := false, words := [], stale := true,
    faultEp := false, wrong := false, heard := 0, heardLast := 0 }

def Ring.reset : Ring :=
  { index := 0, port := each 4 RingPort.reset, ctrl := each 32 RingNode.reset, node := each 128 RingNode.reset,
    timeMaster := false, upperWrap := false, subWrap := false, synced := false, enumDone := false, timeSet := none, late := 0,
    lateCycle := none, err := 0, within := 0, beyond := 0, steer := 0, divider := 24, steerWait := 0, anchCount := 0, anchTime := 0,
    sent := [], forwarded := [],
    group := { msg := .none, pos := 0, number := 0, speed := 0, accel := 0, ready := 0, halts := [] },
    seqSeen := [], seqNext := 0, seqOut := [] }

def Power.reset : Power :=
  { domain := (each 10 0).set 0 2, en := 0, good := 0, earlyOff := 0, noDischarge := 0, up := none, down := none,
    slaveNoack := 0, cMeas := 0, armed := false, low := false, vhold := 0, vcp := 0, vdd := none, vcpGood := false,
    vcpSince := none, switched := each 12 0,
    margin := each 12 0, trim := each 4 0, trimTo := each 4 0, pmbAddr := 0, pmbAlert := false, nacks := 0, pecErr := 0,
    pmbOut := [], pmbLog := [], writing := none, upCut := false, resetOwed := none, pciePart := false }

def OtpCell.blank : OtpCell := { n0 := 0, n1 := 0, n2 := 0, m0 := 0, m1 := 0, m2 := 0 }

def Otp.reset : Otp :=
  { cells := [], wFuse := each 16 OtpCell.blank, rFuse := each 16 OtpCell.blank, shadow := [], valid := 0, blank := 0,
    wlock := 0, rlock := 0, regions := 0, count := 0, marginal := [], wMargin := 0, rMargin := 0, addr := 0, data := 0,
    done := false, marg := false, retries := 0, copies := 0, result := 0, job := none }

def Tag.reset : Tag :=
  { id := [], kind := 0, confirmed := 0, pending := 0, txn := 0, flight := none, stored := 0, first := true,
    present := false, auth := false, frac := 0 }

def Cons.reset : Cons :=
  { tag := each 32 Tag.reset, counter := 0, rootRaised := false, cur := none, queue := [], tagShown := 0, out := [],
    discarded := [] }

def Persist.reset : Persist :=
  { cairn := List.replicate 64 [], cairnNext := 0, cairnSlot := none, cairnKind := 0, cairnTail := false, cairnSeq := 0,
    life := each 12 0, lifeRam := each 12 0, lifeTick := 0, lifeAu := 0 }

def Chan.reset : Chan :=
  { state := .idle, dbPend := false, sig := false, half := false, full := false, loops := [], pc := 0, vector := 0,
    irqEn := false, poison := false, entry := 0, tail := 0, endAt := 0, errPc := 0, errKind := .none, errAddr := 0,
    errSpace := 0, cur := none, work := none, issued := false, hostOut := none, failed := none, stopReq := false, unitWait := none,
    waitStart := 0, seen := false }

def Dma.reset : Dma :=
  { ram := [], ramBad := [], ch := each 16 Chan.reset,
    cu := each 4 { poly := 0, fold := false, run := 0, done := false, busy := false, poison := false, owner := 0 },
    flags := 0, turn := 0 }

def IstTest.fresh : IstTest :=
  { lap := 0, item := 0, laps := 0, failLap := none, failed := false, lastFailed := false, running := false, start := 0,
    lapRaised := false, passed := [] }

def Ist.reset : Ist :=
  { en := 0x7F, berLim := 16, lapLim := 7200, seen := 0, fails := 0, test := each 7 IstTest.fresh, injected := none,
    words := (0, 0), marched := none, converted := none, hits := each 8 (0, 0), tdc := each 8 0, ring := each 4 none }

/-- The machine right after reset: every register at the value its table gives (R7, R504), and the values that the
log names where a table gives "image", "OTP" or "straps" (log 53). -/
def State.reset : State :=
  { eng := Engine.reset, flt := Faults.reset, boot := Boot.reset, host := HostIf.reset, jobs := Jobs.reset,
    store := Store.reset, dec := each 8 Decoder.reset, anch := Anchor.reset, facet := Facet.reset,
    reg := each 8 RegStation.reset, run := Run.reset, clk := Clock.reset, scan := each 8 Scan.reset,
    expo := each 8 Expo.reset, il := Interlocks.reset, sp := each 8 Spindle.reset, spBus := SpBus.reset,
    law := Law.reset, stage := each 8 StageLink.reset, bus := each 4 DcBus.reset, rope := each 32 Rope.reset,
    drawLim := false, ramp := { active := false, start := none, sign := each 16 0, off := each 16 false }, vBelay := 0,
    aux := each 16 Aux.reset, therm := Therm.reset, htr := Heaters.reset, hv := Hv.reset, ring := Ring.reset,
    pwr := Power.reset, otp := Otp.reset, cons := Cons.reset, pers := Persist.reset, dma := Dma.reset, ist := Ist.reset,
    tap := { ir := .idcode, cells := .idcode, holds := false }, w1c := { tick := 0, bits := [] }, freeCtr := 0, pending := [] }

end Sys2Proof.Machine
end

