-- ==== Sys2Proof/Machine/Mod.lean ====
section
/-! DEFINITION. One update per unit of the state; entry updates for the numbered units. -/

namespace Sys2Proof.Machine

/-- Update of `eng`. -/
def State.modEng (s : State) (f : Engine → Engine) : State := { s with eng := f s.eng }

/-- Update of `flt`. -/
def State.modFlt (s : State) (f : Faults → Faults) : State := { s with flt := f s.flt }

/-- Update of `boot`. -/
def State.modBoot (s : State) (f : Boot → Boot) : State := { s with boot := f s.boot }

/-- Update of `host`. -/
def State.modHost (s : State) (f : HostIf → HostIf) : State := { s with host := f s.host }

/-- Update of `jobs`. -/
def State.modJobs (s : State) (f : Jobs → Jobs) : State := { s with jobs := f s.jobs }

/-- Update of `store`. -/
def State.modStore (s : State) (f : Store → Store) : State := { s with store := f s.store }

/-- Update of `dec`. -/
def State.modDec (s : State) (f : Vector Decoder 8 → Vector Decoder 8) : State := { s with dec := f s.dec }

/-- Update of entry `i` of `dec`. -/
def State.atDec (s : State) (i : Nat) (f : Decoder → Decoder) : State := s.modDec (updAt · i f)

/-- Update of `anch`. -/
def State.modAnch (s : State) (f : Anchor → Anchor) : State := { s with anch := f s.anch }

/-- Update of `facet`. -/
def State.modFacet (s : State) (f : Facet → Facet) : State := { s with facet := f s.facet }

/-- Update of `reg`. -/
def State.modReg (s : State) (f : Vector RegStation 8 → Vector RegStation 8) : State := { s with reg := f s.reg }

/-- Update of entry `i` of `reg`. -/
def State.atReg (s : State) (i : Nat) (f : RegStation → RegStation) : State := s.modReg (updAt · i f)

/-- Update of `run`. -/
def State.modRun (s : State) (f : Run → Run) : State := { s with run := f s.run }

/-- Update of `clk`. -/
def State.modClk (s : State) (f : Clock → Clock) : State := { s with clk := f s.clk }

/-- Update of `scan`. -/
def State.modScan (s : State) (f : Vector Scan 8 → Vector Scan 8) : State := { s with scan := f s.scan }

/-- Update of entry `i` of `scan`. -/
def State.atScan (s : State) (i : Nat) (f : Scan → Scan) : State := s.modScan (updAt · i f)

/-- Update of `expo`. -/
def State.modExpo (s : State) (f : Vector Expo 8 → Vector Expo 8) : State := { s with expo := f s.expo }

/-- Update of entry `i` of `expo`. -/
def State.atExpo (s : State) (i : Nat) (f : Expo → Expo) : State := s.modExpo (updAt · i f)

/-- Update of `il`. -/
def State.modIl (s : State) (f : Interlocks → Interlocks) : State := { s with il := f s.il }

/-- Update of `sp`. -/
def State.modSp (s : State) (f : Vector Spindle 8 → Vector Spindle 8) : State := { s with sp := f s.sp }

/-- Update of entry `i` of `sp`. -/
def State.atSp (s : State) (i : Nat) (f : Spindle → Spindle) : State := s.modSp (updAt · i f)

/-- Update of `spBus`. -/
def State.modSpBus (s : State) (f : SpBus → SpBus) : State := { s with spBus := f s.spBus }

/-- Update of `law`. -/
def State.modLaw (s : State) (f : Law → Law) : State := { s with law := f s.law }

/-- Update of `stage`. -/
def State.modStage (s : State) (f : Vector StageLink 8 → Vector StageLink 8) : State := { s with stage := f s.stage }

/-- Update of entry `i` of `stage`. -/
def State.atStage (s : State) (i : Nat) (f : StageLink → StageLink) : State := s.modStage (updAt · i f)

/-- Update of `bus`. -/
def State.modBus (s : State) (f : Vector DcBus 4 → Vector DcBus 4) : State := { s with bus := f s.bus }

/-- Update of entry `i` of `bus`. -/
def State.atBus (s : State) (i : Nat) (f : DcBus → DcBus) : State := s.modBus (updAt · i f)

/-- Update of `rope`. -/
def State.modRope (s : State) (f : Vector Rope 32 → Vector Rope 32) : State := { s with rope := f s.rope }

/-- Update of entry `i` of `rope`. -/
def State.atRope (s : State) (i : Nat) (f : Rope → Rope) : State := s.modRope (updAt · i f)

/-- Update of `w1c`. -/
def State.modW1c (s : State) (f : W1cSet → W1cSet) : State := { s with w1c := f s.w1c }

/-- Update of `drawLim`. -/
def State.modDrawLim (s : State) (f : Bool → Bool) : State := { s with drawLim := f s.drawLim }

/-- Update of `ramp`. -/
def State.modRamp (s : State) (f : RampUnit → RampUnit) : State := { s with ramp := f s.ramp }

/-- Update of `vBelay`. -/
def State.modVBelay (s : State) (f : F32 → F32) : State := { s with vBelay := f s.vBelay }

/-- Update of `aux`. -/
def State.modAux (s : State) (f : Vector Aux 16 → Vector Aux 16) : State := { s with aux := f s.aux }

/-- Update of entry `i` of `aux`. -/
def State.atAux (s : State) (i : Nat) (f : Aux → Aux) : State := s.modAux (updAt · i f)

/-- Update of `therm`. -/
def State.modTherm (s : State) (f : Therm → Therm) : State := { s with therm := f s.therm }

/-- Update of `htr`. -/
def State.modHtr (s : State) (f : Heaters → Heaters) : State := { s with htr := f s.htr }

/-- Update of `hv`. -/
def State.modHv (s : State) (f : Hv → Hv) : State := { s with hv := f s.hv }

/-- Update of `ring`. -/
def State.modRing (s : State) (f : Ring → Ring) : State := { s with ring := f s.ring }

/-- Update of `pwr`. -/
def State.modPwr (s : State) (f : Power → Power) : State := { s with pwr := f s.pwr }

/-- Update of `otp`. -/
def State.modOtp (s : State) (f : Otp → Otp) : State := { s with otp := f s.otp }

/-- Update of `cons`. -/
def State.modCons (s : State) (f : Cons → Cons) : State := { s with cons := f s.cons }

/-- Update of `pers`. -/
def State.modPers (s : State) (f : Persist → Persist) : State := { s with pers := f s.pers }

/-- Update of `dma`. -/
def State.modDma (s : State) (f : Dma → Dma) : State := { s with dma := f s.dma }

/-- Update of `ist`. -/
def State.modIst (s : State) (f : Ist → Ist) : State := { s with ist := f s.ist }

/-- Update of `tap`. -/
def State.modTap (s : State) (f : Tap → Tap) : State := { s with tap := f s.tap }

/-- Update of `freeCtr` (log 1). -/
def State.modFreeCtr (s : State) (f : Nat → Nat) : State := { s with freeCtr := f s.freeCtr }

end Sys2Proof.Machine
end

