-- ==== Sys2Proof/Machine/Cfg.lean ====
section
/-! DEFINITION. The loaded configuration image read by its tables: one accessor per field that a unit uses. A section
that is absent reads as 0, or as the default that its table gives. -/

namespace Sys2Proof.Machine

open Sys2Proof.Bits

/-- The sections that boot step 7 loaded. -/
abbrev Img := List Section

namespace Img

def find (l : Img) (ty : Nat) : Option Section := l.find? (fun x => decide (x.ty = ty))
def has (l : Img) (ty : Nat) : Bool := (l.find ty).isSome
def sec (l : Img) (ty : Nat) : List Byte := match l.find ty with | some x => x.bytes | none => []
/-- A field of section `ty`, or the default without the section. -/
def orD (l : Img) (ty v d : Nat) : Nat := if l.has ty then v else d

def b1 (l : Img) (ty i : Nat) : Nat := byteAt (l.sec ty) i
def b2 (l : Img) (ty i : Nat) : Nat := u16 (l.sec ty) i
def b3 (l : Img) (ty i : Nat) : Nat := le (l.sec ty) i 3
def b4 (l : Img) (ty i : Nat) : Nat := u32 (l.sec ty) i
def fl (l : Img) (ty i : Nat) : F32 := f32 (l.sec ty) i

-- DEVICE
def stationEn (l : Img) (n : Nat) : Bool := (l.b1 1 0).testBit n
def spindleEn (l : Img) (n : Nat) : Bool := (l.b1 1 1).testBit n
def axisEn (l : Img) (a : Nat) : Bool := (l.b2 1 2).testBit a
def auxEn (l : Img) (p : Nat) : Bool := (l.b2 1 4).testBit p

-- CLOCKS
def facets (l : Img) : Nat := l.b1 2 1
def learn (l : Img) : Nat := l.b1 2 2
def fmShift (l : Img) : Nat := l.b1 2 3
def missMax (l : Img) : Nat := l.b1 2 4
def refReturn (l : Img) : Bool := l.b1 2 6 = 0
/-- in 8 ps, from ns -/
def sosWin (l : Img) : Int := (l.b2 2 8 * 125 : Nat)
def predLim (l : Img) : Nat := l.b2 2 10
def sosPhase (l : Img) (n : Nat) : Int := (l.b4 2 (32 + 4 * n) : Nat)

-- POWER_SEQ
def slots (l : Img) : Nat := l.b1 3 0
def pfVcp (l : Img) : Nat := l.orD 3 (l.b1 3 1) 95
def holdCMin (l : Img) : Nat := l.b2 3 4
def pmbFast (l : Img) : Bool := (l.b1 3 8).testBit 0
def pmbPec (l : Img) : Bool := (l.b1 3 8).testBit 1
def railUse (l : Img) (n : Nat) : Bool := l.b1 3 (32 + 32 * n) = 1
def onSlot (l : Img) (n : Nat) : Nat := l.b1 3 (33 + 32 * n)
def offSlot (l : Img) (n : Nat) : Nat := l.b1 3 (34 + 32 * n)
def pgMode (l : Img) (n : Nat) : Nat := l.b1 3 (35 + 32 * n)
/-- ms, from the enable and the disable -/
def pgTmo (l : Img) (n : Nat) : Nat := l.b2 3 (36 + 32 * n)
def disTmo (l : Img) (n : Nat) : Nat := l.b2 3 (38 + 32 * n)
def pmbAddr (l : Img) (n : Nat) : Nat := l.b1 3 (44 + 32 * n)
def pmbPage (l : Img) (n : Nat) : Option Nat := if l.b1 3 (45 + 32 * n) = 255 then none else some (l.b1 3 (45 + 32 * n))
def railTrim (l : Img) (n : Nat) : Option Nat := if l.b1 3 (46 + 32 * n) < 4 then some (l.b1 3 (46 + 32 * n)) else none
def marginHigh (l : Img) (n : Nat) : Nat := l.b2 3 (48 + 32 * n)
def marginLow (l : Img) (n : Nat) : Nat := l.b2 3 (50 + 32 * n)
def trimNom (l : Img) (n : Nat) : Nat := l.b2 3 (52 + 32 * n)
def trimHigh (l : Img) (n : Nat) : Nat := l.b2 3 (54 + 32 * n)
def trimLow (l : Img) (n : Nat) : Nat := l.b2 3 (56 + 32 * n)
/-- the rails in use -/
def rails (l : Img) : List Nat := (List.range 12).filter l.railUse

-- RING
def controllers (l : Img) : Nat := l.orD 4 (l.b1 4 0) 1
def group (l : Img) : Option Nat := if l.has 4 && l.b1 4 1 < 32 then some (l.b1 4 1) else none
def anchPub (l : Img) : Nat := l.b1 4 2
def subTopo (l : Img) : Nat := l.b1 4 3
def lostCyc (l : Img) : Nat := l.orD 4 (l.b1 4 6) 4
def ctrlUse (l : Img) (i : Nat) : Nat := l.b1 4 (64 + 4 * i)
def fwdWords (l : Img) (i : Nat) : Nat := l.b1 4 (65 + 4 * i)
/-- sender of a SHARE channel; none when unused -/
def chanSender (l : Img) (c : Nat) : Option Nat := if l.has 4 && l.b1 4 (192 + c) < 32 then some (l.b1 4 (192 + c)) else none
def chansOf (l : Img) (i : Nat) : List Nat := (List.range 256).filter (fun c => l.chanSender c == some i)
def nodeAt (i : Nat) : Nat := 448 + 16 * (i - 1)
def nodeUse (l : Img) (i : Nat) : Nat := if 1 ≤ i && i ≤ 127 then l.b1 4 (nodeAt i) else 0
def nodeKind (l : Img) (i : Nat) : Nat := l.b1 4 (nodeAt i + 1)
def nodeType (l : Img) (i : Nat) : Nat := l.b2 4 (nodeAt i + 2)
def nodeIn (l : Img) (i : Nat) : Nat := l.b1 4 (nodeAt i + 4)
def nodeOut (l : Img) (i : Nat) : Nat := l.b1 4 (nodeAt i + 5)
def nodeInPort (l : Img) (i : Nat) : Nat := l.b2 4 (nodeAt i + 6)
def nodeOutPort (l : Img) (i : Nat) : Nat := l.b2 4 (nodeAt i + 8)
def nodeFwd (l : Img) (i : Nat) : Bool := l.b1 4 (nodeAt i + 10) = 1
/-- in-words after word 0 of a node by its kind (table "Eyelet kinds") -/
def nodeInWords (l : Img) (i : Nat) : Nat := match l.nodeKind i with | 0 => l.nodeIn i | 1 => 4 | 2 => 2 | _ => 16
/-- local eyelets: nodes with USE 1 or 2 -/
def eyelets (l : Img) : List Nat := (List.range 128).filter (fun i => l.nodeUse i = 1 || l.nodeUse i = 2)

-- STAGES
def tIn (l : Img) : Nat := l.orD 5 (l.b2 5 0) 2500
def belayDec (l : Img) : Nat := l.orD 5 (l.b2 5 2) 500
def stillMs (l : Img) : Nat := l.orD 5 (l.b2 5 4) 50
def shareMiss (l : Img) : Nat := l.orD 5 (l.b1 5 8) 4
def busAt (b : Nat) : Nat := 16 + 24 * b
def busCeil (l : Img) (b : Nat) : Nat := l.b2 5 (busAt b)
def busBand (l : Img) (b : Nat) : Nat := l.b2 5 (busAt b + 2)
def busTripV (l : Img) (b : Nat) : Nat := l.b2 5 (busAt b + 4)
def chopOn (l : Img) (b : Nat) : Nat := l.b2 5 (busAt b + 6)
def chopFull (l : Img) (b : Nat) : Nat := l.b2 5 (busAt b + 8)
def chopIMin (l : Img) (b : Nat) : Nat := l.b2 5 (busAt b + 10)
def linkAt (i : Nat) : Nat := 112 + 48 * i
def linkUse (l : Img) (i : Nat) : Nat := l.b1 5 (linkAt i)
def linkBus (l : Img) (i : Nat) : Nat := l.b1 5 (linkAt i + 1)
/-- 0 none, 1 axis, 2 chopper -/
def slotKind (l : Img) (i k : Nat) : Nat := if l.linkUse i = 0 then 0 else l.b1 5 (linkAt i + 2 + 2 * k)
def slotAxis (l : Img) (i k : Nat) : Nat := l.b1 5 (linkAt i + 3 + 2 * k)
def slotCpr (l : Img) (i k : Nat) : Nat := l.b4 5 (linkAt i + 8 + 4 * k)
def slotIFs (l : Img) (i k : Nat) : F32 := l.fl 5 (linkAt i + 16 + 4 * k)
def slotRampI (l : Img) (i k : Nat) : F32 := l.fl 5 (linkAt i + 24 + 4 * k)
def slotRampT (l : Img) (i k : Nat) : F32 := l.fl 5 (linkAt i + 32 + 4 * k)
/-- every link and slot pair -/
def allSlots : List (Nat × Nat) := (List.range 16).map (fun i => (i / 2, i % 2))
/-- link and slot of an axis -/
def axisSlot (l : Img) (a : Nat) : Option (Nat × Nat) :=
  allSlots.find? (fun x => l.slotKind x.1 x.2 = 1 && l.slotAxis x.1 x.2 = a)

-- AXES_ROPES
def spliceSrc (l : Img) (i : Nat) : Nat := l.b1 6 i
def axAt (a : Nat) : Nat := 16 + 64 * a
def axParent (l : Img) (a : Nat) : Option Nat := if l.b1 6 (axAt a) < 32 then some (l.b1 6 (axAt a)) else none
def axShare (l : Img) (a : Nat) : F32 := l.fl 6 (axAt a + 4)
def axIMax (l : Img) (a : Nat) : F32 := l.fl 6 (axAt a + 8)
def axReserve (l : Img) (a : Nat) : F32 := l.fl 6 (axAt a + 12)
def axKt (l : Img) (a : Nat) : F32 := l.fl 6 (axAt a + 16)
def axPRegen (l : Img) (a : Nat) : F32 := l.fl 6 (axAt a + 20)
def axPNochop (l : Img) (a : Nat) : F32 := l.fl 6 (axAt a + 24)
def axWiden (l : Img) (a : Nat) : F32 := l.fl 6 (axAt a + 28)
def axStill (l : Img) (a : Nat) : F32 := l.fl 6 (axAt a + 32)
def rpAt (r : Nat) : Nat := 1040 + 64 * r
def ropeUse (l : Img) (r : Nat) : Nat := l.b1 6 (rpAt r)
def ropeParent (l : Img) (r : Nat) : Option Nat := if l.b1 6 (rpAt r + 1) < 32 then some (l.b1 6 (rpAt r + 1)) else none
def ropeHome (l : Img) (r : Nat) : Nat := l.b1 6 (rpAt r + 3)
def ropeSplice (l : Img) (r : Nat) : Nat := l.b1 6 (rpAt r + 4)
def ropeDraw (l : Img) (r : Nat) : Nat := l.b2 6 (rpAt r + 6)
def ropeShareCh (l : Img) (r : Nat) : Nat := l.b2 6 (rpAt r + 8)
def ropeBackCh (l : Img) (r : Nat) : Nat := l.b2 6 (rpAt r + 10)
def ropeTensPort (l : Img) (r : Nat) : Nat := l.b2 6 (rpAt r + 12)
def ropeShare (l : Img) (r : Nat) : F32 := l.fl 6 (rpAt r + 16)
def ropeRemote (l : Img) (r : Nat) : F32 := l.fl 6 (rpAt r + 20)
def ropeTensMin (l : Img) (r : Nat) : F32 := l.fl 6 (rpAt r + 24)
def ropeTensMax (l : Img) (r : Nat) : F32 := l.fl 6 (rpAt r + 28)
def ropes (l : Img) : List Nat := (List.range 32).filter (fun r => l.has 6 && l.ropeUse r != 0)

-- LAW_PROGRAMS
def baseUs (l : Img) : Nat := l.orD 7 (l.b2 7 0) 25
/-- T_S in ticks -/
def tS (l : Img) : Nat := 100 * l.baseUs
def lawN (l : Img) : Nat := l.b4 7 4
def prEntry (l : Img) (p : Nat) : Nat := l.b2 7 (16 + 8 * p)
def prDiv (l : Img) (p : Nat) : Nat := l.b1 7 (18 + 8 * p) + 1
def prPh (l : Img) (p : Nat) : Nat := l.b1 7 (19 + 8 * p)
def prEn (l : Img) (p : Nat) : Bool := l.b1 7 (20 + 8 * p) = 1
/-- enabled programs, ascending -/
def progs (l : Img) : List Nat := (List.range 16).filter (fun p => l.has 7 && l.prEn p)
def lkSrc (l : Img) (i : Nat) : Nat := l.b2 7 (144 + 8 * i)
def lkDst (l : Img) (i : Nat) : Nat := l.b2 7 (146 + 8 * i)
def lkProg (l : Img) (i : Nat) : Nat := l.b1 7 (148 + 8 * i)
def lkMode (l : Img) (i : Nat) : Nat := l.b1 7 (149 + 8 * i)
def lawLinks (l : Img) : List Nat := (List.range 64).filter (fun i => l.has 7 && l.lkMode i != 0)
/-- B_S in SYS cycles (R309) -/
def budget (l : Img) : Nat := (400 * l.baseUs * 1000 - 400 * l.tIn) / 1000 - 1000

-- SPINDLES
def vbusCeil (l : Img) : Nat := l.orD 9 (l.b2 9 0) 540
def regenBand (l : Img) : Nat := l.orD 9 (l.b2 9 2) 20
def rpsFitted (l : Img) : Bool := l.b1 9 4 = 1
def chAt (n : Nat) : Nat := 16 + 128 * n
def spMode (l : Img) (n : Nat) : Nat := l.b1 9 (chAt n)
def spSource (l : Img) (n : Nat) : Nat := l.b1 9 (chAt n + 1)
def spB (l : Img) (n i : Nat) : Nat := l.b1 9 (chAt n + i)
def spH (l : Img) (n i : Nat) : Nat := l.b2 9 (chAt n + i)
def spF (l : Img) (n i : Nat) : F32 := l.fl 9 (chAt n + i)
/-- enabled polygon channels with SOURCE FACET (R257) -/
def facetChans (l : Img) : List Nat := (List.range 8).filter (fun n => l.spindleEn n && l.has 9 && l.spSource n = 0)

-- STATIONS_LASTS
def lasts (l : Img) : Nat := l.b1 10 0
def scaleNum (l : Img) : Nat := l.b4 10 4
def scaleDen (l : Img) : Nat := l.b4 10 8
def zPeriod (l : Img) : Nat := l.b4 10 12
def debtMax (l : Img) : Nat := l.b4 10 16
def vMin (l : Img) : Nat := l.b2 10 20
def vStby (l : Img) : Nat := l.orD 10 (l.b2 10 22) 50
def gain (l : Img) : Nat := l.b2 10 24
def slew (l : Img) : Nat := l.b2 10 26
/-- EST_WIN in ticks -/
def estWin (l : Img) : Nat := 100 * l.orD 10 (l.b2 10 28) 100
def regLimit (l : Img) : Nat := l.b1 10 36
def regStep (l : Img) : Nat := l.b1 10 37
def regXLimit (l : Img) : Nat := l.b2 10 38
def regXStep (l : Img) : Nat := l.b2 10 40
def gainA (l : Img) : Nat := l.b2 10 42
def gainX (l : Img) : Nat := l.b2 10 44
def anchNode (l : Img) : Nat := l.b1 10 2
def camNode (l : Img) (n : Nat) : Nat := l.b1 10 (48 + n)
def lastAt (i : Nat) : Nat := 64 + 80 * i
def lF (l : Img) (i : Nat) : Nat := l.b3 10 (lastAt i)
def width (l : Img) (i : Nat) : Nat := l.b2 10 (lastAt i + 4)
def left (l : Img) (i : Nat) : Nat := l.b2 10 (lastAt i + 6)
def dN (l : Img) (i n : Nat) : Nat := l.b3 10 (lastAt i + 8 + 3 * n)
def lastCross (l : Img) (i n : Nat) : Int := signed 32 (l.b4 10 (lastAt i + 32 + 4 * n))
def lastSub (l : Img) (i n : Nat) : Int := signed 8 (l.b1 10 (lastAt i + 64 + n))

-- TONE, CORRECTION
def corB (l : Img) (n i : Nat) : Nat := l.b1 12 (704 * n + i)
def corH (l : Img) (n i : Nat) : Nat := l.b2 12 (704 * n + i)
def corS (l : Img) (n i : Nat) : Int := signed 16 (l.corH n i)
def fwdLat (l : Img) (n : Nat) : Int := (l.b4 12 (704 * n + 4) : Nat)

-- THERMAL
def thr (l : Img) (i : Nat) : Int := signed 16 (l.orD 13 (l.b2 13 (2 * i)) (1000 + 50 * i))
def tHyst (l : Img) : Nat := l.orD 13 (l.b2 13 8) 30
def ntcAt (n : Nat) : Nat := 16 + 12 * n
def diodeAt (d : Nat) : Nat := 208 + 8 * d
def htrAt (h : Nat) : Nat := 240 + 16 * h
def ntcUse (l : Img) (n : Nat) : Bool := Fp.exact (l.fl 13 (ntcAt n)) != 0
def diodeUse (l : Img) (d : Nat) : Bool := l.b1 13 (diodeAt d + 6) = 1
def htrUse (l : Img) (h : Nat) : Bool := l.b1 13 (htrAt h) = 1
def htrSensor (l : Img) (h : Nat) : Nat := l.b1 13 (htrAt h + 1)
def htrMode (l : Img) (h : Nat) : Nat := l.b1 13 (htrAt h + 2)
def htrMax (l : Img) (h : Nat) : Int := signed 16 (l.b2 13 (htrAt h + 4))
def htrDutyMax (l : Img) (h : Nat) : Nat := l.b2 13 (htrAt h + 6)

-- FAULT_TABLE
def ftLoaded (l : Img) : Bool := l.has 14
def ftReaction (l : Img) (src : Nat) : Nat := l.b1 14 (16 + 4 * src)
def ftDomain (l : Img) (src : Nat) : Nat := l.b1 14 (17 + 4 * src)
def ftPin (l : Img) (src : Nat) : Bool := (l.b1 14 (18 + 4 * src)).testBit 0
def ftLatch (l : Img) (src : Nat) : Bool := (l.b1 14 (18 + 4 * src)).testBit 1

-- ADMISSION: MB/s, MB/s, µs
def storeBw (l : Img) : Nat := l.orD 15 (l.b4 15 0) 24000
def wMinBw (l : Img) : Nat := l.orD 15 (l.b4 15 4) 1000

-- CONSUMABLES
def tagAt (i : Nat) : Nat := 16 + 16 * i
def tagUse (l : Img) (i : Nat) : Nat := l.b1 17 (tagAt i)
def tagKind (l : Img) (i : Nat) : Nat := l.b1 17 (tagAt i + 1)
def tagMeter (l : Img) (i : Nat) : Nat := l.b1 17 (tagAt i + 2)
def tagSource (l : Img) (i : Nat) : Nat := l.b1 17 (tagAt i + 3)
def tagLimit (l : Img) (i : Nat) : Nat := l.b4 17 (tagAt i + 4)
def tagsUsed (l : Img) : List Nat := (List.range 32).filter (fun i => l.has 17 && l.tagUse i != 0)

-- AUX_AXES
def auxAt (p : Nat) : Nat := 16 * p
def auxCurve (l : Img) (p : Nat) : Bool := l.b1 18 (auxAt p) = 1
def auxFltMode (l : Img) (p : Nat) : Nat := l.b1 18 (auxAt p + 1)
def auxJerk (l : Img) (p : Nat) : Nat := l.b4 18 (auxAt p + 8)

-- HV_NODES
def hvLost (l : Img) : Nat := l.orD 19 (l.b1 19 0) 4
def hvAt (c : Nat) : Nat := 16 + 56 * c
def hvNode (l : Img) (c : Nat) : Nat := l.b1 19 (hvAt c)
def hvSlot (l : Img) (c : Nat) : Nat := l.b1 19 (hvAt c + 1)
def hvV (l : Img) (c i : Nat) : Nat := l.b2 19 (hvAt c + 4 + 2 * i)
def hvS (l : Img) (c i : Nat) : F32 := l.fl 19 (hvAt c + 20 + 4 * i)
def hvUsed (l : Img) : List Nat := (List.range 24).filter (fun c => l.has 19 && l.hvNode c != 0)

end Img

/-- The loaded image. -/
def State.img (s : State) : Img := s.boot.sections

/-- Ring time. -/
def State.now (s : State) : Nat := s.eng.time

/-- The controller sets W1C bit `b` of the register at BAR0 offset `o` in this tick (R5). -/
def setsBit (o b : Nat) (s : State) : State :=
  let now := s.now
  s.modW1c fun w => if w.tick = now then { w with bits := w.bits ++ [8 * o + b] } else { tick := now, bits := [8 * o + b] }

/-- It has set that bit in this tick. -/
def setThisTick (s : State) (o b : Nat) : Bool := s.w1c.tick = s.now && s.w1c.bits.contains (8 * o + b)

end Sys2Proof.Machine
end

