-- ==== Sys2Proof/Machine/Link.lean ====
section
/-! DEFINITION. Completions, events and interrupts: what the controller writes towards the host (R65 to R72, R506,
R507). -/

namespace Sys2Proof.Machine

open Sys2Proof.Bits

/-- Table of status codes. -/
def Status.code : Status → Nat
  | .ok => 0x00 | .opcode => 0x01 | .field => 0x02 | .range => 0x03 | .busy => 0x04 | .notReady => 0x05
  | .noRoom => 0x06 | .quota => 0x07 | .locked => 0x08 | .state => 0x09 | .integrity => 0x0A | .noGrow => 0x0B
  | .expansion => 0x0C | .timeout => 0x0D | .budget => 0x0E | .otpCrc => 0x0F | .verify => 0x10

/-- Table "Engine state codes". -/
def EngState.code : EngState → Nat
  | .down => 0 | .boot => 1 | .idle => 2 | .armed => 3 | .run => 4 | .halting => 5 | .belay => 6 | .safe => 7
  | .service => 8

/-- The state of a code. -/
def EngState.ofCode : Nat → Option EngState
  | 0 => some .down | 1 => some .boot | 2 => some .idle | 3 => some .armed | 4 => some .run | 5 => some .halting
  | 6 => some .belay | 7 => some .safe | 8 => some .service | _ => none

/-- ENG_STATE.STOP. -/
def Stop.code : Stop → Nat
  | .none => 0 | .halt => 1 | .belay => 2 | .ramp => 3 | .coast => 4

/-- An open value is taken: the counter of open values advances (log 1). -/
def State.useFree (s : State) : State := s.modFreeCtr (· + 1)

/-- An MSI-X message on a vector: sent, or pending while the vector is masked (R507). -/
def sendMsix (v : Nat) (s : State) : State :=
  let v : Fin 64 := Fin.ofNat 64 v
  s.modHost fun h =>
    if h.msixMask.getLsbD v.val then { h with msixPend := h.msixPend ||| (1#64 <<< v.val) }
    else { h with msix := h.msix ++ [v] }

/-- Entries of a queue of the pair. -/
def QPair.entries (q : QPair) : Nat := q.size + 1

/-- Free slots of the completion queue (R68). -/
def QPair.freeSlots (q : QPair) : Nat := (q.cqHead + q.entries - q.cqWr - 1) % q.entries

/-- Bytes of a completion entry with its phase. -/
def Completion.bytes (c : Completion) (p : Bool) : List Byte :=
  toLE 2 c.tag ++ toLE 1 c.status.code ++ toLE 1 (b2n p + 2 * b2n c.rep + 4 * b2n c.more + 8 * b2n c.event) ++
  toLE 4 c.result ++ toLE 8 c.time

/-- A write into host memory. -/
def hostWrite (addr : Nat) (data : List Byte) (s : State) : State :=
  s.modHost fun h => { h with out := h.out ++ [{ addr := addr, data := data }] }

/-- The write position after one completion. -/
def QPair.advance (q : QPair) : QPair :=
  if q.cqWr + 1 = q.entries then { q with cqWr := 0, phase := !q.phase } else { q with cqWr := q.cqWr + 1 }

/-- A completion is written to the next slot of queue `n`, and signalled at once when COALESCE is 0 (R69). -/
def putCompletion (n : Fin 8) (c : Completion) (s : State) : State :=
  let q := s.host.q[n]
  let s := hostWrite (q.cqBase + 16 * q.cqWr) (c.bytes q.phase) s
  let s := s.modHost fun h => { h with q := upd h.q n fun q => { q.advance with unsignalled := q.coalesce != 0 } }
  if q.coalesce = 0 && q.irqEn then sendMsix q.vector s else s

/-- The controller can write to the host: PD6, which holds the PCIe PHY, operates (table "Internal domains"). After a
power failure nothing is written (R26). -/
def hostUp (s : State) : Bool := tab s.pwr.domain 0 6 = 2

/-- BAR0 answers: from the tick in which step 8 has trained the link, until PD6 goes off (R49, R505; log 71). -/
def barOpen (s : State) : Bool := hostUp s && s.boot.linkTrained && s.eng.state != .down

/-- Power domain `d` is on; 10 stands for the ring and stage parts of PD6, off after a boot failure (R53). -/
def domainOn (d : Nat) (s : State) : Bool :=
  if d = 10 then tab s.pwr.domain 0 6 != 0 && !s.pwr.pciePart else tab s.pwr.domain 0 d != 0

/-- A write reaches a block of power domain `d`: BAR0 answers, and the domain is on (R503). Its sections have loaded by
then, since step 7 is before step 8 (log 71). -/
def regOpen (d : Nat) (s : State) : Bool := barOpen s && domainOn d s

/-- Completion queue `n` can be written: it has a free slot, and the function is not in D3hot (R64, R68). -/
def slotFree (n : Fin 8) (s : State) : Bool :=
  let q := s.host.q[n]
  q.enable && decide (0 < q.freeSlots) && !s.host.d3hot && hostUp s

/-- Events wait for completion queue `n` (R70). -/
def eventsWait (n : Fin 8) (s : State) : Bool := s.host.evt.enable && s.host.evt.cq = n && !s.host.evt.fifo.isEmpty

/-- The oldest event that waits for queue `n` comes before the oldest completion that waits for it (R69). -/
def eventFirst (n : Fin 8) (s : State) : Bool :=
  eventsWait n s &&
    match s.host.evt.fifo, s.host.q[n].waiting with
    | e :: _, c :: _ => decide (e.time ≤ c.time)
    | _, _ => true

/-- Completion queue `n` takes a new completion or event now: nothing older waits for it (R69). -/
def hasRoom (n : Fin 8) (s : State) : Bool := slotFree n s && s.host.q[n].waiting.isEmpty && !eventsWait n s

/-- A completion of queue `n`: written, or waiting for a free slot (R72). The completions of a disabled pair are
discarded (R65). -/
def queueCompletion (n : Fin 8) (c : Completion) (s : State) : State :=
  if !s.host.q[n].enable || !hostUp s then s
  else if hasRoom n s then putCompletion n c s
  else s.modHost fun h => { h with q := upd h.q n fun q => { q with waiting := q.waiting ++ [c] } }

/-- A completion of message `r`. A message taken up before its pair was disabled writes none (R65). -/
def completeWith (r : MsgRef) (st : Status) (result : Nat) (more rep : Bool) (s : State) : State :=
  if s.host.q[r.q].epoch = r.epoch then
    let s := s.modHost fun h => { h with q := upd h.q r.q fun q => if more then q else { q with running := q.running - 1 } }
    queueCompletion r.q { tag := r.tag, status := st, rep := rep, more := more, event := false,
                          result := result % 2 ^ 32, time := s.now } s
  else s

/-- The final completion of a message. -/
def complete (r : MsgRef) (st : Status) (result : Nat) (s : State) : State := completeWith r st result false false s

/-- Kinds of the table "Event kinds". -/
inductive EventKind where
  | spoil | state | runEnd | fault | printed | quotaFree | evtLost
  deriving DecidableEq, Repr

def EventKind.code : EventKind → Nat
  | .spoil => 1 | .state => 2 | .runEnd => 3 | .fault => 4 | .printed => 5 | .quotaFree => 6 | .evtLost => 7

/-- An event completion: kind in RESULT [7:0], `detail` in the bits above. -/
def eventEntry (k : EventKind) (detail : Nat) (s : State) : Completion :=
  { tag := 0xFFFF, status := .ok, rep := false, more := false, event := true,
    result := k.code + 256 * (detail % 2 ^ 24), time := s.now }

/-- The number of events dropped, as the next event written, where the mask enables its kind (R70). Its TIME is that of the
oldest event that waits, which it goes before (R69; log 107). -/
def writeLost (s : State) : State :=
  if s.host.evt.dropped = 0 then s
  else
    let c := eventEntry .evtLost (min s.host.evt.dropped 0xFFFFFF) s
    let c := { c with time := (s.host.evt.fifo.head?.map (·.time)).getD c.time }
    let on := s.host.evt.mask.getLsbD 6
    let s := s.modHost fun h => { h with evt := { h.evt with dropped := 0 } }
    if on then putCompletion s.host.evt.cq c s else s

/-- An event is written when its queue has room and no event waits; otherwise it waits in the FIFO of 64, and is
dropped and counted past that (R70). -/
def postEvent (k : EventKind) (detail : Nat) (s : State) : State :=
  let e := s.host.evt
  if !e.enable || !e.mask.getLsbD (k.code - 1) then s
  else
    let c := eventEntry k detail s
    if e.fifo.isEmpty && e.dropped = 0 && hasRoom e.cq s then putCompletion e.cq c s
    else if e.fifo.length < 64 then s.modHost fun h => { h with evt := { h.evt with fifo := h.evt.fifo ++ [c] } }
    else s.modHost fun h => { h with evt := { h.evt with dropped := h.evt.dropped + 1, lost := sat 16 (h.evt.lost + 1) } }

/-- An ENG_EVENT bit that MASK enables goes from 0 to 1: one MSI-X message, and no second for another bit that goes to 1 in the
same SYS cycle (R506). What one tick sets counts as one cycle (log 113). -/
def engineInterrupt (bit : Nat) (s : State) : State :=
  if s.eng.irqEn && s.eng.irqMask.getLsbD bit && s.eng.irqTick != some s.now then
    sendMsix s.eng.irqVector (s.modEng fun e => { e with irqTick := some e.time })
  else s

/-- Sets ENG_EVENT.STATE_CHG. -/
def setStateChg (s : State) : State :=
  let s' := setsBit 0x4 0 (s.modEng fun e => { e with evStateChg := true })
  if s.eng.evStateChg then s' else engineInterrupt 0 s'

/-- Sets ENG_EVENT.ARM_TMO. -/
def setArmTmo (s : State) : State :=
  let s' := setsBit 0x4 1 (s.modEng fun e => { e with evArmTmo := true })
  if s.eng.evArmTmo then s' else engineInterrupt 1 s'

/-- Sets ENG_EVENT.STOP_DONE. -/
def setStopDone (s : State) : State :=
  let s' := setsBit 0x4 2 (s.modEng fun e => { e with evStopDone := true })
  if s.eng.evStopDone then s' else engineInterrupt 2 s'

end Sys2Proof.Machine
end

