-- ==== Sys2Proof/Machine/JobOps.lean ====
section
/-! DEFINITION. Jobs, their pages and the outcome of frames: operations that messages, facets and stops share
(R10, R11, R74, R77, R79, R85, R88, R89). -/

namespace Sys2Proof.Machine

open Sys2Proof.Bits

/-- Bytes of a page. -/
def pageBytes : Nat := 1048576

def State.modJob (s : State) (id : Nat) (f : Job → Job) : State :=
  s.modJobs fun j => { j with jobs := j.jobs.map fun x => if x.id = id then f x else x }

def State.modFrame (s : State) (entry : Nat) (f : Frame → Frame) : State :=
  s.modJobs fun j => { j with frames := j.frames.map fun x => if x.entry = entry then f x else x }

def State.job? (s : State) (id : Nat) : Option Job := s.jobs.jobs.find? (fun x => x.id = id)

def State.frame? (s : State) (entry : Nat) : Option Frame := s.jobs.frames.find? (fun x => x.entry = entry)

/-- Frames of a job, in the order in which they were decided. -/
def State.framesOf (s : State) (id : Nat) : List Frame := s.jobs.frames.filter (fun x => x.job = id)

/-- The committed frame that holds a frame number. -/
def State.frameNo? (s : State) (id number : Nat) : Option Frame :=
  (s.framesOf id).find? (fun x => x.committed && decide (x.first ≤ number ∧ number < x.first + x.rep))

/-- The committed frame that took a frame number, withdrawn or not: the base layer that a BASE_REF names (R77). -/
def State.baseNo? (s : State) (id number : Nat) : Option Frame :=
  (s.framesOf id).find? (fun x => x.committed && decide (x.first ≤ number ∧ number < x.first + x.taken))

/-- The frame holds bytes of its job's run: reserved, or committed and not released. -/
def Frame.live (f : Frame) : Bool := decide (0 < f.size)

/-- End of the job's run of bytes (R79). -/
def runEnd (fs : List Frame) : Nat := (fs.filter Frame.live).foldl (fun m f => max m (f.off + f.size)) 0

/-- Free bytes of the job's last page (R79). -/
def lastFree (fs : List Frame) : Nat := (pageBytes - runEnd fs % pageBytes) % pageBytes

/-- New pages for `bytes` more bytes (R79). -/
def newPages (fs : List Frame) (bytes : Nat) : Nat := (bytes - lastFree fs + pageBytes - 1) / pageBytes

/-- Page `k` of the run holds a byte of a live frame. -/
def pageLive (fs : List Frame) (k : Nat) : Bool :=
  fs.any fun f => f.live && decide (f.off < (k + 1) * pageBytes ∧ k * pageBytes < f.off + f.size)

/-- Pages held by jobs. -/
def State.heldPages (s : State) : List Nat := s.jobs.jobs.flatMap fun j => j.pages.map (·.2)

/-- The page is neither held, nor retired, nor the destination of a migration. -/
def State.pageFree (s : State) (p : Nat) : Bool :=
  !s.heldPages.contains p && !s.store.retired.contains p && !(s.store.migActive && (s.store.migDest = p || s.store.migSource = p))

/-- Free pages from page `p` on, at most `n` of them, looking at `fuel` pages. -/
def State.freeFrom (s : State) : Nat → Nat → Nat → List Nat
  | _, 0, _ => []
  | p, n + 1, 0 => let _ := p; let _ := n; []
  | p, n + 1, fuel + 1 =>
    if s.pageFree p then p :: s.freeFrom (p + 1) n fuel else s.freeFrom (p + 1) (n + 1) fuel

/-- The `n` lowest free pages, or fewer when there are fewer. -/
def State.freePages (s : State) (n : Nat) : List Nat := s.freeFrom 0 n 8192

/-- Occupancy of a job in pages, reserved pages included. -/
def Job.occupancy (j : Job) : Nat := j.pages.length

/-- QUOTA_FREE after a change of occupancy or quota (R85). -/
def noteQuota (id : Nat) (s : State) : State :=
  match s.job? id with
  | none => s
  | some j =>
    if j.quota ≤ j.occupancy then s.modJob id fun j => { j with quotaArmed := true }
    else if j.quotaArmed then postEvent .quotaFree j.queue.val (s.modJob id fun j => { j with quotaArmed := false })
    else s

/-- Pages of a job that hold neither data nor a reservation are released (R79). -/
def releasePages (id : Nat) (s : State) : State :=
  let fs := s.framesOf id
  noteQuota id (s.modJob id fun j => { j with pages := j.pages.filter fun p => pageLive fs p.1 })

/-- Repetitions of a frame that have not ended, or another frame of the job still needs its base layer (R77). -/
def Frame.needed (fs : List Frame) (f : Frame) : Bool :=
  decide (f.ended < f.rep) ||
  fs.any fun g => g.base.any (fun b => decide (f.first ≤ b ∧ b < f.first + f.taken)) && decide (g.ended < g.rep)

/-- A frame of job `id` without its data, once nothing needs them. -/
def Frame.release (fs : List Frame) (id : Nat) (f : Frame) : Frame :=
  if f.job = id && f.committed && !f.needed fs then { f with size := 0, streams := [] } else f

/-- Data of ended frames that no frame refers to are released, and with them pages (R77, step 9 of "One frame"). -/
def releaseData (id : Nat) (s : State) : State :=
  releasePages id (s.modJobs fun j => { j with frames := j.frames.map (Frame.release (s.framesOf id) id) })

/-- The frame-table entry is free: every repetition ended, no spoiled one awaits its acknowledgement, and the data are
released (R77, R78). -/
def Frame.gone (f : Frame) : Bool := f.committed && decide (f.rep ≤ f.ended) && f.spoiled = 0 && f.size = 0

/-- Something still holds a closed job (R74); a decided frame that is not committed yet holds it too (log 124). -/
def Jobs.holds (j : Jobs) (id : Nat) : Bool :=
  j.frames.any (fun f => f.job = id) || j.prog.any (fun p => p.job = id) || j.outcome.any (fun p => p.job = id) ||
  j.spoil.any (fun r => r.job = id || r.jobs.contains id)

/-- Entries of ended frames leave the frame table (R78), and closed jobs with nothing left leave the controller (R74). -/
def releaseEntries (s : State) : State :=
  let s := s.modJobs fun j => { j with frames := j.frames.filter fun f => !f.gone }
  s.modJobs fun j => { j with jobs := j.jobs.filter fun x => !(x.closed && !j.holds x.id) }

/-- Lines `first` to `last` of one repetition are spoiled at station `n` (R11); the first cause stays. -/
def Prog.spoilAt (p : Prog) (n first last : Nat) (cause : Nat × Nat × Nat) : Prog :=
  if last < first then p
  else
    { p with
      cause := p.cause.or (some cause)
      stations := p.stations.map fun x =>
        if x.n = n then
          { x with spoil := some ((x.spoil.map fun r => min r.1 first).getD first, (x.spoil.map fun r => max r.2 last).getD last),
                   gap := x.gap || x.spoil.any fun r => !(decide (first ≤ r.2 + 1) && decide (r.1 ≤ last + 1)) }
        else x }

/-- The rest of a repetition is spoiled at every station from the first line of the facet in progress (R89). -/
def Prog.cutBy (p : Prog) (cause : Nat × Nat × Nat) : Prog :=
  let q := p.stations.foldl
    (fun q x => if x.done < p.lines then q.spoilAt x.n x.done (p.lines - 1) cause else q) p
  { q with cut := true }

/-- A stop spoils every frame that has started at S0 and is not printed, with cause STOP (R89; log 91). -/
def spoilStarted (source : Nat) (s : State) : State :=
  s.modJobs fun j => { j with prog := j.prog.map fun p => if p.cut then p else p.cutBy (0x06, source, s.now) }

/-- The lines of the facet in progress at station `n` spoiled in one repetition. -/
def Prog.spoilFacet (n : Nat) (cause : Nat × Nat × Nat) (p : Prog) : Prog :=
  p.stations.foldl
    (fun q x => if x.n = n && decide (x.done < x.cur) then q.spoilAt n x.done (min x.cur p.lines - 1) cause else q) p

/-- The lines of the facet in progress at station `n` are spoiled (R249, R273, R420). -/
def spoilFacet (n : Nat) (cause source : Nat) (s : State) : State :=
  s.modJobs fun j => { j with prog := j.prog.map (Prog.spoilFacet n (cause, source, s.now)) }

/-- A lifetime counter advances, saturating (R493). -/
def countLife (i n : Nat) (s : State) : State :=
  s.modPers fun p => { p with lifeRam := updAt p.lifeRam i fun v => sat 64 (v + n) }

/-- One repetition has ended: printed, with event PRINTED, or spoiled, when its outcome waits for its record (R11, R88). -/
def endRepetition (p : Prog) (s : State) : State :=
  let s := s.modJobs fun j => { j with prog := j.prog.filter fun q => !(q.job = p.job && q.number = p.number) }
  let s := countLife (if p.cause.isSome then 5 else 4) 1 s
  let s := s.modFrame p.entry fun f =>
    { f with ended := f.ended + 1, spoiled := if p.cause.isSome then f.spoiled + 1 else f.spoiled }
  if p.cause.isSome then releaseData p.job (s.modJobs fun j => { j with outcome := j.outcome ++ [p] })
  else releaseEntries (releaseData p.job (postEvent .printed p.number s))

/-- Every line of the repetition has passed every station. -/
def Prog.passed (p : Prog) : Bool := p.stations.all fun x => decide (p.lines ≤ x.done)

/-- Words of the repetition are still to leave at a station: its last lines are not yet exposed there (R11). -/
def wordsLeft (s : State) (p : Prog) : Bool :=
  p.stations.any fun x =>
    let e := tab s.expo Expo.reset x.n
    e.linkUp && e.out.any (fun o => !o.blank && decide (o.next < 16384)) &&
      (e.sent.head?.any fun y => y.job = p.job && y.lines.any fun z => z.1 = p.number)

/-- The outcome of every repetition that has passed its last station. -/
def endPassed (s : State) : State :=
  (s.jobs.prog.filter fun p => p.passed && !wordsLeft s p).foldl (fun s p => endRepetition p s) s

/-- At standstill the outcome of frames that a stop cut is final (R88). -/
def endCut (s : State) : State := (s.jobs.prog.filter (·.cut)).foldl (fun s p => endRepetition p s) s

/-- Entries of the frame table in use (R78): a frame held only as a base layer counts no longer. -/
def State.tableUsed (s : State) : Nat :=
  (s.jobs.frames.filter fun f => !(f.committed && decide (f.rep ≤ f.ended) && f.spoiled = 0)).length

/-- Frames of the run that have not started at S0 (RUN_LEFT). -/
def State.runLeft (s : State) : Nat := s.run.stretch - s.run.started

end Sys2Proof.Machine
end

