-- ==== Sys2Proof/Machine/Outputs.lean ====
section
/-! DEFINITION. Station blanking, channel gates and the hardwired outputs: gates, INH pairs, laser enables, heaters and
HV enables (R249, R250, R263, R273, R336, table "Reaction codes"). -/

namespace Sys2Proof.Machine

open Sys2Proof.Bits

/-- The eight stations, channels or links. -/
def eight : List Nat := List.range 8

/-- The same update at each of the eight. -/
def each8 (f : Nat → State → State) (s : State) : State := eight.foldl (fun s n => f n s) s

/-- A condition of this kind is held. -/
def BlankCause.has (k : BlankKind) (b : BlankCause) : Bool := b.conds.any fun c => c.kind = k

/-- A condition holds the station blank. -/
def BlankCause.held (b : BlankCause) : Bool := !b.conds.isEmpty

/-- The station exposes nothing. -/
def BlankCause.blank (b : BlankCause) : Bool := b.held || b.resume

/-- Spoil cause and source of the lines that the station leaves blank: an open interlock's (R249), else those of the oldest
condition held, else of the one that cleared last (log 102). -/
def BlankCause.cause (b : BlankCause) : Nat × Nat :=
  match b.conds.find? (fun c => c.kind = .interlock) with
  | some c => (c.cause, c.source)
  | none => match b.conds with
    | c :: _ => (c.cause, c.source)
    | [] => b.last

/-- A condition begins; one that is held already keeps its cause. -/
def BlankCause.hold (k : BlankKind) (cause source : Nat) (b : BlankCause) : BlankCause :=
  if b.has k then b else { b with conds := b.conds ++ [{ kind := k, cause := cause, source := source }] }

/-- A condition clears; after the last the station waits for line 0 of the first frame due (R250). -/
def BlankCause.release (k : BlankKind) (b : BlankCause) : BlankCause :=
  if !b.has k then b
  else
    let left := b.conds.filter fun c => c.kind != k
    { b with conds := left, resume := b.resume || left.isEmpty, last := b.cause }

/-- A condition blanks station `n` from its next facet on (R173, R252). -/
def holdBlank (n : Nat) (k : BlankKind) (cause source : Nat) (s : State) : State :=
  s.atExpo n fun e => { e with blank := e.blank.hold k cause source }

/-- The lines of the facet in progress that are on become off, and its FACET block, if it has not left, carries BLANK
(R420). -/
def FacetNow.darken (c : Nat × Nat) (f : FacetNow) : FacetNow :=
  { f with blank := true, lines := f.lines.map fun x => x.map fun y => { y with off := y.off.or (some c) } }

/-- A data block that has not left carries off words (R220, R420), and a FACET block BLANK. -/
def FwdBlock.dark : FwdBlock → FwdBlock
  | .data ws => .data (ws.map fun _ => 0)
  | .facet k w _ t => .facet k w true t
  | b => b

/-- The station exposes nothing more of its facets: the lines in progress are off, and so are the words that have not left
(R220). -/
def Expo.darken (c : Nat × Nat) (e : Expo) : Expo :=
  { e with now := e.now.map (·.darken c), queue := e.queue.map FwdBlock.dark
           words := e.words.map fun b => b.filter fun x => e.out.any fun o => decide (x.1 < o.next) }

/-- A condition darkens station `n` from this tick on, the facet in progress included. -/
def darkNow (n : Nat) (k : BlankKind) (cause source : Nat) (s : State) : State :=
  (holdBlank n k cause source s).atExpo n (Expo.darken (cause, source))

/-- A condition blanks station `n` from this tick on, and the lines of the facet in progress are spoiled (R249, R273, R420). -/
def blankNow (n : Nat) (k : BlankKind) (cause source : Nat) (s : State) : State :=
  spoilFacet n cause source (darkNow n k cause source s)

/-- A condition of station `n` clears. -/
def unblank (n : Nat) (k : BlankKind) (s : State) : State := s.atExpo n fun e => { e with blank := e.blank.release k }

/-- Channel `n` is locked, with the learned model of R204 (R257, R272). -/
def channelLocked (s : State) (n : Nat) : Bool :=
  (tab s.sp Spindle.reset n).locked && (tab s.scan Scan.reset n).learned && s.img.spSource n = 0

/-- ENG_STATE.LOCKED: every enabled polygon channel is locked (R257). -/
def allLocked (s : State) : Bool := s.img.facetChans.all (channelLocked s)

/-- Every enabled polygon channel is in OFF, which is its standstill (R264). -/
def allOff (s : State) : Bool := s.img.facetChans.all fun n => (tab s.sp Spindle.reset n).state = .off

/-- Gates are inhibited (R263). -/
def gatesInhibited (s : State) : Bool :=
  s.eng.state = .safe || (s.eng.state = .belay && s.eng.stop = .coast) || s.spBus.vcpUv || s.spBus.vbusUv || s.spBus.vbusOv

/-- Channel `n` no longer meets the frequency condition: lock ends, learning restarts (R204, R272), and in RUN and
HALTING its station blanks from the facet in progress (R273). -/
def leaveLock (n : Nat) (source : Nat) (s : State) : State :=
  let was := channelLocked s n
  let s := s.atSp n fun c => { c with freqOk := false, lockRevs := 0, badRevs := 0, locked := false }
  let s := s.atScan n fun c => { c with learned := false, learning := false, pulses := 0, eHist := [] }
  if was && (s.eng.state = .run || s.eng.state = .halting) then
    blankNow n .spindle 0x04 source s
  else s

/-- Channel `n` leaves CLOSED, or any driven state, for `to` with every gate off. -/
def dropChannel (n : Nat) (toV : SpState) (source : Nat) (s : State) : State :=
  let s := leaveLock n source s
  s.atSp n fun c => { c with
                         state := toV, gates := 0, duty := 0, agree := 0, catching := decide (toV = .coast),
                         resting := false, braking := c.braking && toV = .coast, lastInterval := none }

/-- A row moves the channel: what it was as the tick began is kept until the tick ends (R264). -/
def Spindle.mark (c : Spindle) : Spindle :=
  if c.turn.isSome then c
  else { c with turn := some { state := c.state, tries := c.tries, syncLosses := c.syncLosses, startFail := c.startFail,
                               barred := c.barred, owed := [] } }

/-- What a row owes to other units at the end of its tick. -/
def Spindle.owe (x : SpOwed) (c : Spindle) : Spindle :=
  { c.mark with turn := c.mark.turn.map fun u => { u with owed := u.owed ++ [x] } }

/-- A row of this tick has not taken effect: a row before it has moved the channel (R264). -/
def Spindle.untake (c : Spindle) : Spindle :=
  match c.turn with
  | some u => { c with tries := u.tries, syncLosses := u.syncLosses, startFail := u.startFail, barred := u.barred, turn := none }
  | none => c

/-- Row 18: COAST_CHANNEL halts channel `n` with every gate low, before every other row of the tick (R264). -/
def haltChannel (n : Nat) (source : Nat) (s : State) : State := dropChannel n .halted source (s.atSp n Spindle.untake)

/-- The last inhibit has ended since `was`: T_CATCH starts again in COAST (R281). -/
def inhibitEnded (was s : State) : State :=
  if !gatesInhibited was || gatesInhibited s then s
  else s.modSp fun v => v.map fun c => if c.state = .coast && !c.resting then { c with catching := true, agree := 0 } else c

/-- Row 17 leaves the channel as it is: HALTED, COAST, or OFF that it was in as the tick began or has reached from COAST (row 13
of the same tick, R264). -/
def Spindle.stays (c : Spindle) : Bool :=
  match c.state with
  | .halted => true
  | .coast => c.turn.isNone
  | .off => c.turn.all fun u => u.state = .off || u.state = .coast
  | _ => false

/-- Row 17: the gates of channel `n` are inhibited. It takes effect before rows 1 to 16 of the same tick (R264). -/
def inhibitChannel (source : Nat) (n : Nat) (s : State) : State :=
  let c := tab s.sp Spindle.reset n
  if c.stays then s.atSp n fun c => { c with gates := 0 }
  else dropChannel n .coast source (if c.turn.any (·.state = .off) then s else s.atSp n Spindle.untake)

/-- Every integrated gate low. -/
def allGatesLow (source : Nat) (s : State) : State := each8 (inhibitChannel source) s

/-- INH of every link, from the state and from what R335 holds (R335, R336). DOWN keeps it asserted (R438). -/
def updateInh (s : State) : State :=
  let all := s.eng.state = .boot || s.eng.state = .safe || s.eng.state = .down ||
    (s.eng.state = .belay && s.eng.stop = .coast)
  s.modStage fun v => v.map fun l => { l with inh := all || l.inhHeld }

/-- INH of every link asserted, whatever the state. -/
def assertInh (s : State) : State := s.modStage fun v => v.map fun l => { l with inh := true }

/-- A laser enable falls: the station is blank until it rises (R249, R250). -/
def laserLow (k : BlankKind) (cause source : Nat) (n : Nat) (s : State) : State :=
  blankNow n k cause source (s.modIl fun i => { i with lsr := updAt i.lsr n fun _ => false })

/-- Every LSR_ENn low. -/
def allLasersLow (source : Nat) (s : State) : State := each8 (laserLow .laser 0x06 source) s

/-- Ticks for which heater `h` has been high and that no tag is charged for yet, at tick `now` (R466). -/
def Heaters.highFor (t : Heaters) (now h : Nat) : Nat :=
  tab t.high 0 h + (if tab t.on false h then now - tab t.since 0 h else 0)

/-- Heater `h` driven low; its accumulator starts again, and the time it was high stays to be charged (R373, R375, R466). -/
def heaterLow (h : Nat) (s : State) : State :=
  s.modHtr fun t => { t with high := updAt t.high h fun _ => t.highFor s.eng.sincePor h
                             on := updAt t.on h fun _ => false, acc := updAt t.acc h fun _ => 0,
                             half := updAt t.half h fun _ => false }

/-- Every HTRn low. -/
def allHeatersLow (s : State) : State := (List.range 4).foldl (fun s h => heaterLow h s) s

/-- HV set-points go out with enable 0 (R379, R438). -/
def hvOff (s : State) : State := s.modHv fun h => { h with sent := h.sent.map fun x => (x.1, x.2.1, x.2.2.1, false) }

/-- Hardwired actions of COAST_ALL. -/
def coastHard (source : Nat) (s : State) : State := assertInh (allGatesLow source s)

/-- Hardwired actions of SAFE. -/
def safeHard (source : Nat) (s : State) : State := allLasersLow source (coastHard source s)

/-- An auxiliary axis in MOVING or STOPPING stops in this tick (R360). -/
def Aux.cut (a : Aux) : Aux :=
  if a.state = .moving || a.state = .stopping then { a with state := .suspended, rampSteps := 0, abort := false } else a

/-- A stop is over at rest: SUSPENDED, or IDLE without a remainder after ABORT (R360). -/
def Aux.settle (a : Aux) : Aux :=
  if a.state = .stopping && a.rampSteps = 0 then
    (if a.abort then { a with state := .idle, abort := false, held := a.pos } else { a with state := .suspended })
  else a

/-- A MOVING axis begins to stop (R360). -/
def Aux.halt (abort : Bool) (a : Aux) : Aux :=
  if a.state = .moving then Aux.settle { a with state := .stopping, abort := abort } else a

/-- Auxiliary axes in MOVING or STOPPING stop in this tick (R360). -/
def suspendAux (s : State) : State :=
  s.modAux fun v => v.map Aux.cut

/-- MOVING auxiliary axes begin to stop (R360). -/
def stopAux (s : State) : State :=
  s.modAux fun v => v.map (Aux.halt false)

/-- The TAP gives the pins back, and its register behaves as under SAMPLE/PRELOAD (R494). -/
def returnPins (s : State) : State :=
  s.modTap fun t => { t with holds := false, cells := if t.holds then .samplePreload else t.cells }

/-- Decoders stop and the band buffers are emptied (R217). -/
def clearDecoders (s : State) : State :=
  s.modDec fun v => v.map fun d => { d with cur := none, nextLine := 0, own := Stream.reset, base := Stream.reset,
                                             above := [], aboveOver := [], blankTo := [], band := [] }

/-- A speed in au per second as binary32 m/s, rounded to nearest (table "Ports"). -/
def auToMs (v : Int) : F32 := Fp.ofRat v 3000000000

end Sys2Proof.Machine
end

