-- ==== Sys2Proof/Machine/Geometry.lean ====
section
/-! DEFINITION. Geometry of frames and runs: effective delays, start, target and stop positions, remaining distance
(R8, R156, R179 to R188). -/

namespace Sys2Proof.Machine

open Sys2Proof.Bits

/-- A quotient rounded to the nearest integer, a half up; 0 for a divisor of 0. -/
def divNear (a b : Int) : Int := if b = 0 then 0 else (2 * a + b) / (2 * b)

/-- au of one line (R156). -/
def lineAu : Int := 63500

/-- The follower in lines (R156). -/
def State.line (s : State) : Int := s.anch.follow / lineAu

/-- D_n' of a last at station n (section "Registration"). -/
def dEff (s : State) (last n : Nat) : Int := (s.img.dN last n : Int) + (tab s.reg RegStation.reset n).kUsed

/-- Smallest of a list, `d` for none. -/
def minI (d : Int) : List Int → Int
  | [] => d
  | a :: r => r.foldl min a

/-- Largest of a list, `d` for none. -/
def maxI (d : Int) : List Int → Int
  | [] => d
  | a :: r => r.foldl max a

/-- D_first and D_last of the run's job. -/
def dFirst (s : State) : Int := minI 0 ((bitsOf 8 s.run.stations.toNat).map (dEff s s.run.last))
def dLast (s : State) : Int := maxI 0 ((bitsOf 8 s.run.stations.toNat).map (dEff s s.run.last))

/-- L_F of the run's job. -/
def runLF (s : State) : Int := (s.img.lF s.run.last : Int)

/-- V_MIN in au per second: 0.1 m/min is 5,000,000 au/s. -/
def vMinAu (s : State) : Int := 5000000 * (s.img.vMin : Int)

/-- SPEED in au per second, and ACCEL in au per second per second: 1 mm is 3,000,000 au. -/
def speedAu (v : Nat) : Int := 5000000 * (v : Int)
def accelAu (a : Nat) : Int := 3000000 * (a : Int)

/-- s_min = V_MIN² ÷ (2a) in au, rounded up. -/
def sMin (s : State) (accel : Nat) : Int :=
  let a := accelAu accel
  if a = 0 then 0 else (vMinAu s * vMinAu s + 2 * a - 1) / (2 * a)

/-- Lines that cover `x` au, rounded up. -/
def ceilLines (x : Int) : Int := (x + lineAu - 1) / lineAu

/-- E = F_0 + N × L_F + D_last, in lines (R181). -/
def runTarget (s : State) : Int := s.run.f0 + (s.run.stretch : Int) * runLF s + dLast s

/-- Z in au: E + s_min, or the halt plan (R182, R185). -/
def runStop (s : State) : Int :=
  match s.run.halt with
  | some z => z
  | none => runTarget s * lineAu + sMin s s.run.accel

/-- RUN_REMAIN in lines: E − X, or R188's value of a suspended run. -/
def runRemain (s : State) : Int :=
  if s.run.suspended then (s.runLeft : Int) * runLF s + dLast s
  else if s.run.active then runTarget s - s.line
  else 0

/-- Speed whose square is 2a × max(0, Z − X), in au per second (R182). -/
def sqrtSpeed (a d : Int) : Int := (isqrt (2 * a * max 0 d).toNat : Nat)

/-- Speed reference at the follower position (R182; log 49). -/
def refSpeed (s : State) : Int :=
  if s.run.active then min s.run.vRamp (sqrtSpeed (accelAu s.run.accel) (runStop s - s.anch.follow)) else 0

/-- Stop position Z of a halt with X_h at `x` (R185): past the last started frame, at V_MIN or more. -/
def haltStopAt (s : State) (x : Int) : Int :=
  let a := accelAu s.run.accel
  let v := refSpeed s
  let z := if a = 0 then x else x + (v * v + 2 * a - 1) / (2 * a)
  if s.run.started = 0 then z
  else
    let e := (s.run.f0 + (s.run.started : Int) * runLF s + dLast s) * lineAu
    max z (e + sMin s s.run.accel)

/-- Stop position of a halt that starts now. -/
def haltStop (s : State) : Int := haltStopAt s s.anch.follow

/-- Broken on-die sensors. -/
def dieBroken (s : State) : Nat := ((List.range 6).filter fun k => tab s.therm.broken false (20 + k)).length

end Sys2Proof.Machine
end

