-- ==== Sys2Proof/Machine/Meter.lean ====
section
/-! DEFINITION. Usage of consumables by their meters, and travel of the web (R466, R493). -/

namespace Sys2Proof.Machine

open Sys2Proof.Bits

/-- One unit of a meter: a mm in au, a million pixel words, a second in ticks (R466). -/
def meterUnit (m : Nat) : Nat := match m with | 1 => 3000000 | 2 => 1000000 | _ => 100000000

/-- Pending usage grows by `n` parts of a unit. -/
def Tag.use (unit n : Nat) (t : Tag) : Tag :=
  { t with frac := (t.frac + n) % unit, pending := sat 32 (t.pending + (t.frac + n) / unit) }

/-- Every tag with METER `m` and SOURCE `src` is charged (R466). -/
def meteredTag (l : Img) (m src n i : Nat) (t : Tag) : Tag :=
  if l.has 17 && l.tagUse i != 0 && l.tagMeter i = m && l.tagSource i = src then t.use (meterUnit m) n else t

def addUsage (m src n : Nat) (s : State) : State :=
  s.modCons fun c => { c with tag := Vector.ofFn fun i => meteredTag s.img m src n i.val c.tag[i] }

/-- The time that every heater was high up to now goes to METER 3 (R466; log 128). -/
def chargeHeaters (s : State) : State :=
  let c := (List.range 4).foldl (fun s h => addUsage 3 h (s.htr.highFor s.eng.sincePor h) s) s
  c.modHtr fun t => { t with high := each 4 0, since := each 4 s.eng.sincePor }

/-- Station `n` exposes lines: the facet in progress has a line that is on. -/
def exposing (s : State) (n : Nat) : Bool :=
  (tab s.expo Expo.reset n).now.any fun f => !f.blank && f.lines.any fun x => x.any fun y => y.off.isNone

/-- The follower advances by `d` au: web travel in mm, and METER 1 (R466, R493). -/
def travel (d : Nat) (s : State) : State :=
  if d = 0 then s
  else
    let s := s.modPers fun p =>
      { p with lifeAu := (p.lifeAu + d) % 3000000
               lifeRam := updAt p.lifeRam 3 fun v => sat 64 (v + (p.lifeAu + d) / 3000000) }
    each8 (fun n s => if exposing s n then addUsage 1 n d s else s) s

end Sys2Proof.Machine
end

