-- ==== Sys2Proof/Machine/Cairn.lean ====
section
/-! DEFINITION. The cairn record (R447, R448). -/

namespace Sys2Proof.Machine

open Sys2Proof.Bits

/-- SEQUENCE of the loaded image; 0 before step 5. -/
def imageSeq (s : State) : Nat := u32 (if s.boot.slot = 0 then s.boot.hdr0 else s.boot.hdr1) 28

/-- Usage mirror of a tag (R465). -/
def Tag.mirror (t : Tag) : Nat := sat 32 (t.confirmed + t.pending)

/-- Committed frames of a job whose outcome is open or not yet reported: numbers of the repetitions under way, and the
first number of each frame with repetitions still to start. -/
def openNumbers (s : State) (id : Nat) : List Nat :=
  ((s.jobs.prog ++ s.jobs.outcome).filter (fun p => p.job = id)).map (·.number) ++
  ((s.framesOf id).filter (fun f => f.committed && decide (f.started < f.rep))).map (fun f => f.first + f.started)

/-- First unprinted frame of a job. -/
def firstOpen (s : State) (id : Nat) : Option Nat :=
  match openNumbers s id with
  | [] => none
  | a :: r => some (r.foldl min a)

/-- Last committed frame of a job. -/
def lastCommitted (s : State) (id : Nat) : Nat :=
  ((s.framesOf id).filter (·.committed)).foldl (fun m f => max m (f.first + f.rep - 1)) 0

/-- The 24 bytes of one JOB entry. -/
def jobEntry (s : State) (j : Job) (first : Nat) : List Byte :=
  let start := (s.jobs.prog ++ s.jobs.outcome).find? (fun p => p.job = j.id && p.number = first)
  toLE 4 j.id ++ toLE 4 first ++ toLE 4 (lastCommitted s j.id) ++ toLE 4 j.occupancy ++
  (match start with
   | some p => toLE 8 (unsigned 64 p.start)
   | none => List.replicate 8 0xFF)

/-- Jobs with unprinted committed frames, oldest first. -/
def openJobs (s : State) : List (Job × Nat) := s.jobs.jobs.filterMap fun j => (firstOpen s j.id).map fun n => (j, n)

/-- Bytes 0 to 403 of the record: KIND, TRIGGER, and the state at the trigger. A VDD_3V3 that nothing has reported is a free
value (log 114). -/
def cairnBody (kind trigger : Nat) (s : State) : List Byte :=
  let js := (openJobs s).take 8
  let first := s.flt.first
  toLE 4 0x52494143 ++ toLE 2 1 ++ toLE 1 kind ++ toLE 1 trigger ++ toLE 4 s.pers.cairnNext ++
  toLE 8 s.now ++ toLE 1 s.eng.state.code ++ toLE 1 s.eng.stop.code ++
  toLE 1 (if s.eng.state = .boot then s.boot.step else 0) ++
  toLE 1 (b2n s.run.suspended + 2 * b2n (decide (8 < (openJobs s).length)) + 4 * b2n s.store.migActive) ++
  toLE 2 (match first with | some f => f.source | none => 0xFFFF) ++
  toLE 1 (match first with | some f => f.cls | none => 0) ++
  toLE 1 (match first with | some f => f.reaction | none => 0) ++
  toLE 8 (match first with | some f => f.tick | none => 0) ++
  toLE 4 (imageSeq s) ++ toLE 8 (unsigned 64 s.anch.follow) ++ toLE 8 (unsigned 64 (runRemain s)) ++
  toLE 4 s.run.number ++ toLE 4 s.runLeft ++
  (js.flatMap fun x => jobEntry s x.1 x.2) ++ List.replicate (24 * (8 - js.length)) 0 ++
  ((chargeHeaters s).cons.tag.toList.flatMap fun t => toLE 4 t.mirror) ++
  toLE 2 (if s.store.migActive then s.store.migSource else 0) ++
  toLE 2 s.pwr.en.toNat ++ toLE 2 s.pwr.good.toNat ++ toLE 2 s.pwr.vcp ++ toLE 2 (s.pwr.vdd.getD (Config.freeNat s.freeCtr % 65536)) ++
  toLE 2 (unsigned 16 s.therm.tj) ++
  (js.flatMap fun x => toLE 1 x.1.stations.toNat) ++ List.replicate (8 - js.length) 0

/-- Bytes 0 to 407. -/
def cairnRecord (kind trigger : Nat) (s : State) : List Byte :=
  let b := cairnBody kind trigger s
  b ++ toLE 4 (crc32c b)

/-- A record of this tick with the KIND that R29 decides, and TRIGGER with every trigger of the tick (R448). -/
def amendRecord (kind trigger : Nat) (r : List Byte) : List Byte :=
  let b := r.take 6 ++ toLE 1 kind ++ toLE 1 (byteAt r 7 ||| trigger) ++ (r.drop 8).take 396
  b ++ toLE 4 (crc32c b)

/-- Bytes 408 to 423: the tail that step 4 of the shut-down sequence writes. -/
def cairnTail (d : ShutDown) (s : State) : List Byte :=
  let t := toLE 2 d.early.toNat ++ toLE 2 d.noDis.toNat ++
    toLE 1 (1 + 2 * b2n d.returned + 4 * b2n d.cutUp) ++ [0, 0, 0] ++ toLE 4 s.pwr.slaveNoack.toNat
  t ++ toLE 4 (crc32c t)

/-- The slot of record number `n`. -/
def cairnSlotOf (n : Nat) : Nat := n % 64

/-- The newest record of the persistent store. -/
def lastRecord (s : State) : List Byte := (s.pers.cairn.getD (cairnSlotOf (s.pers.cairnNext - 1)) []).take 408

/-- A record goes into the next of the 64 slots. -/
def writeCairn (r : List Byte) (s : State) : State :=
  s.modPers fun p => { p with cairn := listUpd p.cairn (cairnSlotOf p.cairnNext) (fun _ => r ++ List.replicate 104 0),
                              cairnNext := p.cairnNext + 1 }

/-- The newest record is written again with what the same tick adds (R448). -/
def amendCairn (kind trigger : Nat) (s : State) : State :=
  let r := amendRecord kind trigger (lastRecord s)
  writeCairn r (s.modPers fun p => { p with cairnNext := p.cairnNext - 1 })

/-- The tail goes into the slot of the newest record, and bytes 424 to 511 read 0. -/
def writeTail (t : List Byte) (s : State) : State :=
  s.modPers fun p => { p with cairn := listUpd p.cairn (cairnSlotOf (p.cairnNext - 1))
                                (fun r => r.take 408 ++ t ++ List.replicate 88 0) }

/-- Every lifetime counter goes to the persistent store in full (R493). -/
def persistLife (s : State) : State := s.modPers fun p => { p with life := p.lifeRam }

/-- A record is valid when its CRC at bytes 404 to 407 holds (R448). -/
def cairnValid (r : List Byte) : Bool := r.length = 512 && u32 r 404 = crc32c (r.take 404)

def cairnTailValid (r : List Byte) : Bool := r.length = 512 && u32 r 420 = crc32c ((r.drop 408).take 12)

/-- Index of the valid record with the highest SEQ. -/
def newestCairn (c : List (List Byte)) : Option Nat :=
  ((List.range 64).filter fun i => cairnValid (c.getD i [])).foldl
    (fun b i => match b with
      | none => some i
      | some j => if u32 (c.getD j []) 8 < u32 (c.getD i []) 8 then some i else some j) none

end Sys2Proof.Machine
end

