-- ==== Sys2Proof/Machine/Engine.lean ====
section
/-! DEFINITION. Engine state transitions: entering a state, starting and ending a stop, SAFE, a boot failure and the
start of a shut-down sequence (table "State transitions", R12, R24 to R30, R52, R185, R353 to R356, R438). -/

namespace Sys2Proof.Machine

open Sys2Proof.Bits

/-- A transition ends a STATE_SET in progress: OK at its target, STATE anywhere else (R26). -/
def finishSet (toV : EngState) (s : State) : State :=
  match s.eng.setReq with
  | none => s
  | some r =>
    let st := if s.eng.target = some toV then Status.ok else Status.state
    complete r st toV.code (s.modEng fun e => { e with setReq := none, target := none })

/-- A transition has taken effect in this tick. -/
def movedNow (s : State) : Bool := s.eng.stateTick = s.now && s.eng.tickFrom.isSome

/-- The state in which this tick began. -/
def fromState (s : State) : EngState := if movedNow s then s.eng.tickFrom.getD s.eng.state else s.eng.state

/-- A trigger of rank `sev` replaces the transition that a less severe trigger made in this tick (R29). -/
def outranks (s : State) (sev : Nat) : Bool := movedNow s && decide (s.eng.tickSev < sev)

/-- The state in which a trigger of rank `sev` is judged: where a milder trigger of this tick has led to SAFE, the state in which
the tick began (R29). -/
def stateFor (s : State) (sev : Nat) : EngState := if s.eng.state = .safe && outranks s sev then fromState s else s.eng.state

/-- A power failure has been detected in this tick: every other trigger of it is only recorded (R29). -/
def powerFails (s : State) : Bool := s.eng.pfTick = some s.now

/-- A transition takes effect (R24). `sev` ranks its trigger by R29: 9 critical junction temperature that leads to DOWN, 8 SAFE,
STO or the coast timeout, 7 to 4 the reactions of those codes, 0 any other. When it replaces a transition of the same tick,
PREV keeps the state before that tick. -/
def enterState (sev : Nat) (toV : EngState) (cause : Nat) (s : State) : State :=
  let keep := outranks s sev
  let moved := movedNow s
  let s := s.modEng fun e =>
    { e with prev := if keep then e.tickFrom.getD e.state else e.state, state := toV, cause := cause, stateTick := e.time
             tickFrom := if moved then e.tickFrom else some e.state, tickSev := if moved then max sev e.tickSev else sev }
  let s := if toV = .safe || toV = .service then s else returnPins s
  let s := updateInh (finishSet toV s)
  postEvent .state (toV.code + 256 * cause) (setStateChg s)

/-- The stop that ENG_STATE.STOP names has reached standstill. -/
def stopReached (s : State) : State :=
  if s.eng.stopOpen then setStopDone (s.modEng fun e => { e with stopOpen := false }) else s

/-- The web is at standstill after a stop, or past the target: the run ends or is suspended, and cut frames are final
(R12, R88, R188). -/
def runAtRest (s : State) : State :=
  let s := endCut s
  if !s.run.active then s
  else
    let s := s.modRun fun r => { r with active := false, halt := none, vRamp := 0, vRef := 0, delayed := false }
    if s.run.stretch ≤ s.run.started then postEvent .runEnd 0 s
    else postEvent .runEnd 1 (s.modRun fun r => { r with suspended := true })

/-- The stop kind changes: the stop starts from the speeds of this tick (R30). -/
def setStop (k : Stop) (s : State) : State := s.modEng fun e => { e with stop := k, stopOpen := true }

/-- No station exposes a further line: the words of the facets in progress that have not left are off (R187). -/
def darkenAll (source : Nat) (s : State) : State := s.modExpo fun v => v.map (Expo.darken (0x06, source))

/-- What every belay, ramp or coast stop and SAFE do to the print path (R89, R187, R217; log 91). -/
def cutPrint (source : Nat) (s : State) : State := clearDecoders (darkenAll source (spoilStarted source s))

/-- The ramp unit and the law engine at the start of a ramp stop (table "Ramp stop", step 1). -/
def startRampUnit (s : State) : State :=
  let s := s.modLaw fun l => { l with outNew := [], shareNew := [] }
  s.modRamp fun _ => { active := true, start := none, sign := each 16 0, off := each 16 false }

def stopRampUnit (s : State) : State := s.modRamp fun r => { r with active := false }

/-- What SAFE does besides the transition (R143, R187, R356, R360, R375). -/
def safeEffects (source : Nat) (s : State) : State :=
  stopRampUnit (suspendAux (hvOff (allHeatersLow (safeHard source (cutPrint source s)))))

/-- A PMBus command of rail `n`, after PAGE where the rail has one (table "PMBus commands used"). -/
def pmbSend (n code : Nat) (data : Option Nat) (s : State) : State :=
  let a := s.img.pmbAddr n
  if a = 0 then s
  else
    let cmd (k : Nat) (d : Option Nat) : PmbCmd :=
      { addr := a, page := s.img.pmbPage n, code := k, data := d, fast := s.img.pmbFast, pec := s.img.pmbPec }
    let page := match s.img.pmbPage n with
      | some g => [cmd 0x00 (some g)]
      | none => []
    s.modPwr fun p => { p with pmbOut := p.pmbOut ++ page ++ [cmd code data] }

/-- Code of TRIM output `t` for its rail at nominal; unassigned outputs stay. -/
def trimNominal (s : State) (t : Fin 4) : Nat :=
  match s.img.rails.find? (fun n => s.img.railTrim n = some t.val) with
  | some n => s.img.trimNom n
  | none => s.pwr.trimTo[t]

/-- Every margin returns to nominal, with OPERATION for a margined rail that has a PMBus address (R438, R444). -/
def marginsNominal (s : State) : State :=
  let s := (s.img.rails.filter fun n => tab s.pwr.margin 0 n != 0).foldl (fun s n => pmbSend n 0x01 (some 0x80) s) s
  s.modPwr fun p => { p with margin := each 12 0, trimTo := Vector.ofFn (trimNominal s) }

/-- Domains switched off. -/
def domainsOff (ds : List Nat) (s : State) : State :=
  s.modPwr fun p => { p with domain := ds.foldl (fun v d => updAt v d fun _ => 0) p.domain }

/-- A shut-down sequence at its start. -/
def ShutDown.start (c : ShutCause) (cutUp : Bool) : ShutDown :=
  { cause := c, origin := c, slot := 0, begun := false, wait := BitVec.allOnes 12, owed := none, acks := 0, done := false, endTick := 0, returned := false,
    cutUp := cutUp, early := 0, noDis := 0 }

/-- A power-up is under way, or a power failure has cut one (R437). -/
def Power.upNow (p : Power) : Bool := p.up.isSome || p.upCut

/-- A sequence of rails going off begins; one that runs goes on, and what started it stands (R437, R441; log 93). -/
def Power.beginSequence (c : ShutCause) (p : Power) : Power :=
  let fresh := ShutDown.start c p.upNow
  { p with up := none, upCut := false
           down := match p.down with
             | some d => if d.done then some fresh else some { d with cause := c }
             | none => some fresh }

def beginSequence (c : ShutCause) (s : State) : State := s.modPwr (Power.beginSequence c)

/-- Outputs safe in the tick in which a shut-down sequence starts (R438). -/
def outputsSafe (source : Nat) (s : State) : State := marginsNominal (safeEffects source s)

/-- A second trigger of DOWN in the tick that has led to it: its bit in TRIGGER, and its transition (R29, R448). -/
def shutAgain (sev : Nat) (c : ShutCause) (cause trigger : Nat) (s : State) : State :=
  let s := enterState sev .down cause (amendCairn 2 trigger s)
  s.modPwr fun p => { p with down := p.down.map fun d => { d with cause := c, origin := c } }

/-- A trigger of DOWN in the tick of a power failure: its bit in TRIGGER of the record under way (R29, R448). -/
def addTrigger (trigger : Nat) (s : State) : State :=
  s.modPwr fun p => { p with writing := p.writing.map (amendRecord 1 trigger) }

/-- DOWN through the shut-down sequence (rows 17, 24 and 27). `trigger` is the TRIGGER byte of the record. -/
def shutDown (sev : Nat) (c : ShutCause) (cause trigger source : Nat) (s : State) : State :=
  if powerFails s then addTrigger trigger s
  else if s.eng.state = .down then shutAgain sev c cause trigger s
  else
    let r := cairnRecord 2 trigger s
    let s := enterState sev .down cause (outputsSafe source (s.modFreeCtr (· + 1)))
    beginSequence c (domainsOff [2, 7, 5, 3, 4, 8] (persistLife (writeCairn r s)))

/-- SAFE entered from BOOT: what stays powered, and rails that were on go off (R52, R53; log 83). -/
def bootSafe (s : State) : State :=
  let railsOn := s.pwr.en != 0 || s.pwr.up.isSome
  let s := s.modEng fun e => { e with bootFail := true }
  let s := s.modBoot fun b => { b with linkTrained := b.linkTrained || (tab s.clk.pll Pll.reset 6).locked, run := b.run + 1 }
  let s := domainsOff [2, 7, 5, 3, 4, 8] s
  let s := s.modPwr fun p => { p with domain := updAt p.domain 6 fun _ => 2, pciePart := p.pciePart || !railsOn }
  if railsOn then beginSequence .bootFail (marginsNominal s) else s

/-- SAFE (rows 3, 16, 19, 21, 22 and 23) (log 83). -/
def enterSafe (sev cause source : Nat) (s : State) : State :=
  let boot := s.eng.state = .boot
  let s := enterState sev .safe cause (safeEffects source s)
  let s := s.modEng fun e => { e with markEstop := false, markCritical := false }
  let s := if boot then bootSafe s else s
  if s.anch.still then runAtRest (stopReached s) else s

/-- Rows 15 to 17: every rope is at standstill in a belay stop. CAUSE of rows 16 and 17 is the code of the trigger that
marked the stop, that of row 15 "standstill reached" (log 100). -/
def belayExit (s : State) : State :=
  let s := runAtRest (stopReached s)
  if s.eng.markCritical then
    shutDown 0 .critical 0x0E 4 0x021 (s.modEng fun e => { e with markEstop := false, markCritical := false })
  else if s.eng.markEstop then enterSafe 0 0x08 0x007 s
  else enterState 0 .armed 0x06 s

/-- Rows 19 and 21 at standstill of the web. -/
def hardExit (s : State) : State := enterSafe 0 0x06 0x000 s

/-- Row 19 where the ramp ends by R354 before the web reaches standstill: CAUSE 0x10. -/
def rampExit (s : State) : State := enterSafe 0 0x10 0x000 s

/-- Row 14: a belay stop. In ARMED the web is still, and the stop ends in the same tick (R28). -/
def startBelay (cause source : Nat) (estop critical : Bool) (s : State) : State :=
  let armed := s.eng.state = .armed
  let v := auToMs (refSpeed s)
  let s := s.modVBelay fun _ => v
  let s := stopAux (cutPrint source (setStop .belay s))
  let s := s.modEng fun e => { e with markEstop := estop, markCritical := critical }
  let s := enterState 5 .belay cause s
  if armed then belayExit s else if s.anch.still then runAtRest s else s

/-- Row 18: a ramp stop. -/
def startRamp (cause source : Nat) (s : State) : State :=
  let s := suspendAux (startRampUnit (cutPrint source (setStop .ramp s)))
  let s := enterState 6 .belay cause s
  if s.anch.still then hardExit s else s

/-- Row 20: a coast stop. -/
def startCoast (cause source : Nat) (s : State) : State :=
  let s := stopRampUnit (suspendAux (setStop .coast (coastHard source (cutPrint source s))))
  let s := enterState 7 .belay cause s
  if s.anch.still then hardExit s else s

/-- Row 13: standstill in HALTING. -/
def haltExit (s : State) : State := enterState 0 .armed 0x06 (runAtRest (stopReached s))

/-- A member of a run group signals the position of its halt (R406): 2 × T_S ÷ 8.30 µs lines ahead. -/
def groupHaltAt (s : State) : Int := s.line + ((s.img.tS + 414) / 415 : Nat)

/-- A frame whose start falls in the halt tick itself does not start (R185). -/
def unstartNow (s : State) : State :=
  let ps := s.jobs.prog.filter fun p => p.job = s.run.job && p.tick = s.now && !p.cut
  let s := ps.foldl (fun s p => s.modFrame p.entry fun f => { f with started := f.started - 1 }) s
  let s := s.modJobs fun j => { j with prog := j.prog.filter fun p => !(p.job = s.run.job && p.tick = s.now && !p.cut) }
  s.modRun fun r => { r with started := r.started - ps.length }

/-- Row 12: a frame-boundary stop. In a run group the plan applies at H (R406). -/
def startHalt (sev cause : Nat) (s : State) : State :=
  let s := setStop .halt s
  if s.img.group.isSome then
    let h := groupHaltAt s
    let s := s.modRing fun r =>
      { r with group := { r.group with msg := .halt, pos := h, number := (r.group.number + 1) % 256,
                                       halts := h :: r.group.halts } }
    enterState sev .halting cause s
  else
    let s := unstartNow s
    let z := haltStop s
    let s := enterState sev .halting cause (s.modRun fun r => { r with halt := some z })
    if s.anch.still then haltExit s else s

end Sys2Proof.Machine
end

