-- ==== Sys2Proof/Machine/LawDecode.lean ====
section
/-! DEFINITION. The law engine's instruction words (R298, R299, R307): from the 64-bit word of program RAM to the
command that executes it, and the cycles that the table "Instruction set" gives. -/

namespace Sys2Proof.Machine

open Sys2Proof.Bits

/-- Words of the data RAM. -/
def dataWords : Nat := 32768

/-- `n` words from index `i` lie in the data RAM. -/
def inRam (i n : Nat) : Bool := decide (i + n ≤ dataWords)

/-- An unused operand field is an index too (R298). -/
def unusedField (i : Nat) : Bool := decide (i < dataWords)

/-- Table "Ports", direction in; fields of a stage port by R337. -/
def inPort (p : Nat) : Bool :=
  (decide (p < 0x100) && decide (p % 16 ≤ 10)) || inR p 0x100 0x104 || inR p 0x200 0x3FF || inR p 0x400 0x419 || inR p 0x500 0x5FF

/-- Table "Ports", direction out; fields of a stage port by R337. -/
def outPort (p : Nat) : Bool :=
  (inR p 0x1000 0x10FF && decide (p % 16 ≤ 4)) || inR p 0x1200 0x13FF || inR p 0x1400 0x1403 || inR p 0x1500 0x15FF

def lawOp (w : Nat) : Nat := field w 63 56
def lawFlags (w : Nat) : Nat := field w 55 48
def lawDst (w : Nat) : Nat := field w 47 32
def lawA (w : Nat) : Nat := field w 31 16
def lawB (w : Nat) : Nat := field w 15 0

/-- `c` where the condition holds. -/
def keep (ok : Bool) (c : Instr) : Option Instr := if ok then some c else none

/-- Three-operand instruction without flags. -/
def threeOp (w : Nat) (f : Nat → Nat → Nat → Instr) : Option Instr :=
  keep (lawFlags w = 0 && inRam (lawDst w) 1 && inRam (lawA w) 1 && inRam (lawB w) 1) (f (lawDst w) (lawA w) (lawB w))

/-- Block instruction with `n` block words, and one more with BYP. -/
def blockOp (w n : Nat) (f : Bool → Nat → Nat → Nat → Instr) : Option Instr :=
  let byp := lawFlags w = 1
  keep (decide (lawFlags w ≤ 1) && inRam (lawDst w) 1 && inRam (lawA w) 1 && inRam (lawB w) (if byp then n + 1 else n))
    (f byp (lawDst w) (lawA w) (lawB w))

/-- The command that an instruction word stands for; none for an illegal one. -/
def decodeLaw (w : Nat) : Option Instr :=
  let d := lawDst w
  let a := lawA w
  let b := lawB w
  let fl := lawFlags w
  match lawOp w with
  | 0x01 => keep (fl = 0 && inRam d 1 && inRam a 256 && inRam b 1) (.ld LawExec.clean d a b)
  | 0x02 => keep (fl = 0 && inRam d 256 && inRam a 1 && inRam b 1) (.st LawExec.clean d a b)
  | 0x03 =>
    if fl = 1 then keep (inRam d 1 && decide (field w 30 23 < 255)) (.mov LawExec.clean true d a b)
    else keep (fl = 0 && inRam d 1 && inRam a 1 && unusedField b) (.mov LawExec.clean false d a b)
  | 0x04 => threeOp w (.add LawExec.clean)
  | 0x05 => threeOp w (.sub LawExec.clean)
  | 0x06 => threeOp w (.mul LawExec.clean)
  | 0x07 => threeOp w (.mac LawExec.clean)
  | 0x08 => keep (fl = 0 && inRam d 1 && inRam a 1 && unusedField b) (.abs LawExec.clean d a)
  | 0x09 => threeOp w (.min LawExec.clean)
  | 0x0A => threeOp w (.max LawExec.clean)
  | 0x0B => threeOp w (.sel LawExec.clean)
  | 0x0C =>
    if h : fl < 6 then keep (inRam d 1 && inRam a 1 && inRam b 1) (.cmp LawExec.clean ⟨fl, h⟩ d a b) else none
  | 0x0D => keep (decide (fl ≤ 1) && inRam a 1 && unusedField d && decide (1 ≤ b)) (.brf LawExec.clean (fl = 1) a b)
  | 0x20 => blockOp w 2 (.lim LawExec.clean)
  | 0x21 => blockOp w 3 (.slew LawExec.clean)
  | 0x22 => blockOp w 2 (.lpf LawExec.clean)
  | 0x23 => blockOp w 7 (.biq LawExec.clean)
  | 0x24 => blockOp w 5 (.pi LawExec.clean)
  | 0x25 => blockOp w 4 (.intg LawExec.clean)
  | 0x26 => blockOp w 2 (.diff LawExec.clean)
  | 0x30 => keep (decide (fl ≤ 1) && inRam d 2 && inRam a (2 + fl) && unusedField b) (.clarke LawExec.clean (fl = 1) d a)
  | 0x31 => keep (fl = 0 && inRam d 2 && inRam a 2 && inRam b 2) (.park LawExec.clean d a b)
  | 0x32 => keep (fl = 0 && inRam d 2 && inRam a 2 && inRam b 2) (.ipark LawExec.clean d a b)
  | 0x33 => keep (fl = 0 && inRam d 2 && inRam a 1 && unusedField b) (.sincos LawExec.clean d a)
  | 0x34 => keep (fl = 0 && inRam d 3 && inRam a 2 && inRam b 1) (.svm LawExec.clean d a b)
  | 0x40 => keep (fl = 0 && inRam d 2 && inRam a 2 && inRam b 12) (.obs LawExec.clean d a b)
  | 0x41 => keep (fl = 0 && inRam d 1 && inRam a 1 && inRam b 12) (.hold LawExec.clean d a b)
  | 0x42 => keep (fl = 0 && inRam d 1 && inRam a 1 && decide (b < 256)) (.share LawExec.clean d a b)
  | 0x50 => keep (fl = 0 && inRam d 1 && inPort a && unusedField b) (.inp LawExec.clean d a)
  | 0x51 => keep (fl = 0 && inRam a 1 && outPort b && unusedField d) (.out LawExec.clean a b)
  | 0x7F => keep (fl = 0 && unusedField d && unusedField a && unusedField b) (.endp LawExec.clean)
  | _ => none

/-- An instruction word of its fields (R298). -/
def lawWord (op fl d a b : Nat) : Nat := op * 2 ^ 56 + fl * 2 ^ 48 + d * 2 ^ 32 + a * 2 ^ 16 + b

/-- FLAGS of a one-bit flag. -/
def lawFlag (b : Bool) : Nat := if b then 1 else 0

/-- The instruction word of a law-engine command, with 0 in the fields that it does not use (table "Instruction set"); none
for the other commands. -/
def encodeLaw (i : Instr) : Option Nat :=
  match i with
  | .ld _ d a b => some (lawWord 0x01 0 d a b)
  | .st _ d a b => some (lawWord 0x02 0 d a b)
  | .mov _ imm d a b => some (lawWord 0x03 (lawFlag imm) d a b)
  | .add _ d a b => some (lawWord 0x04 0 d a b)
  | .sub _ d a b => some (lawWord 0x05 0 d a b)
  | .mul _ d a b => some (lawWord 0x06 0 d a b)
  | .mac _ d a b => some (lawWord 0x07 0 d a b)
  | .abs _ d a => some (lawWord 0x08 0 d a 0)
  | .min _ d a b => some (lawWord 0x09 0 d a b)
  | .max _ d a b => some (lawWord 0x0A 0 d a b)
  | .sel _ d a b => some (lawWord 0x0B 0 d a b)
  | .cmp _ c d a b => some (lawWord 0x0C c.val d a b)
  | .brf _ inv a n => some (lawWord 0x0D (lawFlag inv) 0 a n)
  | .lim _ y d a b => some (lawWord 0x20 (lawFlag y) d a b)
  | .slew _ y d a b => some (lawWord 0x21 (lawFlag y) d a b)
  | .lpf _ y d a b => some (lawWord 0x22 (lawFlag y) d a b)
  | .biq _ y d a b => some (lawWord 0x23 (lawFlag y) d a b)
  | .pi _ y d a b => some (lawWord 0x24 (lawFlag y) d a b)
  | .intg _ y d a b => some (lawWord 0x25 (lawFlag y) d a b)
  | .diff _ y d a b => some (lawWord 0x26 (lawFlag y) d a b)
  | .clarke _ t d a => some (lawWord 0x30 (lawFlag t) d a 0)
  | .park _ d a b => some (lawWord 0x31 0 d a b)
  | .ipark _ d a b => some (lawWord 0x32 0 d a b)
  | .sincos _ d a => some (lawWord 0x33 0 d a 0)
  | .svm _ d a b => some (lawWord 0x34 0 d a b)
  | .obs _ d a b => some (lawWord 0x40 0 d a b)
  | .hold _ d a b => some (lawWord 0x41 0 d a b)
  | .share _ d a c => some (lawWord 0x42 0 d a c)
  | .inp _ d p => some (lawWord 0x50 0 d p 0)
  | .out _ a p => some (lawWord 0x51 0 0 a p)
  | .endp _ => some (lawWord 0x7F 0 0 0 0)
  | _ => none

/-- Cycles of an instruction (R295). -/
def lawCycles (w : Nat) : Nat :=
  match lawOp w with
  | 0x01 | 0x02 | 0x20 | 0x42 | 0x50 | 0x51 => 2
  | 0x21 | 0x22 | 0x26 | 0x30 => 3
  | 0x23 => if lawFlags w = 1 then 16 else 7
  | 0x24 => 6
  | 0x25 | 0x31 | 0x32 | 0x41 => 4
  | 0x33 => 8
  | 0x34 => 10
  | 0x40 => 12
  | _ => 1

/-- Words that an instruction writes in data RAM: its destination words and the state words of its block (R299,
R319; log 89). -/
def lawWrites (w : Nat) : List Nat :=
  let d := lawDst w
  let b := if lawFlags w = 1 then lawB w + 1 else lawB w
  match lawOp w with
  | 0x02 => (List.range 256).map (d + ·)
  | 0x0D | 0x51 | 0x7F => []
  | 0x21 => [d, b + 2]
  | 0x22 => [d, b + 1]
  | 0x23 => [d, b + 5, b + 6]
  | 0x24 => [d, b + 4]
  | 0x25 => [d, b + 3]
  | 0x26 => [d, b + 1]
  | 0x30 | 0x31 | 0x32 | 0x33 => [d, d + 1]
  | 0x34 => [d, d + 1, d + 2]
  | 0x40 => [d, d + 1, lawB w + 7, lawB w + 8, lawB w + 9, lawB w + 11]
  | 0x41 => [d, lawB w + 10]
  | _ => [d]

end Sys2Proof.Machine
end

