-- ==== Sys2Proof/Machine/Sections.lean ====
section
/-! DEFINITION. The content checks that units make on the sections of an image in boot step 7 (R38, R525, R526 and
the section rule of each owning chapter). -/

namespace Sys2Proof.Machine

open Sys2Proof.Bits

/-- Every item of a list from 0 to n − 1 passes. -/
def allN (n : Nat) (f : Nat → Bool) : Bool := (List.range n).all f

/-- DEVICE. -/
def deviceOk (p : List Byte) : Bool :=
  p.length = 32 && zeros p 6 2 && zeros p 12 4 && decide (1 ≤ u16 p 8) && decide (1 ≤ u16 p 10)

/-- CLOCKS (R215). T_MIN is 60 ÷ (45,000 × F) s; phase and window in units of 8 ps. -/
def clocksOk (p : List Byte) : Bool :=
  p.length = 64 && inR (byteAt p 0) 0 1 && inR (byteAt p 1) 6 12 && inR (byteAt p 2) 8 64 && inR (byteAt p 3) 2 8 &&
  inR (byteAt p 4) 1 16 && inR (byteAt p 5) 1 64 && inR (byteAt p 6) 0 1 && zeros p 7 1 && inR (u16 p 8) 100 20000 &&
  inR (u16 p 10) 12 6250 && zeros p 12 4 && allN 8 (fun i => inR (u16 p (16 + 2 * i)) 64 4096) &&
  allN 8 (fun n => decide (1 ≤ u32 p (32 + 4 * n)) &&
    decide ((u32 p (32 + 4 * n) + 125 * u16 p 8) * 8 * 45000 * byteAt p 1 < 60000000000000))

/-- A rail entry of POWER_SEQ. -/
def railOk (p : List Byte) (n : Nat) : Bool :=
  let o := 32 + 32 * n
  byteAt p o = 0 || (byteAt p o = 1 && decide (byteAt p (o + 1) < byteAt p 0) && decide (byteAt p (o + 2) < byteAt p 0) &&
    inR (byteAt p (o + 3)) 0 2 && inR (u16 p (o + 4)) 1 500 && inR (u16 p (o + 6)) 1 2000 &&
    (byteAt p (o + 3) != 2 || (inR (u16 p (o + 8)) 100 1150 && inR (u16 p (o + 10)) 20 (u16 p (o + 8) - 50))) &&
    inR (byteAt p (o + 12)) 0 127 && (inR (byteAt p (o + 13)) 0 31 || byteAt p (o + 13) = 255) &&
    (inR (byteAt p (o + 14)) 0 3 || byteAt p (o + 14) = 255) && zeros p (o + 15) 1 && inR (u16 p (o + 20)) 0 1023 &&
    inR (u16 p (o + 22)) 0 1023 && inR (u16 p (o + 24)) 0 1023 && zeros p (o + 26) 6)

/-- Largest PG_TMO of the used rails that satisfy `f`. -/
def pgMax (p : List Byte) (f : Nat → Bool) : Nat :=
  ((List.range 12).filter (fun n => byteAt p (32 + 32 * n) = 1 && f n)).foldl (fun m n => max m (u16 p (36 + 32 * n))) 0

/-- POWER_SEQ (R435). -/
def powerSeqOk (p : List Byte) : Bool :=
  p.length = 416 && inR (byteAt p 0) 1 16 && inR (byteAt p 1) 90 98 && inR (u16 p 2) 0 1000 && inR (u16 p 4) 100 1000 &&
  inR (u16 p 6) 10 1000 && inR (byteAt p 8) 0 3 && zeros p 9 23 && allN 12 (railOk p) &&
  decide (pgMax p (fun _ => true) + 10 ≤ u16 p 6) &&
  decide (((List.range (byteAt p 0)).foldl (fun t k =>
    if (List.range 12).any (fun n => byteAt p (32 + 32 * n) = 1 && byteAt p (33 + 32 * n) = k)
    then t + 10 * pgMax p (fun n => byteAt p (33 + 32 * n) = k) + u16 p 2 else t) 0) ≤ 5000)

/-- In-port and out-port words of generic nodes by R392. -/
def genericIn (q : Nat) : Bool := inR q 0x260 0x2FF || inR q 0x318 0x3FF
def genericOut (q : Nat) : Bool := inR q 0x1260 0x13FF

/-- No number twice. -/
def nodup : List Nat → Bool
  | [] => true
  | a :: r => !r.contains a && nodup r

/-- RING (R411, R392), as a one-section image. `idx` is the ring index. -/
def ringOk (p : List Byte) (idx : Nat) : Bool :=
  let l : Img := [{ ty := 4, bytes := p }]
  let gen := (List.range 128).filter (fun i => l.nodeUse i != 0 && l.nodeKind i = 0)
  let ins := (gen.map (fun i => (List.range (l.nodeIn i)).map (l.nodeInPort i + ·))).flatten
  let outs := (gen.map (fun i => (List.range (l.nodeOut i)).map (l.nodeOutPort i + ·))).flatten
  p.length = 2480 && inR (byteAt p 0) 1 32 && (inR (byteAt p 1) 0 31 || byteAt p 1 = 255) && inR (byteAt p 2) 0 2 &&
  inR (byteAt p 3) 0 2 && inR (u16 p 4) 10 10000 && inR (byteAt p 6) 1 64 && zeros p 7 57 &&
  allN 32 (fun i => inR (byteAt p (64 + 4 * i)) 0 2 && zeros p (66 + 4 * i) 2) &&
  allN 256 (fun c => inR (byteAt p (192 + c)) 0 31 || byteAt p (192 + c) = 255) &&
  allN 127 (fun k => let i := k + 1
    inR (l.nodeUse i) 0 3 && inR (l.nodeKind i) 0 3 && (l.nodeUse i != 3 || inR (l.nodeType i) 0 0xFFF) &&
    (l.nodeKind i != 0 || (inR (l.nodeIn i) 0 32 && inR (l.nodeOut i) 0 32)) &&
    inR (byteAt p (Img.nodeAt i + 10)) 0 1 && zeros p (Img.nodeAt i + 11) 5) &&
  ins.all genericIn && outs.all genericOut && nodup ins && nodup outs &&
  l.fwdWords idx = ((List.range 128).filter (fun i => l.nodeUse i != 0 && l.nodeFwd i)).foldl (fun t i => t + l.nodeInWords i) 0

/-- A used link of STAGES holds a chopper of bus `b`. -/
def busChopper (p : List Byte) (b : Nat) : Bool :=
  !allN 8 fun i => let o := 112 + 48 * i
    byteAt p o = 0 || byteAt p (o + 1) != b || (byteAt p (o + 2) != 2 && byteAt p (o + 4) != 2)

/-- A bus entry of STAGES; CHOP_P is 0 when the bus has no chopper. -/
def busOk (p : List Byte) (b : Nat) : Bool :=
  let o := 16 + 24 * b
  (busChopper p b || decide (Fp.exact (f32 p (o + 12)) = 0)) &&
  decide (u16 p (o + 6) < u16 p (o + 8)) && decide (u16 p (o + 8) + u16 p (o + 2) ≤ u16 p o) &&
  decide (0 < u16 p (o + 2)) && decide (u16 p o < u16 p (o + 4)) && Fp.nonneg (f32 p (o + 12)) &&
  Fp.nonneg (f32 p (o + 16)) && zeros p (o + 20) 4

/-- A slot of a used link entry. -/
def stageSlotOk (p : List Byte) (i k : Nat) : Bool :=
  let o := 112 + 48 * i
  inR (byteAt p (o + 2 + 2 * k)) 0 2 && inR (byteAt p (o + 3 + 2 * k)) 0 15 && decide (1 ≤ u32 p (o + 8 + 4 * k)) &&
  Fp.pos (f32 p (o + 16 + 4 * k)) && Fp.nonneg (f32 p (o + 24 + 4 * k)) && Fp.within (f32 p (o + 32 + 4 * k)) 1 6000 10

/-- STAGES (R361). -/
def stagesOk (p : List Byte) : Bool :=
  p.length = 496 && inR (u16 p 0) 1000 10000 && inR (u16 p 2) 10 20000 && inR (u16 p 4) 1 1000 && inR (u16 p 6) 1 3600 &&
  inR (byteAt p 8) 1 64 && zeros p 9 7 && allN 4 (busOk p) &&
  allN 8 (fun i => let o := 112 + 48 * i
    byteAt p o = 0 || (inR (byteAt p o) 1 2 && inR (byteAt p (o + 1)) 0 3 && zeros p (o + 6) 2 && zeros p (o + 40) 8 &&
      stageSlotOk p i 0 && stageSlotOk p i 1))

/-- Exact sum of binary32 values times 2¹⁴⁹. -/
def sumF (xs : List F32) : Int := xs.foldl (fun t x => t + Fp.exact x) 0

/-- The root of a rope's tree is reached within 32 parents: no rope contains itself (R19). -/
def climbs (l : Img) : Nat → Nat → Bool
  | 0, _ => false
  | k + 1, r => match l.ropeParent r with | none => true | some q => decide (l.ropeUse q != 0) && climbs l k q

/-- Local members of a rope: axes and ropes. -/
def axesOf (l : Img) (r : Nat) : List Nat := (List.range 16).filter (fun a => l.axisEn a && l.axParent a == some r)
def ropesOf (l : Img) (r : Nat) : List Nat := l.ropes.filter (fun q => l.ropeParent q == some r)

/-- AXES_ROPES (R362, R19, R340) in an image that holds DEVICE. -/
def axesRopesOk (p : List Byte) (l : Img) : Bool :=
  p.length = 3088 && allN 4 (fun i => inR (byteAt p i) 0 127) && zeros p 4 12 &&
  allN 16 (fun a => let o := 16 + 64 * a
    (inR (byteAt p o) 0 31 || byteAt p o = 255) && zeros p (o + 1) 3 && Fp.within (f32 p (o + 4)) 0 1 1 &&
    Fp.pos (f32 p (o + 8)) && Fp.within (f32 p (o + 12)) 0 5 10 && Fp.pos (f32 p (o + 16)) && Fp.nonneg (f32 p (o + 20)) &&
    Fp.nonneg (f32 p (o + 24)) && Fp.within (f32 p (o + 28)) 1 10 1 && Fp.pos (f32 p (o + 32)) && zeros p (o + 36) 28 &&
    (!l.axisEn a || match l.axParent a with | none => true | some r => decide (l.ropeUse r != 0))) &&
  allN 32 (fun r => let o := 1040 + 64 * r
    byteAt p o = 0 || (inR (byteAt p o) 1 3 && (inR (byteAt p (o + 1)) 0 31 || byteAt p (o + 1) = 255) &&
      inR (byteAt p (o + 2)) 0 1 && inR (byteAt p (o + 3)) 0 31 && inR (byteAt p (o + 4)) 0 15 && zeros p (o + 5) 1 &&
      inR (u16 p (o + 6)) 0 32767 && (inR (u16 p (o + 8)) 0 255 || (u16 p (o + 8) = 0xFFFF && byteAt p o = 1)) &&
      (inR (u16 p (o + 10)) 0 255 || (u16 p (o + 10) = 0xFFFF && byteAt p o = 1)) && (u16 p (o + 12) = 0xFFFF || inPort (u16 p (o + 12))) &&
      zeros p (o + 14) 2 && Fp.finite (f32 p (o + 16)) && Fp.finite (f32 p (o + 20)) && Fp.finite (f32 p (o + 24)) &&
      Fp.finite (f32 p (o + 28)) && decide (Fp.exact (f32 p (o + 24)) < Fp.exact (f32 p (o + 28))) &&
      inR (u16 p (o + 32)) 1 60000 && zeros p (o + 34) 30 && climbs l 33 r &&
      decide ((axesOf l r).length + (ropesOf l r).length ≤ 16) &&
      decide ((sumF ((axesOf l r).map l.axShare ++ (ropesOf l r).map l.ropeShare) + Fp.exact (l.ropeRemote r)
        - 2 ^ 149).natAbs * 1000000 ≤ 2 ^ 149)))

/-- The checks that STAGES, AXES_ROPES and DEVICE share (R330, R361): every enabled axis in exactly one slot, the power
sums of each bus, RAMP_I at most I_MAX. -/
def stageAxesOk (l : Img) : Bool :=
  let slotsOf (a : Nat) := Img.allSlots.filter (fun x => l.slotKind x.1 x.2 = 1 && l.slotAxis x.1 x.2 = a)
  let onBus (b : Nat) := (List.range 16).filter (fun a => l.axisEn a && (slotsOf a).any (fun x => l.linkBus x.1 = b))
  allN 16 (fun a => decide ((slotsOf a).length ≤ 1) && (!l.axisEn a || (slotsOf a).length = 1)) &&
  (!l.has 6 || (allN 4 (fun b =>
      decide (sumF ((onBus b).map l.axPRegen) ≤ sumF [l.fl 5 (28 + 24 * b), l.fl 5 (32 + 24 * b)]) &&
      decide (sumF ((onBus b).map l.axPNochop) ≤ sumF [l.fl 5 (32 + 24 * b)])) &&
    Img.allSlots.all (fun x => l.slotKind x.1 x.2 != 1 ||
      decide (Fp.exact (l.slotRampI x.1 x.2) ≤ Fp.exact (l.axIMax (l.slotAxis x.1 x.2))))))

/-- The instructions of a program: from its ENTRY to the first END, with their indices; none without an END. -/
def programOf : List Nat → Nat → Option (List (Nat × Nat))
  | [], _ => none
  | w :: r, i => if lawOp w = 0x7F then some [(i, w)] else (programOf r (i + 1)).map ((i, w) :: ·)

/-- R301 and R320 over one program. -/
def programOk (pr : List (Nat × Nat)) : Bool :=
  let last := (pr.getLast?.map (·.1)).getD 0
  pr.all fun (i, w) =>
    (lawOp w != 0x0D || decide (i + 1 + lawB w ≤ last)) &&
    (lawOp w != 0x41 ||
      match (pr.filter (fun (j, v) => decide (j < i) && lawOp v = 0x40 && lawB v = lawB w)).getLast? with
      | none => false
      | some (j, v) => lawA w = lawA v + 1 &&
        !pr.any (fun (k, u) => lawOp u = 0x0D && decide (j < k) && decide (k < i) && decide (i ≤ k + lawB u)))

/-- Cost of a program in SYS cycles (R309). -/
def programCost (pr : List (Nat × Nat)) : Nat := pr.foldl (fun t x => t + lawCycles x.2) 0

/-- The instruction words of LAW_PROGRAMS. -/
def instrWords (p : List Byte) : Nat → Nat → List Nat
  | 0, _ => []
  | n + 1, i => le p i 8 :: instrWords p n (i + 8)

/-- Every enabled axis has an enabled program that reads its field 9 (R349). -/
def regenReadOk (l : Img) (code : List Nat) : Bool :=
  allN 16 fun a => !l.axisEn a || l.progs.any fun p =>
    ((programOf (code.drop (l.prEntry p)) (l.prEntry p)).getD []).any fun x => lawOp x.2 = 0x50 && lawA x.2 = 16 * a + 9

/-- The checks on program RAM under the loaded descriptors (R328, R327; log 89). -/
def lawCodeOk (l : Img) (code : List Nat) : Bool :=
  code.all (fun w => (decodeLaw w).isSome) &&
  l.progs.all (fun p => match programOf (code.drop (l.prEntry p)) (l.prEntry p) with
    | none => false
    | some pr => programOk pr) &&
  regenReadOk l code &&
  (let dsts := l.lawLinks.map l.lkDst
   nodup dsts && code.all (fun w => (lawWrites w).all (fun d => !dsts.contains d)))

/-- LAW_PROGRAMS (R328). -/
def lawProgramsOk (p : List Byte) (l : Img) : Bool :=
  let n := u32 p 4
  inR (u16 p 0) 20 100 && zeros p 2 2 && inR n 1 65536 && zeros p 8 8 && p.length = 656 + 8 * n &&
  allN 16 (fun k => let o := 16 + 8 * k
    decide (u16 p o < n) && decide (byteAt p (o + 3) ≤ byteAt p (o + 2)) && inR (byteAt p (o + 4)) 0 1 && zeros p (o + 5) 3) &&
  allN 64 (fun k => let o := 144 + 8 * k
    inR (u16 p o) 0 32767 && inR (u16 p (o + 2)) 0 32767 && inR (byteAt p (o + 4)) 0 15 && inR (byteAt p (o + 5)) 0 2 &&
    zeros p (o + 6) 2 && (byteAt p (o + 5) = 0 || byteAt p (16 + 8 * byteAt p (o + 4) + 4) = 1)) &&
  lawCodeOk l (instrWords p n 656)

/-- A binary32 word is an integer from `lo` to `hi`. -/
def intWord (x : F32) (lo hi : Int) : Bool :=
  decide (Fp.exact x % 2 ^ 149 = 0) && decide (lo * 2 ^ 149 ≤ Fp.exact x) && decide (Fp.exact x ≤ hi * 2 ^ 149)

/-- Records of LAW_DATA: start and words; none when the payload does not end at a record's end. Each record takes at
least four bytes, so `fuel` counts them. -/
def dataRecords : Nat → List Byte → Option (List (Nat × List F32))
  | _, [] => some []
  | 0, _ => none
  | k + 1, p =>
    let n := u16 p 2
    if p.length < 4 + 4 * n then none
    else (dataRecords k (p.drop (4 + 4 * n))).map
      ((u16 p 0, (List.range n).map (fun i => f32 p (4 + 4 * i))) :: ·)

/-- LAW_DATA (R329). -/
def lawDataOk (p : List Byte) : Bool :=
  match dataRecords p.length p with
  | none => false
  | some rs =>
    rs.all (fun (s, ws) => decide (1 ≤ ws.length) && decide (s + ws.length ≤ dataWords) && ws.all Fp.finite) &&
    rs.all (fun (s, ws) => decide ((rs.filter (fun (t, vs) => decide (t < s + ws.length) && decide (s < t + vs.length))).length ≤ 1))

/-- The word that LAW_DATA gives index `i`. -/
def dataWordOf (l : Img) (i : Nat) : F32 :=
  match dataRecords (l.sec 8).length (l.sec 8) with
  | none => 0
  | some rs => match rs.find? (fun (s, ws) => decide (s ≤ i) && decide (i < s + ws.length)) with
    | none => 0
    | some (s, ws) => ws.getD (i - s) 0

/-- The instructions of the loaded LAW_PROGRAMS. -/
def Img.lawCode (l : Img) : List Nat := instrWords (l.sec 7) l.lawN 656

/-- Words q, hs and nlim of every OBS block are integers in range (R328); the table gives nlim no upper limit. -/
def obsWordsOk (l : Img) (code : List Nat) : Bool :=
  code.all fun w =>
    lawOp w != 0x40 || (intWord (dataWordOf l (lawB w + 4)) 1 (2 ^ 127) && intWord (dataWordOf l (lawB w + 5)) 0 31 &&
      intWord (dataWordOf l (lawB w + 6)) 1 64)

/-- Programs due in sample k (R308). -/
def dueIn (l : Img) (k : Nat) : List Nat := l.progs.filter (fun p => k % l.prDiv p = l.prPh p)

/-- L of R310. -/
def schedule (l : Img) : Nat := l.progs.foldl (fun t p => Nat.lcm t (l.prDiv p)) 1

/-- Largest cost of a sample (R310). -/
def worstCost (l : Img) (code : List Nat) : Nat :=
  let cost (p : Nat) := match programOf (code.drop (l.prEntry p)) (l.prEntry p) with | none => 0 | some pr => programCost pr
  let costs := l.progs.map (fun p => (p, cost p))
  (List.range (schedule l)).foldl (fun m k =>
    max m ((costs.filter (fun x => k % l.prDiv x.1 = l.prPh x.1)).foldl (fun t x => t + x.2) 0)) 0

/-- R310: the schedule is at most 65,536 samples long and no sample exceeds B_S. -/
def budgetOk (l : Img) (code : List Nat) : Bool := decide (schedule l ≤ 65536) && decide (worstCost l code ≤ l.budget)

/-- Product of binary32 values, exact, times 2¹⁴⁹ each. -/
def fprod (xs : List F32) : Int := xs.foldl (fun t x => t * Fp.exact x) 1

/-- A channel entry of SPINDLES that is checked (R293, R256, R267, R270). R270 compares KE × ω_LOW ÷ RS with I_MAX, where
ω_LOW = W_LOW × 2π ÷ 60 and W_LOW = RAMP_END ÷ 2; π is taken as 3.14159265358979. -/
def channelOk (p : List Byte) (n : Nat) : Bool :=
  let o := 16 + 128 * n
  let f (i : Nat) := f32 p (o + i)
  let b (i : Nat) := byteAt p (o + i)
  let le (x y : F32) := decide (Fp.exact x ≤ Fp.exact y)
  let lt (x y : F32) := decide (Fp.exact x < Fp.exact y)
  inR (b 0) 0 1 && inR (b 1) 0 4 && inR (b 2) 1 8 && inR (b 3) 0 30 && inR (u16 p (o + 4)) 200 800 && inR (b 6) 0 31 &&
  inR (b 8) 0 7 && inR (b 9) 1 32 && inR (b 10) 1 255 && inR (b 11) 2 32 && inR (b 12) 6 96 && inR (b 13) 1 7 &&
  inR (b 14) 1 16 && inR (b 15) 0 1 &&
  [16, 20, 24, 28, 32, 36, 48, 52, 56, 60].all (fun i => Fp.pos (f i)) &&
  decide (fprod [f 36, f 32] ≤ Fp.exact (Fp.ofRat 32 100) * 2 ^ 149) &&
  [40, 44, 96].all (fun i => Fp.nonneg (f i) && le (f i) (f 36)) &&
  Fp.finite (f 64) && lt (f 52) (f 64) && Fp.leDec (f 64) 45000 1 && Fp.finite (f 68) && lt (f 52) (f 68) &&
  Fp.within (f 72) 5 50 100 && Fp.within (f 76) 11 100 10 && Fp.nonneg (f 80) && Fp.nonneg (f 84) &&
  Fp.within (f 88) 0 1 10 && Fp.within (f 92) 80 98 100 && Fp.finite (f 100) && inR (u16 p (o + 104)) 10 2000 &&
  inR (u16 p (o + 106)) 10 5000 && inR (u16 p (o + 108)) 1 3600 && inR (b 110) 0 25 && zeros p (o + 111) 1 &&
  inR (u16 p (o + 112)) 10 10000 && zeros p (o + 114) 14 &&
  decide (2 * b 110 + b 3 ≤ 50) &&
  decide (fprod [f 20, f 52] * 314159265358979 ≤ fprod [f 24, f 36] * 60 * 100000000000000) &&
  !(b 0 = 1 && b 1 = 0)

/-- SPINDLES (R293). -/
def spindlesOk (p : List Byte) (l : Img) : Bool :=
  p.length = 1040 && inR (u16 p 0) 200 540 && inR (u16 p 2) 5 50 && inR (byteAt p 4) 0 1 && zeros p 5 11 &&
  allN 8 (fun n => !l.spindleEn n || channelOk p n) &&
  allN 8 (fun n => !l.stationEn n || (l.spindleEn n && byteAt p (16 + 128 * n) = 0))

/-- STATIONS_LASTS (R189). -/
def stationsOk (p : List Byte) : Bool :=
  let n := byteAt p 0
  let rl : Int := (byteAt p 36 : Nat)
  inR n 1 16 && p.length = 64 + 80 * n && inR (byteAt p 1) 0 2 &&
  (if byteAt p 1 = 2 then inR (byteAt p 2) 1 127 else byteAt p 2 = 0) && inR (byteAt p 3) 0 15 &&
  decide (1 ≤ u32 p 4) && decide (1 ≤ u32 p 8) && decide (1 ≤ u32 p 16) && inR (u16 p 20) 50 1500 &&
  inR (u16 p 22) 30 (u16 p 20) && inR (u16 p 24) 0 32768 && inR (u16 p 26) 10 10000 && inR (u16 p 28) 10 1310 &&
  zeros p 31 1 && inR (u16 p 32) 1 500 && inR (u16 p 34) 1 1000 && inR (byteAt p 36) 0 24 && inR (byteAt p 37) 0 16 &&
  inR (u16 p 38) 0 4096 && inR (u16 p 40) 0 1024 && zeros p 46 2 && allN 8 (fun i => inR (byteAt p (48 + i)) 0 127) &&
  zeros p 56 8 &&
  allN n (fun i => let o := 64 + 80 * i
    inR (le p o 3) 256 16777215 && zeros p (o + 3) 1 && inR (u16 p (o + 4)) 1024 16384 && u16 p (o + 4) % 64 = 0 &&
    decide (u16 p (o + 6) + u16 p (o + 4) ≤ 16384) && zeros p (o + 72) 8 &&
    allN 8 (fun k => decide (s8 p (o + 64 + k) + rl ≤ 24) && decide (-24 ≤ s8 p (o + 64 + k) - rl)))

/-- TONE (R254, R222). -/
def toneOk (p : List Byte) : Bool :=
  p.length = 256 && allN 8 (fun n => u16 p (32 * n) = 0 && allN 16 (fun t => decide (u16 p (32 * n + 2 * t) < 0x8000)))

/-- An entry of CORRECTION (R255). `f` is the number of facets, `win` SOS_WIN in ns; T_MIN = 60 ÷ (45,000 × f) s. -/
def correctionEntryOk (p : List Byte) (f win n : Nat) : Bool :=
  let o := 704 * n
  let act := u16 p o
  let lead := u16 p (o + 2)
  let d := 45000 * f * 65536
  inR act 40633 47186 && inR lead 1 16384 && inR (u32 p (o + 4)) 0 1250000 && decide (s16 p (o + 8) < s16 p (o + 10)) &&
  inR (u16 p (o + 12)) 16 800 && inR (byteAt p (o + 14)) 1 3 && inR (byteAt p (o + 15)) 1 50 &&
  inR (u16 p (o + 16)) 100 10000 && inR (u16 p (o + 18)) (u16 p (o + 16) + 100) 20000 && inR (u16 p (o + 20)) 0 256 &&
  inR (u16 p (o + 22)) 0 256 && zeros p (o + 24) 8 &&
  allN 36 (fun e => decide (-3 ≤ s8 p (o + 104 + 2 * e)) && decide (s8 p (o + 104 + 2 * e) ≤ 3) &&
    decide (-16 ≤ s8 p (o + 105 + 2 * e)) && decide (s8 p (o + 105 + 2 * e) ≤ 15)) &&
  [376, 408].all (fun q => byteAt p (o + q) = 0 && byteAt p (o + q + 1) = 0 &&
    allN 16 (fun t => inR (byteAt p (o + q + 2 * t)) 0 7 && inR (byteAt p (o + q + 2 * t + 1)) 0 63)) &&
  zeros p (o + 696) 8 &&
  decide ((win + 3000) * d ≤ lead * 60 * 1000000000) &&
  decide (25000 * d ≤ (65536 - lead - act) * 60 * 1000000000)

/-- CORRECTION (R255). -/
def correctionOk (p : List Byte) (l : Img) : Bool :=
  p.length = 5632 && allN 8 (correctionEntryOk p l.facets (l.b2 2 8))

/-- THERMAL (R381): no entry is exempt from its ranges; the sensor of a heater is asked of a used one. -/
def thermalOk (p : List Byte) : Bool :=
  p.length = 304 && allN 4 (fun i => decide (800 ≤ s16 p (2 * i)) && decide (s16 p (2 * i) ≤ 1200)) &&
  decide (s16 p 0 ≤ s16 p 2) && decide (s16 p 2 ≤ s16 p 4) && decide (s16 p 4 < s16 p 6) && inR (u16 p 8) 10 100 &&
  inR (byteAt p 10) 0 1 && zeros p 11 5 &&
  allN 16 (fun n => let o := 16 + 12 * n
    Fp.nonneg (f32 p o) && Fp.within (f32 p (o + 4)) 1000 10000 1 && Fp.pos (f32 p (o + 8))) &&
  allN 4 (fun d => let o := 208 + 8 * d
    inR (byteAt p (o + 6)) 0 1 && zeros p (o + 7) 1 && Fp.within (f32 p o) 1000 1100 1000) &&
  allN 4 (fun h => let o := 240 + 16 * h
    inR (byteAt p o) 0 1 && inR (byteAt p (o + 1)) 0 19 && inR (byteAt p (o + 2)) 0 1 &&
    zeros p (o + 3) 1 && decide (0 ≤ s16 p (o + 4)) && decide (s16 p (o + 4) ≤ 3000) && inR (u16 p (o + 6)) 1 1000 &&
    inR (u16 p (o + 8)) 50 2000 && zeros p (o + 10) 6 &&
    (byteAt p o = 0 ||
      (if byteAt p (o + 1) < 16 then Fp.exact (f32 p (16 + 12 * byteAt p (o + 1))) != 0
       else byteAt p (208 + 8 * (byteAt p (o + 1) - 16) + 6) = 1)))

/-- HV_NODES (R382). -/
def hvNodesOk (p : List Byte) : Bool :=
  p.length = 1360 && inR (byteAt p 0) 1 64 && zeros p 1 15 &&
  allN 24 (fun c => let o := 16 + 56 * c
    inR (byteAt p o) 0 127 && inR (byteAt p (o + 1)) 0 3 && zeros p (o + 2) 2 && zeros p (o + 52) 4 &&
    allN 8 (fun i => inR (u16 p (o + 4 + 2 * i)) 0 1530 && Fp.finite (f32 p (o + 20 + 4 * i))) &&
    (byteAt p o = 0 || allN 7 (fun i => decide (u16 p (o + 4 + 2 * i) < u16 p (o + 6 + 2 * i)))))

/-- Sources of the fault source map (R412): every other identity is reserved. -/
def sourceListed (src : Nat) : Bool :=
  inR src 0 0x015 || inR src 0x020 0x02A || inR src 0x030 0x03A || inR src 0x040 0x06B ||
  (inR src 0x070 0x0EF && decide (src % 16 < 8)) || inR src 0x0F0 0x0F8 || inR src 0x100 0x104 || inR src 0x110 0x174 ||
  inR src 0x180 0x1BF || inR src 0x1C0 0x1C6 || inR src 0x1C8 0x1CA || inR src 0x1E0 0x1E8 || inR src 0x1F0 0x1FB

/-- Sources whose reaction is fixed. -/
def sourceFixed (src : Nat) : Bool :=
  src = 0x000 || src = 0x001 || src = 0x007 || src = 0x010 || src = 0x021 || inR src 0x032 0x036 || src = 0x039 ||
  (inR src 0x040 0x067 && decide ((src - 0x040) % 5 < 2)) || inR src 0x0F0 0x0F8 || inR src 0x100 0x102 || src = 0x172 ||
  src = 0x1E7 || (inR src 0x180 0x1BF && decide (src % 8 = 0)) || src = 0x1F4

/-- Channel and station sources (R420). -/
def sourceLocal (src : Nat) : Bool := inR src 0x040 0x067 || inR src 0x180 0x1BF

/-- FAULT_TABLE (R425). -/
def faultTableOk (p : List Byte) : Bool :=
  p.length = 2064 && inR (u32 p 0) 1 10000 && zeros p 4 12 &&
  allN 512 (fun src => let o := 16 + 4 * src
    if sourceListed src then sourceFixed src ||
      (inR (byteAt p o) 0 8 && inR (byteAt p (o + 1)) 0 1 && inR (byteAt p (o + 2)) 0 3 && zeros p (o + 3) 1 &&
       (sourceLocal src || !(byteAt p o = 2 || byteAt p o = 3)))
    else zeros p o 4)

/-- ADMISSION. -/
def admissionOk (p : List Byte) : Bool :=
  p.length = 20 && inR (u32 p 0) 1000 24000 && inR (u32 p 4) 100 8000 && inR (u32 p 8) 100 10000 &&
  inR (u32 p 12) 0 16777215 && inR (byteAt p 16) 0 1 && inR (byteAt p 17) 1 127 && zeros p 18 2

/-- CONSUMABLES (R469). -/
def consumablesOk (p : List Byte) : Bool :=
  p.length = 528 && inR (u16 p 0) 1 3600 && zeros p 2 14 &&
  allN 32 (fun i => let o := 16 + 16 * i
    inR (byteAt p o) 0 2 && inR (byteAt p (o + 2)) 0 3 &&
    (match byteAt p (o + 2) with | 0 => true | 3 => inR (byteAt p (o + 3)) 0 3 | _ => inR (byteAt p (o + 3)) 0 7) &&
    zeros p (o + 12) 4)

/-- AUX_AXES (R363). -/
def auxAxesOk (p : List Byte) : Bool :=
  p.length = 256 && allN 16 (fun k => let o := 16 * k
    inR (byteAt p o) 0 1 && inR (byteAt p (o + 1)) 0 2 && inR (byteAt p (o + 2)) 0 1 && inR (byteAt p (o + 3)) 0 1 &&
    inR (u16 p (o + 4)) 10 1000 && inR (u16 p (o + 6)) 10 1000 && decide (1 ≤ u32 p (o + 8)) &&
    inR (u16 p (o + 12)) 1 20000 && decide (1 ≤ u16 p (o + 14)) &&
    decide (u16 p (o + 12) * 100 * 2 * u16 p (o + 4) * 10 ≤ 1000000000))

/-- SIGNATURE: its reserved bytes and length. -/
def signatureOk (p : List Byte) : Bool := p.length = 132 && zeros p 65 3

/-- The content check of a section of type `ty` and version `ver`, in the image `l` that already holds it. CALIB_SAVED
is judged by R59, which ends no boot. -/
def contentOk (ty ver : Nat) (p : List Byte) (l : Img) (ringIdx : Nat) : Bool :=
  ver = 1 && match ty with
  | 0x01 => deviceOk p
  | 0x02 => clocksOk p
  | 0x03 => powerSeqOk p
  | 0x04 => ringOk p ringIdx
  | 0x05 => stagesOk p && stageAxesOk l
  | 0x06 => axesRopesOk p l && (!l.has 5 || stageAxesOk l)
  | 0x07 => lawProgramsOk p l && (!l.has 8 || obsWordsOk l (l.lawCode))
  | 0x08 => lawDataOk p && (!l.has 7 || obsWordsOk l (l.lawCode))
  | 0x09 => spindlesOk p l
  | 0x0A => stationsOk p
  | 0x0B => toneOk p
  | 0x0C => correctionOk p l
  | 0x0D => thermalOk p
  | 0x0E => faultTableOk p
  | 0x0F => admissionOk p
  | 0x10 => true
  | 0x11 => consumablesOk p
  | 0x12 => auxAxesOk p
  | 0x13 => hvNodesOk p
  | 0x7F => signatureOk p
  | _ => false

/-- Table "Section types". -/
def sectionListed (ty : Nat) : Bool := inR ty 0x01 0x13 || ty = 0x7F

/-- A SHARE channel that a rope or an instruction uses has a sender (R411). -/
def sharesOk (l : Img) : Bool :=
  !l.has 4 ||
    ((l.ropes.map (fun r => [l.ropeShareCh r, l.ropeBackCh r])).flatten.all (fun c => c = 0xFFFF || (l.chanSender c).isSome) &&
     (!l.has 7 || (instrWords (l.sec 7) l.lawN 656).all (fun w => lawOp w != 0x42 || (l.chanSender (lawB w)).isSome)))

/-- Units that DEVICE enables have the sections they require (R38). -/
def deviceNeedsOk (l : Img) : Bool :=
  (l.b1 1 0 = 0 || (l.has 0x0A && l.has 0x0B && l.has 0x09)) && (l.b1 1 1 = 0 || l.has 0x09) &&
  (l.b2 1 2 = 0 || (l.has 0x05 && l.has 0x06 && l.has 0x07)) && (l.b2 1 4 = 0 || l.has 0x12)

end Sys2Proof.Machine
end

