-- ==== Sys2Proof/Machine/Faults.lean ====
section
/-! DEFINITION. The fault collector: classes, reactions, the first-fault latch, the log, the pin and what each reaction
does in each state (chapter 14). -/

namespace Sys2Proof.Machine

open Sys2Proof.Bits

/-- Precedence class of a source (table "Fault source map"). -/
def classOf (s : Nat) : Nat :=
  if s = 0x000 || s = 0x007 then 1
  else if s = 0x010 || s = 0x011 || s = 0x014 || s = 0x021 || inR s 0x030 0x039 || s = 0x06B then 2
  else if inR s 0x040 0x067 then (if (s - 0x040) % 5 < 3 then 3 else 4)
  else if inR s 0x068 0x06A || inR s 0x070 0x0F8 then 3
  else if inR s 0x008 0x00C || inR s 0x022 0x02A || inR s 0x100 0x174 then 4
  else if s = 0x00E || s = 0x00F then 5
  else if inR s 0x180 0x1BF then (if s % 8 = 1 || s % 8 = 2 then 6 else 5)
  else if inR s 0x1C0 0x1CA then 6
  else if inR s 0x1E0 0x1E8 then 7
  else 8

/-- Code 0xF: a reaction that its rule gives by state. -/
def byState : Nat := 0xF

/-- Fixed reaction of a source, for `kind` as the signalled stop of sources 0x172 and 0x1E7. -/
def fixedCode (src kind : Nat) : Nat :=
  if src = 0x007 || src = 0x010 || src = 0x021 then byState
  else if src = 0x172 || src = 0x1E7 then kind
  else if src = 0x000 || src = 0x001 || src = 0x032 || src = 0x0F8 then 8
  else if inR src 0x0F4 0x0F7 then 7
  else if inR src 0x100 0x102 then 6
  else if inR src 0x040 0x067 then 3
  else if src = 0x1F4 then 4
  else 5

/-- Reaction code of a source: fixed, from FAULT_TABLE, or LOG before the load (R55, R425). -/
def codeOf (s : State) (src kind : Nat) : Nat :=
  if sourceFixed src then fixedCode src kind else if s.img.ftLoaded then s.img.ftReaction src else 0

/-- The source may take the latch, and asserts FAULT_L (R425, R430). -/
def latchFlag (s : State) (src : Nat) : Bool := sourceFixed src || !s.img.ftLoaded || s.img.ftLatch src
def pinFlag (s : State) (src : Nat) : Bool := sourceFixed src || (s.img.ftLoaded && s.img.ftPin src)

/-- What a reaction comes to in the present state: the code of a stop or SAFE, DOWN by row 24, or a mark on a belay
stop. -/
inductive Effect where
  | code (n : Nat) | critical | powerFail | mark | none
  deriving DecidableEq, Repr

/-- The state in which a trigger that depends on the state is judged: in DOWN, SAFE or a ramp or coast stop that another trigger
of this tick brought about, the state in which the tick began (R29). -/
def judgedState (s : State) : EngState :=
  if s.eng.state = .safe || s.eng.state = .down || (s.eng.state = .belay && s.eng.stop != .belay) then fromState s else s.eng.state

/-- A mark on the belay stop in progress. -/
def markEffect (s : State) : Effect := if s.eng.state = .belay && s.eng.stop = .belay then .mark else .none

/-- ESTOP by R422, JUNCTION_CRITICAL by R371, POWER_FAIL by row 28. -/
def effectOf (s : State) (src code : Nat) : Effect :=
  if src = 0x010 then .powerFail
  else if src = 0x007 then
    match judgedState s with
    | .boot | .idle | .service => .code 8
    | .armed | .run | .halting => .code 5
    | .belay => markEffect s
    | .safe | .down => .none
  else if src = 0x021 then
    match judgedState s with
    | .boot | .idle | .armed | .service => .critical
    | .run | .halting => .code 5
    | .belay => markEffect s
    | .safe | .down => .none
  else .code code

/-- FLAGS.SUPPRESSED: the reaction changes no engine state (R416). A trigger more severe than those that moved the engine in
this tick takes effect, and a power failure of the tick sets every other aside (R29). -/
def suppressed (s : State) (e : Effect) : Bool :=
  match e with
  | .none => true
  | .critical => powerFails s
  | .powerFail | .mark => false
  | .code n =>
    if s.eng.state = .boot then decide (n < 8) || powerFails s
    else if s.eng.state = .down || powerFails s then inR n 4 8
    else match n with
      | 4 => s.eng.state = .armed || (s.eng.state = .halting && !outranks s 4) || s.eng.state = .belay || s.eng.state = .safe
      | 5 => s.eng.state = .belay || s.eng.state = .safe
      | 6 => (s.eng.state = .belay && s.eng.stop != .belay) || stateFor s 6 = .safe
      | 7 => (s.eng.state = .belay && s.eng.stop = .coast) || stateFor s 7 = .safe
      | 8 => s.eng.state = .safe && !outranks s 8
      | _ => false

/-- Sources raised in the present tick. -/
def tickSources (s : State) : List Nat := if s.flt.curTick = s.now then s.flt.curSrcs else []

/-- R16: the higher class, then the lower identity. -/
def precedes (a b : Nat) : Bool := classOf a < classOf b || (classOf a = classOf b && decide (a < b))

/-- The source that R16 selects. -/
def selectFirst : List Nat → Option Nat
  | [] => none
  | a :: r => match selectFirst r with
    | none => some a
    | some b => if precedes b a then some b else some a

/-- The latch after `src` is raised with reaction `code` (R415): taken while VALID is 0, or from a source of the same
tick that R16 ranks below. A latch of an earlier tick that FAULT_CLEAR releases stands until the end of its tick (R423). -/
def latchNext (s : State) (src code : Nat) : Option FirstFault :=
  let mine : FirstFault := { source := src, cls := classOf src, reaction := code, tick := s.now }
  match s.flt.first with
  | none => if latchFlag s src && s.flt.barTick != some s.now then some mine else none
  | some f => if f.tick = s.now && latchFlag s src && precedes src f.source then some mine else some f

/-- Rank of a reaction among the triggers of its tick (R29). -/
def Effect.rank : Effect → Nat
  | .code n => n
  | .critical => 9
  | .powerFail => 10
  | .mark => 5
  | .none => 0

/-- FIRST and SAME of the entries of the tick after the latch has moved (R415, R417). -/
def flagEntry (now : Nat) (first : Option FirstFault) (x : FaultEntry) : FaultEntry :=
  if x.tick = now then
    { x with first := first.any fun f => f.tick = now && f.source = x.source
             same := first.any fun f => f.tick = now && f.source != x.source }
  else x

/-- The newest entry of a source, within the last 1 ms, takes the raise (R417). -/
def coalesce (now src : Nat) : List FaultEntry → Option (List FaultEntry)
  | [] => none
  | x :: r =>
    match coalesce now src r with
    | some r' => some (x :: r')
    | none =>
      if x.source = src && !r.any (fun y => y.source = src) && now ≤ x.tick + 100000 then
        some ({ x with count := sat 16 (x.count + 1) } :: r)
      else none

/-- A new entry at the end of the log of 512, the oldest overwritten (R417). -/
def appendLog (x : FaultEntry) (l : List FaultEntry) : List FaultEntry :=
  (if l.length < 512 then l else l.drop 1) ++ [x]

/-- The log after a raise. -/
def logRaise (s : State) (src code rank : Nat) (supp : Bool) (first : Option FirstFault) : List FaultEntry :=
  let l := match coalesce s.now src s.flt.log with
    | some l => l
    | none => appendLog { source := src, reaction := code, first := false, same := false, suppressed := supp, count := 1,
                          tick := s.now, rank := rank } s.flt.log
  l.map (flagEntry s.now first)

/-- FLT_SAME: the other sources of the latching tick (R415). -/
def sameMask (s : State) (first : Option FirstFault) (srcs : List Nat) : Mask :=
  match first with
  | none => s.flt.same
  | some f => if f.tick = s.now then (srcs.filter (· != f.source)).foldl Mask.put Mask.empty else s.flt.same

/-- Sticky bit, latch, log and counts of a raise (R414 to R417). -/
def record (src code rank : Nat) (supp : Bool) (s : State) : State :=
  let srcs := if (tickSources s).contains src then tickSources s else tickSources s ++ [src]
  let first := latchNext s src code
  let ovf := s.flt.ovf || (s.flt.first.any fun f => !(f.tick = s.now && f.source = src)) ||
    (first.any fun f => f.tick = s.now && srcs.any (· != f.source))
  let log := logRaise s src code rank supp first
  let same := sameMask s first srcs
  let now := s.now
  setsBit 0xB100 src <| s.modFlt fun f =>
    { f with first := first, ovf := ovf, sticky := f.sticky.put src, same := same, log := log,
             raised := sat 16 (f.raised + 1), curTick := now, curSrcs := srcs }

/-- FAULT_L goes low in the tick of a source with PIN at 1 (R430). -/
def assertPin (src : Nat) (s : State) : State :=
  if pinFlag s src && !s.flt.pinLow then s.modFlt fun f => { f with pinLow := true, pinPulse := true } else s

/-- A source with a reaction of NOTIFY or above has been raised: one FAULT event is due at the end of the tick (R418). -/
def faultEvent (code : Nat) (s : State) : State :=
  if code = 0 then s else s.modFlt fun f => { f with evtTick := some s.now }

/-- The FAULT event at the end of a tick (R418; log 115). -/
def postFault (s : State) : State :=
  if s.flt.evtTick.isNone then s
  else
    let d := match s.flt.first with
      | some f => f.source
      | none => (selectFirst s.flt.curSrcs).getD 0
    postEvent .fault d (s.modFlt fun f => { f with evtTick := none })

/-- Station and channel of a source of R420. -/
def localIndex (src : Nat) : Nat := if src < 0x180 then (src - 0x040) / 5 else (src - 0x180) / 8

/-- Targets of BLANK_STATION and COAST_CHANNEL, widened by DOMAIN (R420, R421). -/
def targets (s : State) (src : Nat) : List Nat :=
  if !sourceFixed src && s.img.ftLoaded && s.img.ftDomain src = 1 then eight else [localIndex src]

/-- Table "Spoil cause of a blanked station". -/
def blankCauseOf (src : Nat) : Nat :=
  if src < 0x180 then 0x04
  else match src % 8 with
    | 3 | 4 => 0x03
    | 5 => 0x05
    | 1 | 2 => 0x02
    | _ => 0x04

/-- BLANK_STATION (R420). -/
def blankStations (src : Nat) (s : State) : State :=
  (targets s src).foldl (fun s n => blankNow n .reaction (blankCauseOf src) src s) s

/-- COAST_CHANNEL: the gates of every target channel low, and row 18 (R420). -/
def coastChannels (src : Nat) (s : State) : State := (targets s src).foldl (fun s n => haltChannel n src s) s

/-- CAUSE of a transition that a source makes (table "Transition causes"). -/
def causeOf (s : State) (src : Nat) : Nat :=
  if src = 0x000 then 0x09
  else if src = 0x007 then 0x08
  else if src = 0x001 && s.eng.state = .boot then 0x0B
  else if src = 0x021 then 0x0E
  else 0x07

/-- HALT: row 12. -/
def reactHalt (src : Nat) (s : State) : State := 
  if s.eng.state = .run then startHalt 4 (causeOf s src) s
  else if s.eng.state = .halting && outranks s 4 then enterState 4 .halting (causeOf s src) s
  else s

/-- BELAY: row 14. -/
def reactBelay (src : Nat) (s : State) : State :=
  match s.eng.state with
  | .armed | .run | .halting => startBelay (causeOf s src) src (src = 0x007) (src = 0x021) s
  | _ => s

/-- RAMP: rows 18 and 22. -/
def reactRamp (src : Nat) (s : State) : State :=
  match stateFor s 6 with
  | .armed | .run | .halting => startRamp (causeOf s src) src s
  | .belay => if s.eng.stop = .belay then startRamp (causeOf s src) src s else s
  | .idle | .service => enterSafe 6 (causeOf s src) src s
  | _ => s

/-- COAST_ALL: rows 20 and 22; gates and INH act in every state. -/
def reactCoast (src : Nat) (s : State) : State :=
  match stateFor s 7 with
  | .armed | .run | .halting => startCoast (causeOf s src) src s
  | .belay => if s.eng.stop = .coast then coastHard src s else startCoast (causeOf s src) src s
  | .idle | .service => enterSafe 7 (causeOf s src) src s
  | _ => coastHard src s

/-- SAFE: row 23, in SAFE only against a less severe trigger of the same tick (R29); gates, INH, lasers and the TAP's pins act in
every state (R494). -/
def reactSafe (src : Nat) (s : State) : State :=
  let s := returnPins s
  match s.eng.state with
  | .down => safeHard src s
  | .safe => if outranks s 8 then enterSafe 8 (causeOf s src) src s else safeHard src s
  | _ => enterSafe 8 (causeOf s src) src s

/-- DOWN of this very tick gives way to the power failure: its record, and the state before it until row 28 (R29, R448). -/
def undoDown (trigger : Nat) (s : State) : State :=
  let r := amendRecord 1 trigger (lastRecord s)
  let s := s.modPers fun p => { p with cairnNext := p.cairnNext - 1 }
  let s := s.modPwr fun p => { p with upCut := p.upNow || p.down.any (·.cutUp), down := none, writing := some r }
  s.modEng fun e => { e with state := e.tickFrom.getD e.state }

/-- The record of a power failure under way, unless the state was DOWN before this tick (R441, R447; log 82). -/
def beginRecord (trigger : Nat) (s : State) : State :=
  if s.eng.state != .down then
    let r := cairnRecord 1 trigger s
    s.modPwr fun p => { p with writing := some r, upCut := p.upNow }
  else if movedNow s then undoDown trigger s
  else s

/-- Power failure: hardwired as SAFE, every rail off at once, PD2 to PD9 off, and the record under way (R446, R447). -/
def powerFailNow (trigger : Nat) (s : State) : State :=
  let s := (beginRecord trigger s).modEng fun e => { e with pfTick := some e.time }
  let s := safeHard 0x010 (returnPins s)
  let s := domainsOff [2, 3, 4, 5, 6, 7, 8, 9] s
  s.modPwr fun p => { p with en := 0, up := none }

/-- The effect of a reaction on the engine (table "Reaction codes"). -/
def react (src : Nat) (e : Effect) (trigger : Nat) (s : State) : State :=
  match e with
  | .none => s
  | .critical => shutDown 9 .critical 0x0E (trigger ||| 4) src s
  | .powerFail => powerFailNow trigger s
  | .mark => s.modEng fun e => { e with markEstop := e.markEstop || src = 0x007,
                                        markCritical := e.markCritical || src = 0x021 }
  | .code n =>
    if powerFails s && inR n 4 8 then (if n = 7 then coastHard src s else if n = 8 then safeHard src (returnPins s) else s)
    else if s.eng.state = .boot && n < 8 then
      (if n = 3 && sourceFixed src then coastChannels src s else if n = 7 && sourceFixed src then coastHard src s else s)
    else match n with
      | 2 => blankStations src s
      | 3 => coastChannels src s
      | 4 => reactHalt src s
      | 5 => reactBelay src s
      | 6 => reactRamp src s
      | 7 => reactCoast src s
      | 8 => reactSafe src s
      | _ => s

/-- A state-changing reaction of rank `sev` sets aside the less severe ones of the same tick: their entries carry SUPPRESSED
(R29, R416). -/
def supersede (now sev : Nat) (x : FaultEntry) : FaultEntry :=
  if x.tick = now && inR x.rank 4 9 && x.rank < sev then { x with suppressed := true } else x

def setAside (n : Nat) (s : State) : State :=
  let now := s.now
  s.modFlt fun f => { f with log := f.log.map (supersede now n) }

/-- The fault collector operates: it stands in PD1, which a power failure switches off (table "Internal domains"). -/
def collectorOn (s : State) : Bool := tab s.pwr.domain 0 1 = 2

/-- A source is raised (R413 to R422). `kind` is a signalled stop, `trigger` the TRIGGER bits of a power failure. -/
def raiseNow (src kind trigger : Nat) (s : State) : State :=
  let code := codeOf s src kind
  let e := effectOf s src code
  let supp := suppressed s e
  let s := record src code e.rank supp s
  let s := assertPin src s
  let s := faultEvent code s
  let s := if supp then s else setAside e.rank s
  let s := if src = 0x007 then s.modEng fun x => { x with estop := true } else s
  react src e trigger s

/-- A source is raised, while the collector operates. -/
def raiseWith (src kind trigger : Nat) (s : State) : State :=
  if collectorOn s then raiseNow src kind trigger s else s

/-- An event source is raised. -/
def raise (src : Nat) (s : State) : State := raiseWith src 0 0 s

/-- A condition source becomes active: FLT_ACTIVE, and the raise (R413; log 23). -/
def condOn (src : Nat) (s : State) : State :=
  if s.flt.active.has src then s else raise src (s.modFlt fun f => { f with active := f.active.put src })

/-- A condition source ends (log 23). -/
def condOff (src : Nat) (s : State) : State := s.modFlt fun f => { f with active := f.active.drop src }

/-- The condition holds or not. -/
def condSet (src : Nat) (b : Bool) (s : State) : State := if b then condOn src s else condOff src s

/-- Conditions that an accepted FAULT_CLEAR left active are raised again in the next tick (R424). -/
def reraise (s : State) : State :=
  if s.flt.rearm then s.flt.active.sources.foldl (fun s x => raise x s) (s.modFlt fun f => { f with rearm := false }) else s

/-- A boot step fails (R52): code and ITEM, and BOOT_FAIL. -/
def bootFail (f : BootFail) (item : Nat) (s : State) : State :=
  raise 0x001 (s.modBoot fun b => { b with fail := f, item := item })

end Sys2Proof.Machine
end

