-- ==== Sys2Proof/Machine/Sparse.lean ====
section
/-! DEFINITION. Sparse tables in canonical form: strictly rising keys, and no entry equal to what an unlisted key reads
as. The OTP array and shadow, the data RAM and the DMA program RAM are held so. -/

namespace Sys2Proof.Machine

open Sys2Proof.Bits

/-- The value at a key; `d` where none is listed. -/
def sget {α : Type} (d : α) : List (Nat × α) → Nat → α
  | [], _ => d
  | (k, v) :: r, i => if k = i then v else sget d r i

/-- The table with the key's entry taken out. -/
def sdel {α : Type} : List (Nat × α) → Nat → List (Nat × α)
  | [], _ => []
  | (k, v) :: r, i => if k = i then r else if i < k then (k, v) :: r else (k, v) :: sdel r i

/-- The table with a value put at a key, in order. -/
def sins {α : Type} : List (Nat × α) → Nat → α → List (Nat × α)
  | [], i, a => [(i, a)]
  | (k, v) :: r, i, a => if k = i then (i, a) :: r else if i < k then (i, a) :: (k, v) :: r else (k, v) :: sins r i a

/-- The table after a write: writing the default takes the entry out. -/
def sput {α : Type} [DecidableEq α] (d : α) (l : List (Nat × α)) (i : Nat) (a : α) : List (Nat × α) :=
  if a = d then sdel l i else sins l i a

/-- Keys rise, and no entry is the default. -/
def swf {α : Type} [DecidableEq α] (d : α) : List (Nat × α) → Bool
  | [] => true
  | [(_, v)] => v != d
  | (k, v) :: (k', v') :: r => v != d && decide (k < k') && swf d ((k', v') :: r)

end Sys2Proof.Machine
end

