-- ==== Sys2Proof/Machine/OtpOps.lean ====
section
/-! DEFINITION. Reading the OTP array and its shadow: majorities, marginal words, region validity and what units take
from the shadow (R450 to R454, R459). -/

namespace Sys2Proof.Machine

open Sys2Proof.Bits

/-- Bitwise majority of three copies. -/
def maj (a b c : Word) : Word := (a &&& b) ||| (a &&& c) ||| (b &&& c)

/-- Majority at nominal level, and at margin level. -/
def OtpCell.nominal (x : OtpCell) : Word := maj x.n0 x.n1 x.n2
def OtpCell.margin (x : OtpCell) : Word := maj x.m0 x.m1 x.m2

/-- The majorities differ, or the three copies do not all agree at both levels (R452). -/
def OtpCell.isMarginal (x : OtpCell) : Bool :=
  x.nominal != x.margin || x.n0 != x.n1 || x.n1 != x.n2 || x.m0 != x.m1 || x.m1 != x.m2

/-- Copies that agree with the nominal majority at both levels (R459). -/
def OtpCell.agreeing (x : OtpCell) : Nat :=
  b2n (x.n0 = x.nominal && x.m0 = x.nominal) + b2n (x.n1 = x.nominal && x.m1 = x.nominal) +
  b2n (x.n2 = x.nominal && x.m2 = x.nominal)

def otpCell (s : State) (a : Nat) : OtpCell := sget OtpCell.blank s.otp.cells a

/-- A shadow word: region r, word w at 256r + w. -/
def shadow (s : State) (a : Nat) : Word := sget 0 s.otp.shadow a

/-- Words of a region in a table. -/
def regionWords (t : List (Nat × Word)) (r : Nat) : List Word := (List.range 256).map fun w => sget 0 t (256 * r + w)

/-- Every word of the region is 0 (R450). -/
def wordsBlank (ws : List Word) : Bool := ws.all (· == 0)

/-- The check word matches the CRC-32C of words 0 to 254 (R450). -/
def wordsValid (ws : List Word) : Bool :=
  (ws.getD 255 0).toNat = crc32c ((ws.take 255).flatMap fun w => toLE 4 w.toNat)

/-- Region valid: not blank, with a matching check word. -/
def regionValid (s : State) (r : Nat) : Bool := s.otp.valid.getLsbD r
def regionBlank (s : State) (r : Nat) : Bool := s.otp.blank.getLsbD r

/-- Region flagged invalid at shadow load (R450). -/
def regionInvalid (s : State) (r : Nat) : Bool := !regionValid s r && !regionBlank s r

/-- A word of a region as its unit reads it: 0 where the region is not valid (table "Consumers of an invalid
region"). -/
def policyWord (s : State) (r w : Nat) : Nat := if regionValid s r then (shadow s (256 * r + w)).toNat else 0

/-- `n` bytes of a region from word `w` (section "Regions and words"). -/
def regionBytes (s : State) (r w n : Nat) : List Byte :=
  ((List.range ((n + 3) / 4)).flatMap fun k => toLE 4 (policyWord s r (w + k))).take n

/-- Module serial, 0 when region 1 is invalid. -/
def serial (s : State) : Nat := policyWord s 1 0 + 2 ^ 32 * policyWord s 1 1

/-- Secure boot is enabled (section "Secure boot"). -/
def secureBoot (s : State) : Bool := policyWord s 5 8 % 2 = 1

/-- Word 0 of region 8. -/
def overrides (s : State) : Nat := policyWord s 8 0

end Sys2Proof.Machine
end

