-- ==== Sys2Proof/Machine/Calib.lean ====
section
/-! DEFINITION. Power-up calibration: the choice among redundant elements, the limits, and the calibration record
(R57 to R61). -/

namespace Sys2Proof.Machine

open Sys2Proof.Bits

/-- Length of the calibration record. -/
def calibLen : Nat := 2296

/-- Distance of a cell's hits from the mean, times 160. -/
def cellDev (total h : Nat) : Nat := (h * 160 : Int) - (total : Int) |>.natAbs

/-- Cells that deviate less than cell `c`, or as much with a lower number (log 14 orders equal cells). -/
def cellRank (hits : List Nat) (c : Nat) : Nat :=
  let total := hits.foldl (· + ·) 0
  let d := cellDev total (hits.getD c 0)
  ((List.range 160).filter fun k =>
    let e := cellDev total (hits.getD k 0)
    decide (e < d) || (e = d && decide (k < c))).length

/-- The 128 cells that deviate least from the mean width, ascending (log 14). -/
def tdcCells (hits : List Nat) : List Nat := (List.range 160).filter fun c => decide (cellRank hits c < 128)

/-- Width of a cell in 0.01 ps: its share of 1,048,576 hits times 10 ns, rounded down (log 101). -/
def cellWidth (h : Nat) : Nat := h * 1000000 / 1048576

/-- Bytes of a mask of `n` bytes with the given bits. -/
def maskBytes (n : Nat) (bits : List Nat) : List Byte :=
  (List.range n).map fun i => BitVec.ofNat 8 (((List.range 8).filter fun b => bits.contains (8 * i + b)).foldl (fun m b => m + 2 ^ b) 0)

/-- A value in an unsigned and in a signed field of 16 bits: one past the field's range takes its end, which breaks the limit
of R57 that the value breaks. -/
def field16 (n : Nat) : List Byte := toLE 2 (min n 65535)
def signed16 (i : Int) : List Byte := toLE 2 (unsigned 16 (clampI (-32768) 32767 i))

/-- The TDC entry of one station (table "TDC entry"); the span is rounded down to ps (log 101). -/
def tdcEntry (hits : List Nat) (dnl : Nat) : List Byte :=
  let cs := tdcCells hits
  let ws := cs.map fun c => cellWidth (hits.getD c 0)
  maskBytes 20 cs ++ field16 (ws.foldl (· + ·) 0 / 100) ++ field16 dnl ++ ws.flatMap field16

/-- Limits of a TDC entry (table "Calibration limits"). -/
def tdcOk (e : List Byte) : Bool :=
  let ws := (List.range 128).map fun k => u16 e (24 + 2 * k)
  let total := ws.foldl (· + ·) 0
  popCount 160 (le e 0 20) = 128 && inR (u16 e 20) 9500 10500 && decide (u16 e 22 < 512) &&
  ws.all fun w => decide (total ≤ 256 * w) && decide (256 * w ≤ 3 * total)

/-- Smallest absolute mean among the pairs that meet the noise limit, the lowest pair of equals (log 14); pair, mean. -/
def isenseBest : Nat → List (Int × Nat) → Option (Nat × Int)
  | _, [] => none
  | k, (m, noise) :: r =>
    match isenseBest (k + 1) r with
    | none => if noise ≤ 1000 then some (k, m) else none
    | some (j, b) => if noise ≤ 1000 && decide (m.natAbs ≤ b.natAbs) then some (k, m) else some (j, b)

def isenseEntry (x : Nat × Int) : List Byte := toLE 1 x.1 ++ [0] ++ signed16 x.2

/-- Limits of an ISENSE entry. -/
def isenseOk (e : List Byte) : Bool := decide (byteAt e 0 < 8) && decide ((s16 e 2).natAbs ≤ 5000)

/-- Insertion into an ascending list. -/
def insertI (x : Int) : List Int → List Int
  | [] => [x]
  | y :: r => if x ≤ y then x :: y :: r else y :: insertI x r

/-- Twice the median of four readings. -/
def median2 (xs : List Int) : Int :=
  let ys := xs.foldr insertI []
  ys.getD 1 0 + ys.getD 2 0

/-- The reference cell nearest the median, the lowest of equals (log 14). -/
def trefCell (xs : List Int) : Nat :=
  let d (k : Nat) : Nat := (2 * xs.getD k 0 - median2 xs).natAbs
  (List.range 4).foldl (fun b k => if d k < d b then k else b) 0

def trefEntry (xs : List Int) : List Byte := toLE 1 (trefCell xs) ++ [0] ++ signed16 (xs.getD (trefCell xs) 0)

/-- Limits of a TREF entry. -/
def trefOk (e : List Byte) : Bool := decide (byteAt e 0 < 4) && decide ((s16 e 2).natAbs ≤ 5000)

/-- The chosen reference cell `c` agrees with at least two others: their deviations in ppm differ by 2,000 at most (R57; log 122). -/
def trefNear (c : Nat) (xs : List Int) : Bool :=
  decide (2 ≤ ((List.range 4).filter fun k => k != c && decide ((xs.getD k 0 - xs.getD c 0).natAbs ≤ 2000)).length)

def trefAgrees (xs : List Int) : Bool := trefNear (trefCell xs) xs

/-- A stored record that this module may use: version, length, CRC and serial (R59, R61). -/
def calibIntact (r : List Byte) : Bool :=
  r.length = calibLen && u16 r 0 = 1 && u16 r 2 = calibLen && u32 r 2292 = crc32c (r.take 2292)

def calibMine (s : State) (r : List Byte) : Bool := regionValid s 1 && le r 4 8 = serial s

/-- Bytes of item `i` in a record: 0 to 7 TDC, 8 to 15 ISENSE, 16 TREF. -/
def calibItem (r : List Byte) (i : Nat) : List Byte :=
  if i < 8 then (r.drop (16 + 280 * i)).take 280
  else if i < 16 then (r.drop (2256 + 4 * (i - 8))).take 4
  else (r.drop 2288).take 4

/-- No item breaks the limits (R61). -/
def calibInLimits (r : List Byte) : Bool :=
  (List.range 17).all fun i =>
    let e := calibItem r i
    if i < 8 then tdcOk e else if i < 16 then isenseOk e else trefOk e

/-- What item `i` measured, when it passes every limit (R57). -/
def calibFresh (m : CalibMeas) (i : Nat) : Option (List Byte) :=
  if i < 8 then
    match m.tdc[i]? with
    | none => none
    | some (h, d) => let e := tdcEntry h d; if tdcOk e then some e else none
  else if i < 16 then
    match (m.isense[i - 8]?).bind (isenseBest 0) with
    | none => none
    | some x => let e := isenseEntry x; if isenseOk e then some e else none
  else
    let e := trefEntry m.tref
    if m.tref.length = 4 && trefOk e && trefAgrees m.tref then some e else none

/-- Values of the defaults of OTP region 0, or the safe trim defaults, whose layout the manual does not give: `n` open
bytes (log 15). -/
def freeBytes (c : Nat) : Nat → List Byte
  | 0 => []
  | n + 1 => Config.freeByte c :: freeBytes (c + 1) n

/-- The saved record of the image, when R59 lets it be used. -/
def calibSaved (s : State) : Option (List Byte) :=
  let r := s.img.sec 0x10
  if s.img.has 0x10 && calibIntact r && calibMine s r then some r else none

/-- Item `i` of the record in use after step 9 (R58). -/
def calibUse (s : State) (m : CalibMeas) (i : Nat) : List Byte :=
  match calibFresh m i with
  | some e => e
  | none =>
    match calibSaved s with
    | some r => calibItem r i
    | none => freeBytes (s.freeCtr + 280 * i) (if i < 8 then 280 else 4)

/-- FLAGS of the record: the fresh items, and the source of the others. -/
def calibFlags (s : State) (m : CalibMeas) : Nat :=
  ((List.range 17).filter fun i => (calibFresh m i).isSome).foldl (fun v i => v + 2 ^ i) 0 +
  b2n ((calibSaved s).isSome && (List.range 17).any fun i => (calibFresh m i).isNone) * 2 ^ 17

/-- A record with its CRC. -/
def sealCalib (b : List Byte) : List Byte := b ++ toLE 4 (crc32c b)

/-- The calibration record that step 9 makes. -/
def calibRecord (s : State) (m : CalibMeas) : List Byte :=
  sealCalib (toLE 2 1 ++ toLE 2 calibLen ++ toLE 8 (serial s) ++ toLE 4 (calibFlags s m) ++
    (List.range 17).flatMap (calibUse s m))

end Sys2Proof.Machine
end

