-- ==== Sys2Proof/Machine/Crypto.lean ====
section
/-! DEFINITION. The crypto unit: SHA-256 and ECDSA P-256 verification (R39, R43), AES-128 and AES-128-CMAC (R461,
R462). The manual names the algorithms; their definitions are those of their published standards (log 12). -/

namespace Sys2Proof.Crypto

open Sys2Proof.Bits

-- SHA-256

def shaK : List Nat :=
  [0x428A2F98, 0x71374491, 0xB5C0FBCF, 0xE9B5DBA5, 0x3956C25B, 0x59F111F1, 0x923F82A4, 0xAB1C5ED5] ++
  [0xD807AA98, 0x12835B01, 0x243185BE, 0x550C7DC3, 0x72BE5D74, 0x80DEB1FE, 0x9BDC06A7, 0xC19BF174] ++
  [0xE49B69C1, 0xEFBE4786, 0x0FC19DC6, 0x240CA1CC, 0x2DE92C6F, 0x4A7484AA, 0x5CB0A9DC, 0x76F988DA] ++
  [0x983E5152, 0xA831C66D, 0xB00327C8, 0xBF597FC7, 0xC6E00BF3, 0xD5A79147, 0x06CA6351, 0x14292967] ++
  [0x27B70A85, 0x2E1B2138, 0x4D2C6DFC, 0x53380D13, 0x650A7354, 0x766A0ABB, 0x81C2C92E, 0x92722C85] ++
  [0xA2BFE8A1, 0xA81A664B, 0xC24B8B70, 0xC76C51A3, 0xD192E819, 0xD6990624, 0xF40E3585, 0x106AA070] ++
  [0x19A4C116, 0x1E376C08, 0x2748774C, 0x34B0BCB5, 0x391C0CB3, 0x4ED8AA4A, 0x5B9CCA4F, 0x682E6FF3] ++
  [0x748F82EE, 0x78A5636F, 0x84C87814, 0x8CC70208, 0x90BEFFFA, 0xA4506CEB, 0xBEF9A3F7, 0xC67178F2]

def shaH : List Nat := [0x6A09E667, 0xBB67AE85, 0x3C6EF372, 0xA54FF53A, 0x510E527F, 0x9B05688C, 0x1F83D9AB, 0x5BE0CD19]

def rotr (x n : Nat) : Nat := (x >>> n ||| x <<< (32 - n)) % 2 ^ 32

/-- The message with its padding. -/
def shaPad (m : List Byte) : List Byte :=
  m ++ [0x80] ++ List.replicate ((119 - m.length % 64) % 64) 0 ++ (toLE 8 (8 * m.length)).reverse

/-- The 16 words of a block. -/
def shaWords (b : List Byte) : List Nat := (List.range 16).map fun i => be b (4 * i) 4

/-- The schedule grown by `n` words; newest first. -/
def shaExpand : Nat → List Nat → List Nat
  | 0, w => w
  | n + 1, w =>
    let a := w.getD 14 0
    let b := w.getD 1 0
    let s0 := rotr a 7 ^^^ rotr a 18 ^^^ (a >>> 3)
    let s1 := rotr b 17 ^^^ rotr b 19 ^^^ (b >>> 10)
    shaExpand n ((s1 + w.getD 6 0 + s0 + w.getD 15 0) % 2 ^ 32 :: w)

/-- One round on the working variables a to h. -/
def shaRound (v : List Nat) (kw : Nat) : List Nat :=
  match v with
  | [a, b, c, d, e, f, g, h] =>
    let s1 := rotr e 6 ^^^ rotr e 11 ^^^ rotr e 25
    let ch := (e &&& f) ^^^ ((2 ^ 32 - 1 - e) &&& g)
    let t1 := h + s1 + ch + kw
    let s0 := rotr a 2 ^^^ rotr a 13 ^^^ rotr a 22
    let mj := (a &&& b) ^^^ (a &&& c) ^^^ (b &&& c)
    [(t1 + s0 + mj) % 2 ^ 32, a, b, c, (d + t1) % 2 ^ 32, e, f, g]
  | _ => v

def shaBlock (h : List Nat) (b : List Byte) : List Nat :=
  let w := (shaExpand 48 (shaWords b).reverse).reverse
  let v := (List.zipWith (· + ·) shaK w).foldl shaRound h
  List.zipWith (fun x y => (x + y) % 2 ^ 32) h v

def shaBlocks : Nat → List Nat → List Byte → List Nat
  | 0, h, _ => h
  | n + 1, h, m => shaBlocks n (shaBlock h (m.take 64)) (m.drop 64)

/-- SHA-256 as a big-endian number (log 12). -/
def sha256 (m : List Byte) : Nat :=
  let p := shaPad m
  (shaBlocks (p.length / 64) shaH p).foldl (fun a w => a * 2 ^ 32 + w) 0

/-- `n` bytes of a number, big-endian. -/
def toBE (n v : Nat) : List Byte := (toLE n v).reverse

-- ECDSA P-256

def p256 : Nat := 0xFFFFFFFF00000001000000000000000000000000FFFFFFFFFFFFFFFFFFFFFFFF
def n256 : Nat := 0xFFFFFFFF00000000FFFFFFFFFFFFFFFFBCE6FAADA7179E84F3B9CAC2FC632551
def b256 : Nat := 0x5AC635D8AA3A93E7B3EBBD55769886BC651D06B0CC53B0F63BCE3C3E27D2604B
def gx : Nat := 0x6B17D1F2E12C4247F8BCE6E563A440F277037D812DEB33A0F4A13945D898C296
def gy : Nat := 0x4FE342E2FE1A7F9B8EE7EB4A7C0F9E162BCE33576B315ECECBB6406837BF51F5

/-- aᵉ mod m, over the `k` low bits of e. -/
def powMod (m a : Nat) : Nat → Nat → Nat
  | 0, _ => 1 % m
  | k + 1, e =>
    let h := powMod m a k (e / 2)
    let q := h * h % m
    if e % 2 = 1 then q * a % m else q

/-- Inverse modulo a prime. -/
def invMod (m a : Nat) : Nat := powMod m a 256 (m - 2)

/-- A point in Jacobian coordinates; Z = 0 is the point at infinity. -/
structure Pt where
  x : Nat
  y : Nat
  z : Nat
  deriving DecidableEq, Repr

def fsub (a b : Nat) : Nat := (a + p256 - b % p256) % p256

def dbl (q : Pt) : Pt :=
  let z2 := q.z * q.z % p256
  let y2 := q.y * q.y % p256
  let s := 4 * q.x * y2 % p256
  let m := 3 * fsub q.x z2 * (q.x + z2) % p256
  let x := fsub (m * m) (2 * s)
  { x := x, y := fsub (m * fsub s x) (8 * y2 * y2), z := 2 * q.y * q.z % p256 }

def addPt (a b : Pt) : Pt :=
  if a.z = 0 then b else if b.z = 0 then a else
    let za := a.z * a.z % p256
    let zb := b.z * b.z % p256
    let u1 := a.x * zb % p256
    let u2 := b.x * za % p256
    let s1 := a.y * zb % p256 * b.z % p256
    let s2 := b.y * za % p256 * a.z % p256
    if u1 = u2 then (if s1 = s2 then dbl a else { x := 1, y := 1, z := 0 })
    else
      let h := fsub u2 u1
      let r := fsub s2 s1
      let h2 := h * h % p256
      let h3 := h2 * h % p256
      let x := fsub (fsub (r * r) h3) (2 * u1 * h2)
      { x := x, y := fsub (r * fsub (u1 * h2) x) (s1 * h3), z := h * a.z % p256 * b.z % p256 }

/-- k·Q over the `n` low bits of k. -/
def mulPt (q : Pt) : Nat → Nat → Pt
  | 0, _ => { x := 1, y := 1, z := 0 }
  | n + 1, k =>
    let h := dbl (mulPt q n (k / 2))
    if k % 2 = 1 then addPt h q else h

/-- The key is a point of the curve. -/
def onCurve (x y : Nat) : Bool :=
  x < p256 && y < p256 && y * y % p256 = (x * x % p256 * x + (p256 - 3) * x + b256) % p256

/-- ECDSA P-256: signature (r, s) of digest `e` under the key (x, y) (log 12). -/
def ecdsaVerify (x y r s e : Nat) : Bool :=
  if onCurve x y && 0 < r && r < n256 && 0 < s && s < n256 then
    let w := invMod n256 s
    let q := addPt (mulPt { x := gx, y := gy, z := 1 } 256 (e * w % n256)) (mulPt { x := x, y := y, z := 1 } 256 (r * w % n256))
    if q.z = 0 then false
    else
      let zi := invMod p256 q.z
      (q.x * (zi * zi % p256) % p256) % n256 = r
  else false

-- AES-128

def sbox : List Nat :=
  [0x63, 0x7C, 0x77, 0x7B, 0xF2, 0x6B, 0x6F, 0xC5, 0x30, 0x01, 0x67, 0x2B, 0xFE, 0xD7, 0xAB, 0x76] ++
  [0xCA, 0x82, 0xC9, 0x7D, 0xFA, 0x59, 0x47, 0xF0, 0xAD, 0xD4, 0xA2, 0xAF, 0x9C, 0xA4, 0x72, 0xC0] ++
  [0xB7, 0xFD, 0x93, 0x26, 0x36, 0x3F, 0xF7, 0xCC, 0x34, 0xA5, 0xE5, 0xF1, 0x71, 0xD8, 0x31, 0x15] ++
  [0x04, 0xC7, 0x23, 0xC3, 0x18, 0x96, 0x05, 0x9A, 0x07, 0x12, 0x80, 0xE2, 0xEB, 0x27, 0xB2, 0x75] ++
  [0x09, 0x83, 0x2C, 0x1A, 0x1B, 0x6E, 0x5A, 0xA0, 0x52, 0x3B, 0xD6, 0xB3, 0x29, 0xE3, 0x2F, 0x84] ++
  [0x53, 0xD1, 0x00, 0xED, 0x20, 0xFC, 0xB1, 0x5B, 0x6A, 0xCB, 0xBE, 0x39, 0x4A, 0x4C, 0x58, 0xCF] ++
  [0xD0, 0xEF, 0xAA, 0xFB, 0x43, 0x4D, 0x33, 0x85, 0x45, 0xF9, 0x02, 0x7F, 0x50, 0x3C, 0x9F, 0xA8] ++
  [0x51, 0xA3, 0x40, 0x8F, 0x92, 0x9D, 0x38, 0xF5, 0xBC, 0xB6, 0xDA, 0x21, 0x10, 0xFF, 0xF3, 0xD2] ++
  [0xCD, 0x0C, 0x13, 0xEC, 0x5F, 0x97, 0x44, 0x17, 0xC4, 0xA7, 0x7E, 0x3D, 0x64, 0x5D, 0x19, 0x73] ++
  [0x60, 0x81, 0x4F, 0xDC, 0x22, 0x2A, 0x90, 0x88, 0x46, 0xEE, 0xB8, 0x14, 0xDE, 0x5E, 0x0B, 0xDB] ++
  [0xE0, 0x32, 0x3A, 0x0A, 0x49, 0x06, 0x24, 0x5C, 0xC2, 0xD3, 0xAC, 0x62, 0x91, 0x95, 0xE4, 0x79] ++
  [0xE7, 0xC8, 0x37, 0x6D, 0x8D, 0xD5, 0x4E, 0xA9, 0x6C, 0x56, 0xF4, 0xEA, 0x65, 0x7A, 0xAE, 0x08] ++
  [0xBA, 0x78, 0x25, 0x2E, 0x1C, 0xA6, 0xB4, 0xC6, 0xE8, 0xDD, 0x74, 0x1F, 0x4B, 0xBD, 0x8B, 0x8A] ++
  [0x70, 0x3E, 0xB5, 0x66, 0x48, 0x03, 0xF6, 0x0E, 0x61, 0x35, 0x57, 0xB9, 0x86, 0xC1, 0x1D, 0x9E] ++
  [0xE1, 0xF8, 0x98, 0x11, 0x69, 0xD9, 0x8E, 0x94, 0x9B, 0x1E, 0x87, 0xE9, 0xCE, 0x55, 0x28, 0xDF] ++
  [0x8C, 0xA1, 0x89, 0x0D, 0xBF, 0xE6, 0x42, 0x68, 0x41, 0x99, 0x2D, 0x0F, 0xB0, 0x54, 0xBB, 0x16]

def subByte (b : Nat) : Nat := sbox.getD b 0

def xtime (b : Nat) : Nat := if b ≥ 128 then (2 * b - 256) ^^^ 0x1B else 2 * b

/-- Round keys: `n` more from the last one, most recent first. -/
def expandKey : Nat → Nat → List Nat → List (List Nat)
  | 0, _, k => [k]
  | n + 1, rc, k =>
    let t := [subByte (k.getD 13 0) ^^^ rc, subByte (k.getD 14 0), subByte (k.getD 15 0), subByte (k.getD 12 0)]
    let w0 := List.zipWith (· ^^^ ·) (k.take 4) t
    let w1 := List.zipWith (· ^^^ ·) ((k.drop 4).take 4) w0
    let w2 := List.zipWith (· ^^^ ·) ((k.drop 8).take 4) w1
    let w3 := List.zipWith (· ^^^ ·) ((k.drop 12).take 4) w2
    k :: expandKey n (xtime rc) (w0 ++ w1 ++ w2 ++ w3)

def shiftRows (s : List Nat) : List Nat := (List.range 16).map fun i => s.getD ((i + 4 * (i % 4)) % 16) 0

def mixColumn (s : List Nat) (c : Nat) : List Nat :=
  let a := s.getD (4 * c) 0
  let b := s.getD (4 * c + 1) 0
  let d := s.getD (4 * c + 2) 0
  let e := s.getD (4 * c + 3) 0
  [xtime a ^^^ xtime b ^^^ b ^^^ d ^^^ e, a ^^^ xtime b ^^^ xtime d ^^^ d ^^^ e, a ^^^ b ^^^ xtime d ^^^ xtime e ^^^ e,
   xtime a ^^^ a ^^^ b ^^^ d ^^^ xtime e]

def xorBytes (a b : List Nat) : List Nat := List.zipWith (· ^^^ ·) a b

def aesRounds : List (List Nat) → List Nat → List Nat
  | [], s => s
  | [k], s => xorBytes (shiftRows (s.map subByte)) k
  | k :: r, s => aesRounds r (xorBytes ((List.range 4).flatMap (mixColumn (shiftRows (s.map subByte)))) k)

/-- AES-128 of one block of 16 bytes under a key of 16 bytes. -/
def aes128 (key block : List Byte) : List Byte :=
  match expandKey 10 1 (key.map (·.toNat)) with
  | [] => []
  | k0 :: r => (aesRounds r (xorBytes (block.map (·.toNat)) k0)).map (BitVec.ofNat 8 ·)

/-- Doubling in GF(2¹²⁸), big-endian. -/
def cmacDouble (b : List Byte) : List Byte :=
  let v := be b 0 16
  toBE 16 (if v ≥ 2 ^ 127 then (2 * v - 2 ^ 128) ^^^ 0x87 else 2 * v)

def xor16 (a b : List Byte) : List Byte := List.zipWith (· ^^^ ·) a b

def cmacBlocks (key : List Byte) : Nat → List Byte → List Byte → List Byte
  | 0, x, m => aes128 key (xor16 x m)
  | n + 1, x, m => cmacBlocks key n (aes128 key (xor16 x (m.take 16))) (m.drop 16)

/-- AES-128-CMAC. -/
def cmac (key m : List Byte) : List Byte :=
  let k1 := cmacDouble (aes128 key (List.replicate 16 0))
  let n := if m.length = 0 then 0 else (m.length - 1) / 16
  let last := m.drop (16 * n)
  let t := if last.length = 16 then xor16 last k1
    else xor16 (last ++ [0x80] ++ List.replicate (15 - last.length) 0) (cmacDouble k1)
  cmacBlocks key n (List.replicate 16 0) (m.take (16 * n) ++ t)

end Sys2Proof.Crypto
end

