-- ==== Sys2Proof/Machine/LawData.lean ====
section
/-! DEFINITION. The law engine's data RAM, program RAM, ports and arithmetic faults (R294 to R296, R303, R325). -/

namespace Sys2Proof.Machine

open Sys2Proof.Bits

/-- A word that no record names (R329). -/
def DWord.zero : DWord := { v := 0, stale := false, bad := false }

def dget (s : State) (i : Nat) : DWord := sget DWord.zero s.law.data i

def dputL (l : Law) (i : Nat) (w : DWord) : Law := { l with data := sput DWord.zero l.data i w }

/-- Word `i` of the data RAM takes a value with its STALE bit. -/
def dput (i : Nat) (v : F32) (stale : Bool) (s : State) : State :=
  s.modLaw fun l => dputL l i { v := v, stale := stale, bad := false }

/-- Records of LAW_DATA, or of any writer of consecutive words. -/
def dputAll (start : Nat) : List F32 → State → State
  | [], s => s
  | v :: r, s => dputAll (start + 1) r (dput start v false s)

end Sys2Proof.Machine
end

