-- ==== Sys2Proof/Machine/LawNum.lean ====
section
/-! DEFINITION. Arithmetic of a law-engine instruction (R296): the elementary operations with their exceptions, and the
functions whose error the manual bounds. -/

namespace Sys2Proof.Fp

/-- A value under way in an instruction, and whether a result on the way to it was NaN. -/
structure FNum where
  v : F32
  nan : Bool
  deriving DecidableEq, Repr

def isNan (x : F32) : Bool := expo x = 255 && frac x != 0
def isInf (x : F32) : Bool := expo x = 255 && frac x = 0

/-- Value in 2⁻¹⁴⁹, an infinity as a number past every product of finite values. -/
def xval (x : F32) : Int := if isInf x then (if negBit x then -(2 ^ 600) else 2 ^ 600) else val x

/-- A value as it is written (R296): NaN as +0, an infinity as the largest value, a subnormal as +0. -/
def FNum.norm (a : FNum) : FNum :=
  if isNan a.v then { v := 0, nan := true }
  else if isInf a.v then { a with v := build (negBit a.v) 0x7F7FFFFF }
  else { a with v := flush a.v }

/-- A constant or an operand. -/
def FNum.of (x : F32) : FNum := { v := x, nan := false }

/-- An elementary result, or the +0 of a NaN. -/
def FNum.result (nan : Bool) (v : F32) (a b : FNum) : FNum :=
  if nan then { v := 0, nan := true } else { v := v, nan := a.nan || b.nan }

def FNum.neg (a : FNum) : FNum := { a with v := Fp.neg (flush a.v) }

def FNum.add (a b : FNum) : FNum :=
  let x := flush a.v
  let y := flush b.v
  FNum.result (isNan x || isNan y || (isInf x && isInf y && negBit x != negBit y))
    (Fp.result (xval x + xval y) 149 (negBit x && negBit y)) a b

def FNum.sub (a b : FNum) : FNum := a.add b.neg

/-- ∞ × 0. -/
def badProduct (x y : F32) : Bool := (isInf x && xval y = 0) || (isInf y && xval x = 0)

def FNum.mul (a b : FNum) : FNum :=
  let x := flush a.v
  let y := flush b.v
  FNum.result (isNan x || isNan y || badProduct x y) (Fp.result (xval x * xval y) 298 (negBit x != negBit y)) a b

/-- d + a × b, rounded once. -/
def FNum.mac (d a b : FNum) : FNum :=
  let w := flush d.v
  let x := flush a.v
  let y := flush b.v
  let sign := negBit x != negBit y
  FNum.result (isNan w || isNan x || isNan y || badProduct x y || (isInf w && (isInf x || isInf y) && negBit w != sign))
    (Fp.result (xval w * 2 ^ 149 + xval x * xval y) 298 (negBit w && sign)) d (FNum.result false 0 a b)

def FNum.abs (a : FNum) : FNum := { a with v := if isNan a.v then a.v else build false ((flush a.v).toNat % 2 ^ 31) }

/-- An exact comparison; false with a NaN. -/
def FNum.lt (a b : FNum) : Bool := !isNan a.v && !isNan b.v && decide (xval a.v < xval b.v)
def FNum.le (a b : FNum) : Bool := !isNan a.v && !isNan b.v && decide (xval a.v ≤ xval b.v)
def FNum.eq (a b : FNum) : Bool := !isNan a.v && !isNan b.v && decide (xval a.v = xval b.v)

/-- Value is 0; a NaN is not. -/
def FNum.zero (a : FNum) : Bool := a.eq (FNum.of 0)

/-- The operand that MIN and MAX select; `second` when the second lies on the selected side (log 41). A NaN on the way to
either operand stays noted. -/
def FNum.select (second : Bool) (a b : FNum) : FNum :=
  if isNan a.v || isNan b.v then
    (if Config.lawMinNan || (isNan a.v && isNan b.v) then { v := 0, nan := true }
     else { (if isNan a.v then b else a) with nan := a.nan || b.nan })
  else { (if second || (a.zero && b.zero && !Config.lawMinZero) then b else a) with nan := a.nan || b.nan }

def FNum.min (a b : FNum) : FNum := FNum.select (b.lt a) a b
def FNum.max (a b : FNum) : FNum := FNum.select (a.lt b) a b

/-- `min(max(a, lo), hi)`. -/
def FNum.limit (lo hi a : FNum) : FNum := (a.max lo).min hi

def FNum.half : FNum := FNum.of 0x3F000000
def FNum.one : FNum := FNum.of 0x3F800000
def FNum.two : FNum := FNum.of 0x40000000
/-- The values nearest 1 ÷ √3, √3 ÷ 2 and 1 ÷ 3. -/
def FNum.invSqrt3 : FNum := FNum.of 0x3F13CD3A
def FNum.sqrt3Half : FNum := FNum.of 0x3F5DB3D7
def FNum.third : FNum := FNum.of 0x3EAAAAAB

/-- `c` lies within the error bound of R296 of the exact result n ÷ d, d above 0 (log 72). -/
def inBound (c : F32) (n d : Int) : Bool :=
  finite c && decide (((val c * d - n * 2 ^ 149).natAbs : Int) * 2 ^ 22 ≤ Max.max (n.natAbs : Int) d * 2 ^ 149)

/-- A result that the manual fixes within its bound: `c` where it keeps it, else the nearest value; past the largest
value that value (R296; log 72). -/
def bounded (c : F32) (n d : Int) : F32 :=
  let r := ofRat n d.toNat
  if inBound c n d && decide ((r.toNat % 2 ^ 31) < 0x7F7FFFFF) then flush c else flush r

/-- a ÷ b for b not 0. -/
def FNum.quot (a b : FNum) : FNum :=
  let x := flush a.v
  let y := flush b.v
  let n := if xval y < 0 then -(xval x) else xval x
  FNum.result (isNan x || isNan y || (isInf x && isInf y))
    (if isInf x then build (negBit x != negBit y) 0x7F7FFFFF
     else if isInf y then build (negBit x != negBit y) 0
     else bounded (Config.lawQuot x y) n (xval y).natAbs) a b

/-- π × 2²⁶⁰, rounded down. -/
def pi260 : Int := 0x3243f6a8885a308d313198a2e03707344a4093822299f31d0082efa98ec4e6c894

/-- The angle of a value in rad, between −π and π, in 2⁻⁸⁰. -/
def angle (x : F32) : Int :=
  let turn := pi260 / 2 ^ 50
  let r := val x * 2 ^ 60 % turn
  (if turn < 2 * r then r - turn else r) / 2 ^ 129

/-- Terms of the power series in t, all in 2⁻⁸⁰, from a term and its number on. -/
def series (tt : Int) : Nat → Nat → Int → Int
  | 0, _, _ => 0
  | fuel + 1, k, term => term + series tt fuel (k + 2) (-(term * tt / 2 ^ 80 / ((k + 1) * (k + 2) : Nat)))

def sinFix (x : F32) : Int := let t := angle x; series (t * t / 2 ^ 80) 30 1 t
def cosFix (x : F32) : Int := let t := angle x; series (t * t / 2 ^ 80) 30 0 (2 ^ 80)

/-- sin and cos of a value in rad. -/
def FNum.sin (a : FNum) : FNum :=
  FNum.result (!finite a.v) (bounded (Config.lawSin (flush a.v)) (sinFix (flush a.v)) (2 ^ 80)) a a
def FNum.cos (a : FNum) : FNum :=
  FNum.result (!finite a.v) (bounded (Config.lawCos (flush a.v)) (cosFix (flush a.v)) (2 ^ 80)) a a

end Sys2Proof.Fp
end

