-- ==== Sys2Proof/Machine/LawOps.lean ====
section
/-! DEFINITION. One step of the law engine: fetch, operands, results, STALE, the traps and the end of a program (R294 to
R297, R303 to R306, R308, R312, R321 to R325). -/

namespace Sys2Proof.Machine

open Sys2Proof.Bits
open Sys2Proof.Fp (FNum)

/-- What an instruction does besides its writes of data RAM. -/
inductive LawEffect where
  | none
  /-- OUT and SHARE, with the port or channel -/
  | out (port : Nat) (v : FNum)
  | share (ch : Nat) (v : FNum)
  | endp
  /-- OBS of a quantity: n has just reached nlim, is at nlim or above, is 0 -/
  | plaus (q : Nat) (hit ovr zero : Bool)
  /-- HOLD of a quantity: h is above 0, is 0, has just reached hs + 1 -/
  | held (q : Nat) (on zero expired : Bool)
  deriving DecidableEq, Repr

/-- The outcome of an instruction: words read, words written with their STALE bits in the order of its formula, the
condition bit, the instructions skipped, a limited index, and its effect. -/
structure LawResult where
  reads : List Nat
  puts : List (Nat × FNum × Bool)
  cond : Option Bool := none
  skip : Nat := 0
  clamp : Bool := false
  /-- an elementary result that no write carries was NaN (R296) -/
  met : Bool := false
  effect : LawEffect := .none
  deriving DecidableEq, Repr

/-- A word read as an operand: +0 when it is uncorrectable (R325). -/
def opd (s : State) (i : Nat) : FNum := let w := dget s i; FNum.of (if w.bad then 0 else Fp.flush w.v)

/-- STALE of an operand; an uncorrectable word reads as stale (R325; log 84). -/
def opdStale (s : State) (i : Nat) : Bool := let w := dget s i; w.stale || w.bad

/-- OR of the STALE bits of the data operands (R304). -/
def anyStale (s : State) (is : List Nat) : Bool := is.any (opdStale s)

/-- The law engine executes programs (R297). -/
def lawRunning (s : State) : Bool :=
  s.law.begun && !s.law.halted && !s.law.stopped && s.eng.state != .boot && s.eng.state != .down

/-- Instruction word at an address of program RAM. -/
def progWord (s : State) (i : Nat) : Nat := s.law.prog.getD i 0

/-- The law engine halts (R324): nothing of the sample is committed, and the heaters go low (R375). -/
def lawHalt (kind : TrapKind) (src : Nat) (s : State) : State :=
  let s := s.modLaw fun l =>
    { l with halted := true, restart := false, trapPc := l.pc, trapProg := l.due.headD 0, trapKind := kind, due := []
             outNew := [], shareNew := [], linkNew := [] }
  raise src (allHeatersLow s)

/-- A member put into a rising list. -/
def insertNat (a : Nat) : List Nat → List Nat
  | [] => [a]
  | b :: r => if a = b then b :: r else if a < b then a :: b :: r else b :: insertNat a r

/-- A value of a port or channel; of two in a sample the later one counts (R305). -/
def putPort {α : Type} (p : Nat) (v : α) (l : List (Nat × α)) : List (Nat × α) :=
  l.filter (fun x => x.1 != p) ++ [(p, v)]

/-- Memory errors that the instruction meets (R325). -/
def lawUpsets (x : LawExec) (s : State) : State :=
  s.modLaw fun l =>
    let l := x.upset.foldl (fun l i => dputL l i { sget DWord.zero l.data i with bad := true }) l
    { l with ce := sat 16 (l.ce + x.corrected) }

/-- A write of a result; NaN was written as +0 (R296). -/
def putNum (s : State) (w : Nat × FNum × Bool) : State := dput w.1 w.2.1.norm.v w.2.2 s

/-- The law engine's NAN bit and source, once for an instruction (R296). -/
def lawNan (r : LawResult) (s : State) : State :=
  let met := r.met || r.puts.any (fun w => w.2.1.norm.nan) ||
    (match r.effect with | .out _ v | .share _ v => v.norm.nan | _ => false)
  if met then raise 0x104 (setsBit 0x7004 4 <| s.modLaw fun l => { l with nan := true }) else s

/-- Uncorrectable reads (R325). -/
def lawReads (r : LawResult) (s0 s : State) : State :=
  (r.reads.filter (fun i => (dget s0 i).bad)).foldl
    (fun s _ => raise 0x103 (s.modLaw fun l => { l with dataUe := sat 8 (l.dataUe + 1) })) s

/-- Link updates that program `p` starts at its END (R312). -/
def linksOf (s : State) (p : Nat) : List LinkRun :=
  (s.img.lawLinks.filter (fun i => s.img.lkProg i = p)).map fun i =>
    let src := dget s (s.img.lkSrc i)
    { link := i, dest := s.img.lkDst i, x := (opd s (s.img.lkSrc i)).v, stale := src.stale || src.bad
      v := (opd s (s.img.lkDst i)).v, i := 0, steps := if s.img.lkMode i = 2 then s.img.prDiv p else 1 }

/-- Words that the link updates of program `p` read: sources, and the destinations of those in steps. -/
def linkReads (s : State) (p : Nat) : List Nat :=
  (s.img.lawLinks.filter (fun i => s.img.lkProg i = p)).flatMap fun i =>
    if s.img.lkMode i = 2 then [s.img.lkSrc i, s.img.lkDst i] else [s.img.lkSrc i]

/-- Values committed at the last END of a sample, unless a ramp stop keeps the outputs (R305, table "Ramp stop"). -/
def Law.commit (ramp : Bool) (l : Law) : Law :=
  let outs := if ramp then l.outPorts else l.outNew.foldl (fun o x => putPort x.1 x.2 o) l.outPorts
  { l with outPorts := outs, outNew := [], shareOut := if ramp then [] else l.shareNew, shareNew := []
           links := l.links.filter (fun a => !l.linkNew.any (fun b => b.link = a.link)) ++ l.linkNew, linkNew := []
           last := sat 16 l.cycles, peak := max l.peak (sat 16 l.cycles), due := [] }

/-- END (R305, R308, R312): the next program due starts with C at 0, or the sample is complete. -/
def endProgram (s : State) : State :=
  let runs := linksOf s (s.law.due.headD 0)
  let s := lawReads { reads := linkReads s (s.law.due.headD 0), puts := [] } s s
  let ramp := s.ramp.active
  let img := s.img
  let s := if s.law.due.length ≤ 1 then setsBit 0x7010 31 s else s
  s.modLaw fun l =>
    let l := { l with linkNew := l.linkNew ++ runs, c := false }
    match l.due.drop 1 with
    | [] => Law.commit ramp l
    | p :: r => { l with due := p :: r, pc := img.prEntry p }

/-- A supervised quantity's residual count (R319, R321). -/
def notePlaus (q : Nat) (hit ovr zero : Bool) (s : State) : State :=
  let new := hit && !s.law.plausEp.getLsbD q
  let bitq : BitVec 32 := 1#32 <<< q
  let s := s.modLaw fun l =>
    { l with plaus := if ovr then l.plaus ||| bitq else l.plaus &&& ~~~bitq
             plausEp := if zero then l.plausEp &&& ~~~bitq else if hit then l.plausEp ||| bitq else l.plausEp }
  if new then raise (0x110 + 2 * q) s else s

/-- A supervised quantity's hold count (R319, R321). -/
def noteHold (q : Nat) (on zero expired : Bool) (s : State) : State :=
  let new := expired && !s.law.holdEp.getLsbD q
  let bitq : BitVec 32 := 1#32 <<< q
  let s := s.modLaw fun l =>
    { l with hold := if on then l.hold ||| bitq else l.hold &&& ~~~bitq
             holdEp := if zero then l.holdEp &&& ~~~bitq else if expired then l.holdEp ||| bitq else l.holdEp }
  if new then raise (0x111 + 2 * q) s else s

/-- The supervised quantity of an OBS block (R319; log 73). -/
def quantity (q : FNum) : Nat :=
  let i := Fp.trunc q.v
  if !Fp.isNan q.v && !Fp.isInf q.v && decide (0 ≤ i ∧ i ≤ 31) && q.eq (FNum.of (Fp.ofRat i 1)) then i.toNat
  else Config.lawQuantity q.v % 32

/-- Blocks of the OBS instructions in program RAM. -/
def obsBlocks (s : State) : List Nat :=
  (s.law.prog.take s.img.lawN).filterMap fun w => match decodeLaw w with
    | some (.obs _ _ _ b) => some b
    | _ => none

/-- Quantities of the blocks for which `f` holds. -/
def quantitiesOf (s : State) (f : Nat → Bool) : BitVec 32 :=
  ((obsBlocks s).filter f).foldl (fun m b => m ||| (1#32 <<< quantity (opd s (b + 5)))) 0

/-- LAW_HOLD, LAW_PLAUS and the episodes after a write of data RAM (R319, R321). -/
def noteQuantities (s : State) : State :=
  let held := quantitiesOf s fun b => (FNum.of 0).lt (opd s (b + 10))
  let beyond := quantitiesOf s fun b => (opd s (b + 4)).le (opd s (b + 9))
  let counting := quantitiesOf s fun b => !(opd s (b + 9)).zero
  let holding := quantitiesOf s fun b => !(opd s (b + 10)).zero
  s.modLaw fun l => { l with hold := held, plaus := beyond, plausEp := l.plausEp &&& counting, holdEp := l.holdEp &&& holding }

/-- An instruction writes a word of an OBS block from which LAW_HOLD, LAW_PLAUS or an episode follows. -/
def supervises (s : State) (puts : List (Nat × FNum × Bool)) : Bool :=
  !puts.isEmpty && (obsBlocks s).any fun b => puts.any fun w => inR w.1 (b + 4) (b + 10)

/-- The effect of an instruction. SHARE sends only from the channel's sender (R306). -/
def lawEffect (e : LawEffect) (s : State) : State :=
  match e with
  | .none => s
  | .out p v => s.modLaw fun l => { l with outNew := putPort p v.norm.v l.outNew }
  | .share ch v =>
    if s.img.chanSender ch = some s.ring.index then s.modLaw fun l => { l with shareNew := putPort ch v.norm.v l.shareNew }
    else s
  | .endp => endProgram s
  | .plaus q hit ovr zero => notePlaus q hit ovr zero s
  | .held q on zero expired => noteHold q on zero expired s

/-- An instruction executed: its reads, writes, condition, cycles and effect; the instruction after it is next. -/
def lawRetire (word : Nat) (r : LawResult) (s : State) : State :=
  let s1 := r.puts.foldl putNum s
  let s1 := if supervises s1 r.puts then noteQuantities s1 else s1
  let s2 := s1.modLaw fun l =>
    { l with c := r.cond.getD l.c, clamp := l.clamp || r.clamp, cycles := l.cycles + lawCycles word
             pc := l.pc + 1 + r.skip }
  lawNan r (lawReads r s (lawEffect r.effect (if r.clamp then setsBit 0x7004 5 s2 else s2)))

/-- The comparator finds a difference after the instruction (R322): LAW_TRAP names it. -/
def lawDiffer (pc prog : Nat) (s : State) : State :=
  lawHalt .lockstep 0x100 (s.modLaw fun l => { l with pc := pc, due := [prog] })

/-- Nothing of the sample is committed after a difference (R324). -/
def LawResult.uncommitted (r : LawResult) : LawResult := if r.effect = .endp then { r with effect := .none } else r

/-- The law engine executes the instruction `c` of the program that runs, with outcome `f`. A command that is not the
instruction at the program counter does not occur (log 43). -/
def lawStep (x : LawExec) (c : Instr) (f : State → LawResult) (s : State) : State :=
  let pc := s.law.pc
  if s.law.due.isEmpty || !lawRunning s then s
  else if x.fetchBad || s.law.progBad.contains pc then
    lawHalt .fetch 0x101 (s.modLaw fun l => { l with progBad := insertNat pc l.progBad })
  else if decodeLaw (progWord s pc) != some c then s
  else
    let s := lawUpsets x s
    let r := f s
    if x.differ then lawDiffer pc (s.law.due.headD 0) (lawRetire (progWord s pc) r.uncommitted s)
    else lawRetire (progWord s pc) r s

end Sys2Proof.Machine
end

