-- ==== Sys2Proof/Machine/Spoil.lean ====
section
/-! DEFINITION. Spoiled-frame records, the spoil log and WASTE_L spans (R87 to R92). -/

namespace Sys2Proof.Machine

open Sys2Proof.Bits

/-- Records of the spoil log. -/
def spoilLogSize : Nat := 1024

/-- RANGE of a station: first and last spoiled line of a repetition. -/
def Prog.rangeAt (p : Prog) (n : Nat) : Option (Nat × Nat) :=
  match p.stations.find? (fun x => x.n = n) with
  | some x => x.spoil
  | none => none

/-- Mask of the stations with spoiled lines. -/
def rangeMask (r : Vector (Option (Nat × Nat)) 8) : BitVec 8 :=
  BitVec.ofNat 8 ((eight.filter fun n => (tab r none n).isSome).foldl (fun m n => m + 2 ^ n) 0)

/-- The record of one repetition. -/
def Prog.record (p : Prog) (seq : Nat) : SpoilRec :=
  let r : Vector (Option (Nat × Nat)) 8 := Vector.ofFn fun n => p.rangeAt n.val
  let c := p.cause.getD (0, 0, 0)
  { job := p.job, frameFirst := p.number, frameLast := p.number, stations := rangeMask r, cause := c.1, source := c.2.1,
    position := p.start, tick := c.2.2, seq := seq, late := p.late, merged := false, fromCairn := false, mixed := false,
    range := r, entries := [p.entry], jobs := [] }

/-- No station of the repetition has a line between its spoiled lines that is not spoiled. -/
def Prog.unbroken (p : Prog) : Bool := p.stations.all fun x => !x.gap

/-- Both conditions of R88: repetition `q` may join a record whose last repetition is `p`; FLAGS.LATE must agree (log 108), and
with CAUSE SOURCE (log 124). -/
def Prog.joins (p q : Prog) : Bool :=
  p.job = q.job && p.entry = q.entry && q.number = p.number + 1 && p.late = q.late && p.unbroken && q.unbroken &&
  (p.cause.map fun c => (c.1, c.2.1)) = (q.cause.map fun c => (c.1, c.2.1)) &&
  eight.all fun n =>
    match p.rangeAt n, q.rangeAt n with
    | none, none => true
    | some a, some b => a.2 + 1 = p.lines && b.1 = 0
    | _, _ => false

/-- RANGE from one record's first line to the next one's last line; where one names no line the other's stands
(R88, R91). -/
def joinRange (a b : Option (Nat × Nat)) : Option (Nat × Nat) :=
  match a, b with
  | some x, some y => some (x.1, y.2)
  | some x, none => some x
  | none, y => y

/-- A record with the next repetition taken in. -/
def SpoilRec.extend (r : SpoilRec) (q : Prog) : SpoilRec :=
  { r with frameLast := q.number, entries := r.entries ++ [q.entry],
           range := Vector.ofFn fun n => joinRange r.range[n] (q.rangeAt n.val) }

/-- The oldest outcome with every consecutive one that may share its record, and the outcomes left (R88). -/
def gather (r : SpoilRec) (p : Prog) : List Prog → SpoilRec × List Prog
  | [] => (r, [])
  | q :: rest => if p.joins q then gather (r.extend q) q rest else (r, q :: rest)

/-- Bytes of a record (table "Spoiled-frame record"). -/
def SpoilRec.bytes (r : SpoilRec) : List Byte :=
  toLE 4 r.job ++ toLE 4 r.frameFirst ++ toLE 4 r.frameLast ++ toLE 1 r.stations.toNat ++ toLE 1 r.cause ++
  toLE 2 r.source ++ toLE 8 (unsigned 64 r.position) ++ toLE 8 r.tick ++ toLE 4 r.seq ++
  toLE 1 (b2n r.late + 2 * b2n r.merged + 4 * b2n r.fromCairn + 8 * b2n r.mixed) ++ List.replicate 11 0 ++
  r.range.toList.flatMap fun x => match x with
    | some (a, b) => toLE 3 a ++ toLE 3 b
    | none => toLE 3 0xFFFFFF ++ toLE 3 0xFFFFFF

/-- A new record merged into the newest of the same job (R91). -/
def SpoilRec.mergeSame (old new : SpoilRec) : SpoilRec :=
  { old with frameLast := new.frameLast, stations := old.stations ||| new.stations, merged := true,
             range := Vector.ofFn fun n => joinRange old.range[n] new.range[n],
             entries := old.entries ++ new.entries, jobs := old.jobs ++ new.jobs }

/-- The whole range at each station of a mask. -/
def fullRange (m : BitVec 8) : Vector (Option (Nat × Nat)) 8 :=
  Vector.ofFn fun n => if m.getLsbD n.val then some (0, 0xFFFFFE) else none

/-- A new record merged into the newest of any job (R91). -/
def SpoilRec.mergeMixed (old new : SpoilRec) : SpoilRec :=
  { old with stations := old.stations ||| new.stations, merged := true, mixed := true,
             range := fullRange (old.stations ||| new.stations), entries := old.entries ++ new.entries,
             jobs := old.jobs ++ (new.job :: new.jobs) }

/-- The last entry that satisfies `f`, updated; none when none does. -/
def updLast {α : Type} (f : α → Bool) (g : α → α) : List α → Option (List α)
  | [] => none
  | a :: r => match updLast f g r with
    | some r' => some (a :: r')
    | none => if f a then some (g a :: r) else none

/-- The log with a record that finds it full. -/
def mergeInto (l : List SpoilRec) (r : SpoilRec) : List SpoilRec :=
  match updLast (fun x => x.job = r.job) (fun x => x.mergeSame r) l with
  | some l => l
  | none => (updLast (fun _ => true) (fun x => x.mergeMixed r) l).getD l

/-- SPOIL_LOG_LOW: 64 or fewer records are free (R91). -/
def spoilCheck (s : State) : State :=
  let low := decide (spoilLogSize ≤ s.jobs.spoil.length + 64)
  condSet 0x1F3 low s

/-- A record is posted with event SPOIL, merged when the log is full (R88, R91). -/
def postRecord (r : SpoilRec) (s : State) : State :=
  let s :=
    if s.jobs.spoil.length < spoilLogSize then
      s.modJobs fun j => { j with spoil := j.spoil ++ [{ r with seq := j.spoilSeq }], spoilSeq := j.spoilSeq + 1 }
    else setsBit 0x1008 12 <| s.modJobs fun j => { j with spoil := mergeInto j.spoil r, spoilMerged := true }
  spoilCheck (postEvent .spoil (s.jobs.spoilSeq - 1) s)

/-- The record of R90 for one JOB entry of a cairn record. -/
def cairnRec (r : List Byte) (i : Nat) (tick : Nat) : SpoilRec :=
  let o := 64 + 24 * i
  let st := BitVec.ofNat 8 (byteAt r (396 + i))
  { job := u32 r o, frameFirst := u32 r (o + 4), frameLast := u32 r (o + 8), stations := st, cause := 0x07,
    source := 0x010, position := signed 64 (le r (o + 16) 8), tick := tick, seq := 0, late := false, merged := false,
    fromCairn := true, mixed := false, range := fullRange st, entries := [], jobs := [] }

/-- At the first entry to IDLE after a power failure, one record for each job of the cairn record (R90). -/
def postCairnRecords (s : State) : State :=
  if !s.boot.fromCairn then s
  else
    let s := s.modBoot fun b => { b with fromCairn := false }
    match s.pers.cairnSlot with
    | none => s
    | some k =>
      let r := s.pers.cairn.getD k []
      ((List.range 8).filter fun i => u32 r (64 + 24 * i) != 0).foldl
        (fun s i => postRecord (cairnRec r i (le r 12 8)) s) s

/-- First and last web position, as follower positions at the marker, of a spoiled repetition: the whole frame from F in
WASTE_MODE 0, the spoiled lines of all stations in WASTE_MODE 1 (R92). -/
def wasteSpan (s : State) (p : Prog) : Int × Int :=
  let base := p.start + s.host.wasteDelay
  let spans := p.stations.filterMap (·.spoil)
  if s.host.wasteMode then
    (base + minI 0 (spans.map fun r => (r.1 : Int)), base + maxI 0 (spans.map fun r => (r.2 : Int)))
  else (base, base + (p.lines : Int) - 1)

/-- SPOIL_RECORD_POST (R88): the oldest final outcome, with the consecutive ones that share its record, is posted. -/
def execSpoilRecordPost (s : State) : Host.Outcome State Fault Refusal :=
  match s.jobs.outcome with
  | [] => .next s
  | p :: rest =>
    let (r, left) := gather (p.record 0) p rest
    let spans := ((p :: rest).take (rest.length + 1 - left.length)).map (wasteSpan s)
    .next (postRecord r (s.modJobs fun j => { j with outcome := left, waste := j.waste ++ spans }))

/-- Spans of every repetition with spoiled lines that the controller still holds, and of those that have ended. -/
def wasteSpans (s : State) : List (Int × Int) :=
  s.jobs.waste ++ ((s.jobs.prog ++ s.jobs.outcome).filter (·.cause.isSome)).map (wasteSpan s)

/-- A spoiled line passes the marker. -/
def wasteDue (s : State) : Bool := (wasteSpans s).any fun r => decide (r.1 ≤ s.line ∧ s.line ≤ r.2)

/-- WASTE_MARKER (R92): WASTE_L falls while a spoiled span passes the marker (log 80). -/
def execWasteMarker (s : State) : Host.Outcome State Fault Refusal :=
  if wasteDue s && s.jobs.wasteLow.isNone then .next (s.modJobs fun j => { j with wasteLow := some false }) else .next s

/-- WASTE_MIN_EXPIRY (R92): WASTE_L rises once the span has passed; while a span passes it stays low (log 80). -/
def execWasteMinExpiry (s : State) : Host.Outcome State Fault Refusal :=
  if s.jobs.wasteLow.isNone then .next s
  else if wasteDue s then .next (s.modJobs fun j => { j with wasteLow := some true })
  else .next (s.modJobs fun j => { j with wasteLow := none, waste := j.waste.filter fun r => decide (s.line ≤ r.2) })

end Sys2Proof.Machine
end

