-- ==== Sys2Proof/Machine/PowerOps.lean ====
section
/-! DEFINITION. Rails, PMBus commands, SEQ blocks and the slots of the power-up and shut-down sequences (R408, R434,
R436 to R443). -/

namespace Sys2Proof.Machine

open Sys2Proof.Bits

/-- A margin word goes out unless it is 0. -/
def pmbWord (n code w : Nat) (s : State) : State := if w = 0 then s else pmbSend n code (some w) s

/-- PMBus preparation of a rail at power-up (table "Power-up in step 8", step 3). -/
def pmbPrepare (n : Nat) (s : State) : State :=
  pmbWord n 0x26 (s.img.marginLow n) (pmbWord n 0x25 (s.img.marginHigh n) (pmbSend n 0x03 none s))

/-- RAIL_ENn goes high, with TRIM at TRIM_NOM. -/
def railOn (n : Nat) (s : State) : State :=
  let s := match s.img.railTrim n with
    | some t => s.modPwr fun p => { p with trim := updAt p.trim t fun _ => s.img.trimNom n
                                           trimTo := updAt p.trimTo t fun _ => s.img.trimNom n }
    | none => s
  let now := s.eng.sincePor
  s.modPwr fun p => { p with en := p.en ||| (1#12 <<< n), switched := updAt p.switched n fun _ => now }

/-- RAIL_ENn goes low. -/
def railOff (n : Nat) (s : State) : State :=
  let now := s.eng.sincePor
  s.modPwr fun p => { p with en := p.en &&& ~~~(1#12 <<< n), switched := updAt p.switched n fun _ => now }

/-- The rail's discharge is sensed: mode 1 with a PMBus address, and mode 2 (R434). -/
def railSensed (s : State) (n : Nat) : Bool := s.img.pgMode n = 2 || (s.img.pgMode n = 1 && s.img.pmbAddr n != 0)

/-- `ms` have passed since rail `n` was switched. -/
def railAfter (s : State) (n ms : Nat) : Bool := decide (tab s.pwr.switched 0 n + 100000 * ms ≤ s.eng.sincePor)

/-- The VCP last reported lies above PF_VCP + 0.3 V (R431). -/
def vcpNow (s : State) : Bool := decide (s.img.pfVcp + 3 < s.pwr.vcp)

/-- Used rails of an on-slot, and of an off-slot. -/
def onRails (s : State) (k : Nat) : List Nat := s.img.rails.filter fun n => s.img.onSlot n = k
def offRails (s : State) (k : Nat) : List Nat := s.img.rails.filter fun n => s.img.offSlot n = k

/-- Slaves marked required, with a bit each (R409, R442). -/
def requiredSlaves (s : State) : List Nat := (List.range 32).filter fun i => i != s.ring.index && s.img.ctrlUse i = 1

/-- Slaves that a shut-down waits for: the required ones, and the optional ones that enumeration found (R410, R443;
log 111). -/
def shutSlaves (s : State) : List Nat :=
  (List.range 32).filter fun i => i != s.ring.index &&
    (s.img.ctrlUse i = 1 || (s.img.ctrlUse i = 2 && (tab s.ring.ctrl RingNode.reset i).present))

/-- The upper ports of a press have trained, one at least (R48). -/
def upperTrained (s : State) : Bool :=
  decide (s.img.controllers ≤ 1) || [0, 1].any fun p => (tab s.ring.port RingPort.reset p).up

/-- This controller is the sequencing master of a press (section "Sequencing several controllers"). -/
def isMaster (s : State) : Bool := s.ring.index = 0
def isSlave (s : State) : Bool := decide (1 < s.img.controllers) && s.ring.index != 0

/-- A control block: its type byte and 7 payload bytes (R384). -/
def controlBlock (type : Nat) (payload : List Byte) : RingBlock :=
  { control := true, bytes := (toLE 1 type ++ payload ++ List.replicate 7 0).take 8 }

/-- SEQ as a control block (table "Ring control blocks"). -/
def seqRingBlock (b : SeqBlock) : RingBlock :=
  controlBlock 0x55 (toLE 1 b.command ++ toLE 1 b.railSlot ++ toLE 1 b.source ++ toLE 1 b.target ++ toLE 2 b.number)

/-- A SEQ block out of every upper port that is up (R408), while the ring part of PD6 is on (R53). -/
def sendSeqBlock (b : SeqBlock) (s : State) : State :=
  let ps := [0, 1].filter fun p => (tab s.ring.port RingPort.reset p).up && !s.pwr.pciePart
  s.modRing fun r => { r with seqOut := r.seqOut ++ ps.map fun p => (p, seqRingBlock b) }

/-- A SEQ block of this controller's own. -/
def sendSeq (command slot target : Nat) (s : State) : State :=
  let b : SeqBlock := { command := command, railSlot := slot, source := s.ring.index, target := target,
                        number := s.ring.seqNext }
  sendSeqBlock b (s.modRing fun r => { r with seqNext := (r.seqNext + 1) % 65536 })

/-- Steps go out from the master of a press. -/
def sendStep (command slot : Nat) (s : State) : State :=
  if isMaster s && decide (1 < s.img.controllers) then sendSeq command slot 0xFF s else s

/-- Every required slave has a bit. -/
def allAcked (s : State) (acks : BitVec 32) : Bool := (requiredSlaves s).all fun i => acks.getLsbD i

/-- Step 1 of the table "Power-up in step 8" has ended: the RING and PCIe PLLs are locked, the links are trained (R48), and VCP is
good (R431). -/
def slotsReady (s : State) : Bool :=
  (tab s.clk.pll Pll.reset 5).locked && (tab s.clk.pll Pll.reset 6).locked && s.boot.linkTrained && upperTrained s && vcpNow s

/-- The rails of a power-up slot are all good. -/
def railsGood (s : State) (k : Nat) : Bool := (onRails s k).all fun n => s.pwr.good.getLsbD n

/-- The power-up slot has ended: own rails good, and on the master every required slave has acknowledged (R442). -/
def upSlotDone (s : State) (u : PowerUp) : Bool :=
  u.enabled && railsGood s u.slot && (!isMaster s || s.img.controllers = 1 || allAcked s u.acks)

/-- The rails of on-slot `k` are prepared and enabled. -/
def enableSlot (k : Nat) (s : State) : State :=
  let s := (onRails s k).foldl (fun s n => pmbPrepare n s) s
  let s := (onRails s k).foldl (fun s n => railOn n s) s
  s.modPwr fun p => { p with up := some { slot := k, compared := true, enabled := true, acks := 0, owed := p.up.bind (·.owed) } }

/-- A slave owes an acknowledgement of its power-up slot and sends it once the rails are good (R442). -/
def ackUp (s : State) : State :=
  match s.pwr.up with
  | none => s
  | some u =>
    match u.owed with
    | none => s
    | some k =>
      if u.enabled && railsGood s u.slot then
        sendSeq 0x81 k 0 (s.modPwr fun p => { p with up := some { u with owed := none } })
      else s

/-- After the last slot the remaining domains reach operation, and the sequence ends (R436, step 4). -/
def domainsOperate (s : State) : State :=
  let s := s.modStore fun t => { t with lapStart := s.eng.sincePor }
  s.modPwr fun p => { p with up := none, domain := [8, 4, 3, 5, 7, 2].foldl (fun v d => updAt v d fun _ => 2) p.domain }

/-- No rail of the off-slot is waited for. -/
def offSlotEmpty (s : State) (d : ShutDown) : Bool := (offRails s d.slot).all fun n => !d.wait.getLsbD n

/-- The shut-down slot has ended. A master that shuts the press down waits for its slaves (R443). -/
def downSlotDone (s : State) (d : ShutDown) : Bool :=
  d.begun && offSlotEmpty s d && (d.cause != .host || !isMaster s || s.img.controllers ≤ 1 ||
    (shutSlaves s).all fun i => d.acks.getLsbD i)

/-- Off-slot `k` begins: its rails go off. -/
def disableSlot (k : Nat) (d : ShutDown) (s : State) : State :=
  let s := (offRails s k).foldl (fun s n => railOff n s) s
  let s := s.modPwr fun p => { p with down := some { d with slot := k, begun := true, acks := 0 } }
  if d.cause = .host then sendStep 0x02 k s else s

/-- A slave acknowledges the shut-down slot that it has run (R443). -/
def ackDown (s : State) : State :=
  match s.pwr.down with
  | none => s
  | some d =>
    match d.owed with
    | none => s
    | some k =>
      if d.begun && offSlotEmpty s d then
        sendSeq 0x81 k 0 (s.modPwr fun p => { p with down := some { d with owed := none } })
      else s

/-- An active condition source whose reaction is SAFE. -/
def safeActive (s : State) : Bool := s.flt.active.sources.any fun x => codeOf s x 0 = 8

/-- FAULT_CLEAR may leave SAFE (R27). -/
def mayLeaveSafe (s : State) : Bool := !s.flt.sto.active && !s.flt.estop.active && !safeActive s

/-- Step at which the boot restarts (R54). -/
def restartStep (b : Boot) : Nat := if b.step < 5 then b.step else 5

/-- Boot registers at a restart (R56). FAULT_TABLE holds only until then (R425). -/
def Boot.again (b : Boot) : Boot :=
  let k := restartStep b
  { b with step := k, fail := .none, sectionCode := 0, item := 0, restart := false, run := b.run + 1
           sections := b.sections.filter fun x => x.ty != 0x0E
           ends := Vector.ofFn fun i => if i.val + 1 < k then b.ends[i] else 0 }

/-- Row 26: BOOT again (R54). -/
def safeToBoot (s : State) : State :=
  inhibitEnded s <| enterState 0 .boot 0x0C ((s.modBoot Boot.again).modEng fun e => { e with bootFail := false })

/-- Step 4 of the shut-down sequence. After a boot failure no tail is written, PD1, PD9 and the PCIe part of PD6 stay on (R53, R438), and
a restart that an accepted FAULT_CLEAR asked for takes place (R54, log 52). -/
def shutDownComplete (d : ShutDown) (s : State) : State :=
  let d := { d with done := true, endTick := s.now }
  if d.cause = .bootFail then
    let s := s.modPwr fun p => { p with down := some d, pciePart := true }
    if s.boot.restart && s.eng.state = .safe && mayLeaveSafe s then safeToBoot s
    else s.modBoot fun b => { b with restart := false }
  else domainsOff [6, 9, 1] (writeTail (cairnTail d s) (s.modPwr fun p => { p with down := some d }))

/-- A shut-down sequence runs. -/
def downActive (s : State) : Bool := s.pwr.down.any fun d => !d.done

end Sys2Proof.Machine
end

