-- ==== Sys2Proof/Machine/Power.lean ====
section
/-! DEFINITION. Power: the rail slots of step 8 and of the shut-down sequence, power failure, hold-up, margins and
PMBus (chapter 15). -/

namespace Sys2Proof.Machine

open Sys2Proof.Bits

/-- HOLDUP_LOW is raised, and PWR_HOLD.LOW set (R445). -/
def holdupLow (s : State) : State := raise 0x014 (setsBit 0xC00C 17 <| s.modPwr fun p => { p with low := true })

/-- The master, or a controller alone, begins on-slot `k` (R436, R442). -/
def startSlot (k : Nat) (s : State) : State := enableSlot k (sendStep 0x01 k s)

/-- The comparison that opens the rail sequence, once in it (step 2 of the table "Power-up in step 8", R445). -/
def compareHold (s : State) : State :=
  if s.pwr.up.any (·.compared) then s else if s.pwr.cMeas < s.img.holdCMin then holdupLow s else s

/-- The comparison and slot 0; a slave waits for the master's step (R442, R445). -/
def startSlots (s : State) : State :=
  let s := compareHold s
  if isSlave s then
    s.modPwr fun p => { p with up := some { slot := 0, compared := true, enabled := false, acks := 0, owed := none } }
  else startSlot 0 s

/-- A slave runs the power-up step that its master has sent, and owes the acknowledgement until the rails are good (R442). -/
def takeStep (slot : Nat) (s : State) : State :=
  let s := enableSlot slot (compareHold s)
  ackUp (s.modPwr fun p => { p with up := p.up.map fun u => { u with owed := some slot } })

/-- POWER_UP_SLOT (R436): slot 0 once the links are trained and VCP is good (R431, R48), each next slot once the one before has
ended, and the domains after the last. A slave then runs a step that came before. -/
def execPowerUpSlot (s : State) : Host.Outcome State Fault Refusal :=
  if s.eng.state != .boot || s.boot.step != 8 then .next s
  else
    match s.pwr.up with
    | none => .next (if slotsReady s && tab s.pwr.domain 0 4 != 2 then startSlots s else s)
    | some u =>
      if !u.enabled then
        match u.owed with
        | some k => .next (if slotsReady s then takeStep k s else s)
        | none => .next s
      else if !upSlotDone s u then .next s
      else if s.img.slots ≤ u.slot + 1 then .next (domainsOperate s)
      else .next (if isSlave s then s else startSlot (u.slot + 1) s)

/-- Rail `n` is good. -/
def railGood (n : Nat) (s : State) : State := ackUp (s.modPwr fun p => { p with good := p.good ||| (1#12 <<< n) })

/-- RAIL_POWER_GOOD (R434): an enabled rail becomes good; one without a sense does so PG_TMO after its enable (log 116). -/
def execRailPowerGood (n : Fin 12) (s : State) : Host.Outcome State Fault Refusal :=
  if s.img.railUse n && s.pwr.en.getLsbD n && (s.img.pgMode n != 0 || railAfter s n (s.img.pgTmo n)) then .next (railGood n s)
  else .next s

/-- POWER_SEQ_TIMEOUT (R434, R436): PG_TMO after its enable a rail without a sense counts as good, and any other that is not good
ends the boot. -/
def execPowerSeqTimeout (n : Fin 12) (s : State) : Host.Outcome State Fault Refusal :=
  let due := s.pwr.up.any fun u => u.enabled && s.img.onSlot n = u.slot
  if s.eng.state = .boot && due && s.img.railUse n && s.pwr.en.getLsbD n && !s.pwr.good.getLsbD n then
    .next (if s.img.pgMode n = 0 then railGood n s else bootFail .powerSeq n s)
  else .next s

/-- The next off-slot, or the end of the sequence. -/
def nextOffSlot (k : Nat) (d : ShutDown) (s : State) : State :=
  if k < s.img.slots then disableSlot k d s else shutDownComplete d s

/-- SHUT_DOWN_SLOT (R438, R443): the next off-slot begins, and after the last the sequence ends. A slave that follows its
master takes its slots from the steps it receives. -/
def execShutDownSlot (s : State) : Host.Outcome State Fault Refusal :=
  match s.pwr.down with
  | none => .next s
  | some d =>
    if d.done || s.pwr.writing.isSome then .next s
    else if d.cause = .masterStep then
      .next (if downSlotDone s d && s.img.slots ≤ d.slot + 1 then shutDownComplete d s else s)
    else if !d.begun then .next (nextOffSlot d.slot d s)
    else .next (if downSlotDone s d then nextOffSlot (d.slot + 1) d s else s)

/-- Rail `n` is no longer waited for, and is not good. -/
def railDown (n : Nat) (d : ShutDown) (s : State) : State :=
  ackDown (s.modPwr fun p => { p with good := p.good &&& ~~~(1#12 <<< n)
                                      down := some { d with wait := d.wait &&& ~~~(1#12 <<< n) } })

/-- RAIL_DISCHARGED (R434): a disabled rail is discharged; in mode 1 a READ_VOUT has shown it, and one without a sense counts as
discharged DIS_TMO after its disable (log 116). -/
def execRailDischarged (n : Fin 12) (s : State) : Host.Outcome State Fault Refusal :=
  match s.pwr.down with
  | none => .next s
  | some d =>
    if d.done || s.pwr.en.getLsbD n || !(railSensed s n || railAfter s n (s.img.disTmo n)) then .next s
    else .next (railDown n d (if s.img.pgMode n = 1 then pmbSend n 0x8B none s else s))

/-- RAIL_DISCHARGE_TIMEOUT (R434, R439): a sensed rail is marked no-discharge, any other counts as discharged. -/
def execRailDischargeTimeout (n : Fin 12) (s : State) : Host.Outcome State Fault Refusal :=
  match s.pwr.down with
  | none => .next s
  | some d =>
    if d.done || !d.begun || !d.wait.getLsbD n || !decide (s.img.offSlot n ≤ d.slot) || !s.img.railUse n then .next s
    else
      let sensed := railSensed s n
      let s := railDown n (if sensed then { d with noDis := d.noDis ||| (1#12 <<< n.val) } else d) s
      .next (if sensed then
        raise 0x013 (setsBit 0xC008 (12 + n) <| s.modPwr fun p => { p with noDischarge := p.noDischarge ||| (1#12 <<< n.val) })
      else s)

/-- A rail stops being good before its own off-slot (R439). -/
def earlyOff (n : Nat) (d : ShutDown) (s : State) : State :=
  raise 0x012 (railDown n { d with early := d.early ||| (1#12 <<< n) } (setsBit 0xC008 n <| s.modPwr fun p => { p with earlyOff := p.earlyOff ||| (1#12 <<< n) }))

/-- STATUS_WORD is read from a rail and logged; no command carries the answer, a free value (R444; log 117). -/
def readRailStatus (n : Nat) (s : State) : State :=
  let a := s.img.pmbAddr n
  if a = 0 then s
  else
    let w := Config.freeNat s.freeCtr % 65536
    (pmbSend n 0x79 none (s.modPwr fun p => { p with pmbLog := p.pmbLog ++ [(a, w)] })).useFree

/-- RAIL_POWER_GOOD_LOSS (R439, R444): early-off in a shut-down sequence, RAIL_PG_LOST outside a sequence. STATUS_WORD is
read from the rail. -/
def execRailPowerGoodLoss (n : Fin 12) (s : State) : Host.Outcome State Fault Refusal :=
  if !s.img.railUse n || !s.pwr.good.getLsbD n then .next s
  else
    let s := readRailStatus n (s.modPwr fun p => { p with good := p.good &&& ~~~(1#12 <<< n.val) })
    match s.pwr.down with
    | some d =>
      if !d.done then
        .next (if d.slot < s.img.offSlot n || (!d.begun && s.img.offSlot n = d.slot) then earlyOff n d s else s)
      else .next (if s.pwr.up.isNone && s.pwr.en.getLsbD n then raise 0x011 s else s)
    | none => .next (if s.pwr.up.isNone && s.pwr.en.getLsbD n then raise 0x011 s else s)

/-- POWER_FAIL (R446): the armed detection fires on VDD_3V3, or on VCP once it has been good. A second input that fails in the
same tick adds its bit to TRIGGER (R448). -/
def execPowerFail (vcpLow vddLow : Bool) (vcpDv vddCv : Nat) (s : State) : Host.Outcome State Fault Refusal :=
  let byVcp := vcpLow && s.pwr.vcpGood
  let trigger := b2n byVcp + 2 * b2n vddLow
  if !s.pwr.armed || !(byVcp || vddLow) then .next s
  else if s.pwr.writing.isSome then .next (if powerFails s then addTrigger trigger s else s)
  else
    let s := s.modPwr fun p => { p with vcp := vcpDv, vdd := some vddCv, vcpSince := if vcpLow then none else p.vcpSince }
    .next (raiseWith 0x010 0 trigger s)

/-- HOLD_UP_MEASUREMENT (R445): C_MEAS = 50 mA × t ÷ 4.0 V, in 0.1 µF; only the first rise counts. -/
def execHoldUpMeasurement (us : Nat) (s : State) : Host.Outcome State Fault Refusal :=
  if s.pwr.cMeas != 0 then .next s
  else .next (s.modPwr fun p => { p with cMeas := min 1000 (us / 8), vhold := 80 })

/-- HOLDUP_LOW (R445). -/
def execHoldupLow (s : State) : Host.Outcome State Fault Refusal := .next (holdupLow s)

/-- POWER_FAIL_ARMING (R446): once step 2 has ended. VHOLD has settled at VCP − 0.3 V (R432), or is 8.0 V at least. -/
def execPowerFailArming (s : State) : Host.Outcome State Fault Refusal :=
  if s.boot.step ≤ 2 then .next s
  else .next (s.modPwr fun p => { p with armed := true, vhold := max 80 (min 255 (p.vcp - 3)) })

/-- TRIM code of rail `n` for a margin mode. -/
def trimCode (s : State) (n mode : Nat) : Nat :=
  match mode with | 0 => s.img.trimNom n | 1 => s.img.trimHigh n | _ => s.img.trimLow n

/-- OPERATION byte of a margin mode (R444). -/
def operationByte (mode : Nat) : Nat := match mode with | 0 => 0x80 | 1 => 0xA8 | _ => 0x98

/-- The MODE field of one rail; 3 is discarded. -/
def marginRail (value n : Nat) (s : State) : State :=
  let m := field value (2 * n + 1) (2 * n)
  if m = 3 || m = tab s.pwr.margin 0 n then s
  else
    let s := s.modPwr fun p => { p with margin := updAt p.margin n fun _ => m }
    if !s.img.railUse n then s
    else
      let s := pmbSend n 0x01 (some (operationByte m)) s
      match s.img.railTrim n with
      | some t => s.modPwr fun p => { p with trimTo := updAt p.trimTo t fun _ => trimCode s n m }
      | none => s

/-- A write of PWR_MARGIN, discarded outside IDLE and SERVICE (R6, R444). -/
def writeMargin (value : Nat) (s : State) : State :=
  if s.eng.state = .idle || s.eng.state = .service then (List.range 12).foldl (fun s n => marginRail value n s) s else s

/-- MARGIN_WRITE (R444). -/
def execMarginWrite (value : Word) (s : State) : Host.Outcome State Fault Refusal :=
  .next (if regOpen 0 s then writeMargin value.toNat s else s)

/-- One LSB towards a code. -/
def stepTowards (t v : Nat) : Nat := if v < t then v + 1 else if t < v then v - 1 else v

/-- TRIM_STEP (R444): 1 LSB towards the code. -/
def execTrimStep (t : Fin 4) (s : State) : Host.Outcome State Fault Refusal :=
  .next (s.modPwr fun p => { p with trim := upd p.trim t (stepTowards p.trimTo[t]) })

/-- PMBUS_ERROR (R444): kind 0 a NACK, 1 a PEC mismatch, 2 PMB_ALERT_L low for 1 ms. -/
def execPmbusError (kind : Fin 3) (addr : BitVec 7) (s : State) : Host.Outcome State Fault Refusal :=
  let s := s.modPwr fun p =>
    if kind.val = 0 then { p with pmbAddr := addr.toNat, nacks := sat 8 (p.nacks + 1) }
    else if kind.val = 1 then { p with pmbAddr := addr.toNat, pecErr := sat 8 (p.pecErr + 1) }
    else { p with pmbAlert := true }
  .next (raise 0x015 s)

/-- PMB_ALERT_FALL (R444): STATUS_WORD is read from every rail with a PMBus address, and logged. -/
def execPmbAlertFall (status : List (BitVec 7 × BitVec 16)) (s : State) : Host.Outcome State Fault Refusal :=
  let s := s.modPwr fun p => { p with pmbAlert := true }
  let s := s.img.rails.foldl (fun s n => pmbSend n 0x79 none s) s
  .next (s.modPwr fun p => { p with pmbLog := p.pmbLog ++ status.map fun x => (x.1.toNat, x.2.toNat) })

/-- VCP_GOOD (R431, R446): VCP lies above PF_VCP + 0.3 V, and VHOLD settles at VCP − 0.3 V (R432). In a shut-down sequence an
input has returned (logs 92, 118). -/
def execVcpGood (dV : Nat) (s : State) : Host.Outcome State Fault Refusal :=
  let good := decide (s.img.pfVcp + 3 < dV)
  let now := s.now
  .next (s.modPwr fun p =>
    { p with vcp := dV, vcpGood := p.vcpGood || good, vhold := min 255 (dV - 3)
             vcpSince := if good then p.vcpSince.or (some now) else none
             down := p.down.map fun d => { d with returned := d.returned || (!d.done && good) } })

end Sys2Proof.Machine
end

