-- ==== Sys2Proof/Machine/BootOps.lean ====
section
/-! DEFINITION. The boot's shared operations: steps and their ends, the image walk, loading sections, the checks at the
end of step 7, and the end of the boot (chapter 02). -/

namespace Sys2Proof.Machine

open Sys2Proof.Bits Sys2Proof.Crypto

/-- Step `k` of the boot is in progress. -/
def inStep (s : State) (k : Nat) : Bool := s.eng.state = .boot && s.boot.step = k

/-- Step `k` ends: its BOOT_STEP_END in µs, and the next step. -/
def endStep (k : Nat) (s : State) : State :=
  s.modBoot fun b => { b with ends := updAt b.ends (k - 1) fun _ => s.eng.sincePor / 100 % 2 ^ 32, step := k + 1 }

/-- A domain off comes on in its load state (R47). -/
def setLoad (d : Nat) (s : State) : State :=
  s.modPwr fun p => { p with domain := updAt p.domain d fun v => if v = 0 then 1 else v, pciePart := p.pciePart && d != 6 }

def setOperate (d : Nat) (s : State) : State :=
  s.modPwr fun p => { p with domain := updAt p.domain d fun _ => 2, pciePart := p.pciePart && d != 6 }

/-- The header of the selected slot, and of the other one. -/
def bootHdr (s : State) : List Byte := if s.boot.slot = 0 then s.boot.hdr0 else s.boot.hdr1
def otherHdr (s : State) : List Byte := if s.boot.slot = 0 then s.boot.hdr1 else s.boot.hdr0

/-- First list of R37. -/
def headerOk (h : List Byte) : Bool :=
  h.length = 64 && u32 h 60 = crc32c (h.take 60) && h.take 4 = [0x48, 0x47, 0x53, 0x49] && u16 h 4 = 1 && u16 h 6 = 64 &&
  u32 h 24 = 0x8150 && u32 h 8 % 16 = 0 && inR (u32 h 8) 80 4194304 && inR (u16 h 12) 4 64 && inR (byteAt h 14) 1 2 &&
  inR (byteAt h 15) 0 31 && zeros h 23 1 && zeros h 36 24 && decide (u32 h 32 < 2)

/-- A header read that holds only 0x00 or only 0xFF, or that was not made. -/
def headerBlank (h : List Byte) : Bool := h.all (· == 0) || h.all (· == 0xFF)

def imageLen (s : State) : Nat := u32 (bootHdr s) 8

/-- Payload length rounded up to 16 bytes. -/
def padded (n : Nat) : Nat := (n + 15) / 16 * 16

/-- A station at reset values, its interlock condition kept. -/
def Expo.restart (e : Expo) : Expo :=
  { Expo.reset with blank := { Expo.reset.blank with conds := e.blank.conds.filter fun c => c.kind = .interlock || c.kind = .laser } }

/-- What PD7 measures is unknown while it is off: its conditions end (log 86). -/
def supplyUnknown (s : State) : State := condOff 0x068 (condOff 0x069 (condOff 0x06A (condOff 0x06B s)))

/-- Units of PD2 to PD5, PD7 and PD8, the ring and stage parts of PD6, and what the sections of other units load, at reset
values; input levels are kept (R7, R38, R504; log 86). -/
def resetUnits (s : State) : State :=
  { supplyUnknown s with
           spBus := SpBus.reset, bus := each 4 DcBus.reset, rope := each 32 Rope.reset, drawLim := false
           law := Law.reset, dec := each 8 Decoder.reset, store := { Store.reset with retired := s.store.retired },
           anch := { s.anch with src := 0 }
           host := { s.host with wasteDelay := 0, wasteMode := false, wasteMin := 0 }
           aux := s.aux.map fun a => { a with speed := 0, accel := 0 }
           expo := s.expo.map Expo.restart, sp := each 8 Spindle.reset, scan := each 8 Scan.reset,
           stage := s.stage.map fun l => { StageLink.reset with pair := l.pair, inh := l.inh, inhHeld := l.inhHeld }
           ring := { Ring.reset with index := s.ring.index, seqSeen := s.ring.seqSeen, seqNext := s.ring.seqNext } }

/-- PLLs that step 8 locks lose their lock with their domains, and the conditions of those unlocked before end; SYS and PCIe run
on (R53). ATTEMPTS, in PD0, stays (R504). -/
def unlockPlls (s : State) : State :=
  let s := [1, 2, 3, 4, 5, 7].foldl (fun s i => condOff (0x032 + i) s) s
  s.modClk fun c => { c with pll := Vector.ofFn fun i =>
    if i.val = 0 || i.val = 6 then c.pll[i] else { c.pll[i] with locked := false, held := false } }

/-- Step 7 begins (log 86). Until then the sections of an earlier image but FAULT_TABLE stay in force in a boot that R42 or R54
restarts (R425; log 101). -/
def startStep7 (s : State) : State :=
  let s := unlockPlls (resetUnits (domainsOff [2, 3, 4, 5, 7, 8] s))
  s.modBoot fun b => { b with step := 7, walkPos := 64, walkCount := 0, seen := [], sections := [], read7 := bootHdr s }

/-- Step 6 begins: OTP_INVALID by R44, the signature with secure boot, or step 7 at once (log 85). -/
def startStep6 (s : State) : State :=
  let s := s.modBoot fun b => { b with step := 6, secure := secureBoot s, digest := none }
  if regionInvalid s 5 then bootFail .otpInvalid 0 s
  else if secureBoot s then s
  else startStep7 (endStep 6 s)

/-- The image fails in step 6 or 7: the other slot once, where its header is valid (R42), or the end of the boot
(log 85). -/
def imageFail (f : BootFail) (ty item : Nat) (s : State) : State :=
  if !s.boot.fellBack && headerOk (otherHdr s) then
    startStep6 (raise 0x004 (s.modBoot fun b => { b with fallback := true, fellBack := true, slot := 1 - b.slot
                                                         sections := b.sections.filter fun x => x.ty != 0x0E }))
  else bootFail f item (s.modBoot fun b => { b with sectionCode := ty })

/-- Checks 1 and 2 of R526 on a section header at byte `pos`: a failure with SECTION and ITEM. -/
def sectionHeader (h : List Byte) (pos count len : Nat) (seen : List Nat) : Option (BootFail × Nat × Nat) :=
  if h.length != 16 || u32 h 12 != crc32c (h.take 12) then some (.sectionHdr, 0, count)
  else
    let ty := byteAt h 0
    let placed := match count with | 0 => ty = 1 | 1 => ty = 2 | 2 => ty = 3 | _ => true
    if zeros h 2 2 && sectionListed ty && !seen.contains ty && placed && !seen.contains 0x7F &&
       decide (pos + 16 + padded (u32 h 4) ≤ len) then none
    else some (.layout, ty, 0)

/-- Step 6's walk to the SIGNATURE section (R43): its position, or a failure. Every section takes 16 bytes or more, so
`fuel` counts them. -/
def findSignature (img : List Byte) (len : Nat) : Nat → Nat → Nat → List Nat → Nat ⊕ (BootFail × Nat × Nat)
  | 0, _, _, _ => .inr (.signature, 0, 0)
  | fuel + 1, pos, count, seen =>
    if len ≤ pos then .inr (.signature, 0, 0)
    else
      let h := (img.drop pos).take 16
      match sectionHeader h pos count len seen with
      | some f => .inr f
      | none =>
        if byteAt h 0 = 0x7F then .inl pos
        else findSignature img len fuel (pos + 16 + padded (u32 h 4)) (count + 1) (byteAt h 0 :: seen)

/-- Key hash and ECDSA check of step 6, on the SIGNATURE payload; the digest when both hold (R39, R43, R460). Where both
fail, the code is KEY_HASH (log 101). -/
def checkSignature (s : State) (img : List Byte) (pos : Nat) : Nat ⊕ BootFail :=
  let p := (img.drop (pos + 16)).take 132
  let key := p.take 65
  let e := sha256 (img.take pos)
  if sha256 key != be (regionBytes s 5 0 32) 0 32 then .inr .keyHash
  else if byteAt key 0 = 4 && ecdsaVerify (be key 1 32) (be key 33 32) (be p 68 32) (be p 100 32) e then .inl e
  else .inr .signature

/-- The words that LAW_DATA places (R329). -/
def loadLawData (p : List Byte) (s : State) : State :=
  ((dataRecords p.length p).getD []).foldl (fun s r => dputAll r.1 r.2 s) s

/-- The domains that a section's unit stands in go to their load state (R47). Which domains hold the units of TONE,
CORRECTION and ADMISSION is the model's choice (log 101). -/
def loadDomains (ty : Nat) : List Nat :=
  match ty with
  | 0x02 => [8] | 0x04 | 0x05 => [6] | 0x07 | 0x08 => [2] | 0x09 => [7] | 0x0B | 0x0C => [3, 5] | 0x0F => [4]
  | _ => []

/-- A section that passed its checks is loaded into its unit (R46, R526, the image entries of R504). -/
def loadUnit (ty : Nat) (p : List Byte) (s : State) : State :=
  match ty with
  | 0x01 => s.modEng fun e => { e with armTmo := u16 p 8, coastTmo := u16 p 10 }
  | 0x07 => s.modLaw fun l => { l with prog := instrWords p (u32 p 4) 656 }
  | 0x08 => loadLawData p s
  | 0x0A => s.modAnch fun a => { a with src := byteAt p 1 }
  | 0x0B => s.modExpo fun v => Vector.ofFn fun n => { v[n] with tone := Vector.ofFn fun t => u16 p (32 * n.val + 2 * t.val) }
  | 0x0F => s.modHost fun h => { h with wasteDelay := u32 p 12, wasteMode := byteAt p 16 = 1, wasteMin := byteAt p 17 }
  | 0x10 => if calibIntact p && calibMine s p then s else raise 0x002 s
  | 0x12 => s.modAux fun v => Vector.ofFn fun k =>
      { v[k] with speed := u16 p (16 * k.val + 12), accel := u16 p (16 * k.val + 14) }
  | _ => s

def loadSection (ty : Nat) (p : List Byte) (s : State) : State :=
  loadUnit ty p ((loadDomains ty).foldl (fun s d => setLoad d s)
    (s.modBoot fun b => { b with sections := b.sections ++ [{ ty := ty, bytes := p }] }))

/-- The newest cairn record is chosen (R90, R122, R448), and pending usage is taken from it (R465). -/
def takeCairn (s : State) : State :=
  match newestCairn s.pers.cairn with
  | none => s.modPers fun p => { p with cairnSlot := none, cairnKind := 0, cairnTail := false, cairnSeq := 0 }
  | some k =>
    let r := s.pers.cairn.getD k []
    let s := s.modPers fun p => { p with cairnSlot := some k, cairnKind := byteAt r 6, cairnTail := cairnTailValid r,
                                         cairnSeq := u32 r 8 }
    let s := s.modStore fun t => { t with migAbandoned := bit (byteAt r 23) 2 }
    let s := s.modCons fun c => { c with tag := Vector.ofFn fun i =>
      { c.tag[i] with pending := u32 r (256 + 4 * i.val) - c.tag[i].confirmed, first := true } }
    s.modBoot fun b => { b with fromCairn := byteAt r 6 = 1 }

/-- Sources raised again once FAULT_TABLE has loaded (R452, R524). -/
def raiseAgain (s : State) : State :=
  let s := if s.boot.trimDefault then raise 0x003 s else s
  let s := if s.boot.ovrInvalid then raise 0x005 s else s
  if s.otp.count = 0 then s else raise 0x1F7 s

/-- BUDGET and WORST of the loaded programs (R309, R310). -/
def lawBudgets (s : State) : State :=
  s.modLaw fun l => { l with budget := s.img.budget, worst := worstCost s.img l.prog }

/-- The SHA-256 of what step 7 has read differs from the digest of step 6 (R45). -/
def digestDiffers (s : State) : Bool := s.boot.digest.any fun d => d != sha256 s.boot.read7

/-- The end of step 7: an image that no longer holds a SIGNATURE section (R45), the final checks of R526, then R38, R328, R411
and R310. -/
def endStep7 (s : State) : State :=
  let l := s.img
  if !l.has 0x7F && digestDiffers s then imageFail .imageChanged 0 0 s
  else if !l.has 0x0E || s.boot.walkCount != u16 (bootHdr s) 12 || bit (u32 (bootHdr s) 32) 0 != l.has 0x7F then
    imageFail .layout 0 0 s
  else if !deviceNeedsOk l then imageFail .sectionContent 1 0 s
  else if !sharesOk l then imageFail .sectionContent 4 0 s
  else if l.has 7 && !(budgetOk l s.law.prog && obsWordsOk l l.lawCode) then imageFail .sectionContent 7 0 s
  else
    let s := if l.has 0x0F then s else s.modHost fun h => { h with wasteMin := 1 }
    setOperate 6 (endStep 7 (takeCairn (raiseAgain (lawBudgets s))))

/-- Payload, padding and content checks of one section (R526, checks 3 and 4). -/
def sectionBody (s : State) (h p pad : List Byte) : Option (BootFail × Nat × Nat) :=
  let ty := byteAt h 0
  let n := u32 h 4
  if p.length != n || u32 h 8 != crc32c p then some (.sectionCrc, ty, 0)
  else if pad.length != padded n - n || !zeros pad 0 pad.length then some (.layout, ty, 0)
  else if !contentOk ty (byteAt h 1) p (s.img ++ [{ ty := ty, bytes := p }]) s.ring.index then some (.sectionContent, ty, 0)
  else none

/-- The flash was changed between step 6 and step 7 (R45), judged where the signed data end. -/
def imageChanged (s : State) (h : List Byte) : Bool := byteAt h 0 = 0x7F && digestDiffers s

/-- One section of step 7. -/
def takeSection (h p pad : List Byte) (s : State) : State :=
  match sectionHeader h s.boot.walkPos s.boot.walkCount (imageLen s) s.boot.seen with
  | some (f, ty, item) => imageFail f ty item s
  | none =>
    if imageChanged s h then imageFail .imageChanged (byteAt h 0) 0 s
    else
      match sectionBody s h p pad with
      | some (f, ty, item) => imageFail f ty item s
      | none =>
        let ty := byteAt h 0
        let s := loadSection ty p s
        let s := s.modBoot fun b =>
          { b with walkPos := b.walkPos + 16 + padded p.length, walkCount := b.walkCount + 1, seen := ty :: b.seen
                   read7 := if b.secure then b.read7 ++ h ++ p ++ pad else b.read7 }
        if s.boot.walkPos = imageLen s then endStep7 s else s

/-- The boot's last step: IDLE by row 2, the records of R90, and the law engine's leave to start (R24, R90, R297). -/
def finishBoot (s : State) : State :=
  let s := s.modBoot fun b => { b with step := 12, ends := updAt b.ends 11 fun _ => s.eng.sincePor / 100 % 2 ^ 32 }
  postCairnRecords (noteQuantities (s.modLaw fun l => { l with started := true }) |> enterState 0 .idle 0x0A)

/-- Stage links in use. -/
def usedLinks (s : State) : List Nat := eight.filter fun i => s.img.linkUse i != 0

/-- A link begins its 64 frames, every slot OFF (R332). -/
def startTraining (n : Nat) (s : State) : State :=
  s.atStage n fun l => { l with training := true, slot := l.slot.map fun x => { x with mode := 0, en := false } }

/-- Step 11 begins: every link in use trains, and with none the boot ends. -/
def startStep11 (s : State) : State :=
  match usedLinks s with
  | [] => finishBoot (endStep 11 s)
  | ls => ls.foldl (fun s n => startTraining n s) s

/-- A node or link marked optional did not respond (R51). -/
def optMissing (s : State) : State := raise 0x006 (s.modBoot fun b => { b with optMissing := true })

/-- What AON power-on reset leaves: the persistent store (pending usage of a tag as its mirror was last written, R464), the OTP array, the queue and the counter of open values; every
other register takes its reset value (R504; log 3). -/
def porState (straps : BitVec 5) (s : State) : State :=
  { State.reset with
    pers := { s.pers with cairnSlot := none, cairnKind := 0, cairnTail := false, cairnSeq := 0, lifeRam := s.pers.life,
                          lifeTick := 0, lifeAu := 0 }
    otp := { Otp.reset with cells := s.otp.cells, wFuse := s.otp.wFuse, rFuse := s.otp.rFuse }
    cons := { Cons.reset with counter := s.cons.counter
                              discarded := s.cons.discarded
                              tag := s.cons.tag.map fun t => { t with pending := t.stored - t.confirmed, first := true, present := false,
                                                                       auth := false, frac := 0 } }
    store := { Store.reset with retired := s.store.retired }
    ring := { Ring.reset with index := straps.toNat }
    freeCtr := s.freeCtr
    pending := s.pending }

/-- A pair by its two levels: normal is line T low and line C high; a wire fault is not judged yet (R426). -/
def Pair.ofLevels (t c : Bool) : Pair := { t := t, c := c, active := t || !c, wire := false, wireSeen := false }

/-- An FLT pair by its two levels: active with T high and C low (R426). -/
def Pair.ofFlt (t c : Bool) : Pair := { t := t, c := c, active := t && !c, wire := false, wireSeen := false }

/-- The first fault sample (R527). -/
def firstSample (p : Pins) (s : State) : State :=
  let s := s.modAux fun v => Vector.ofFn fun k => { v[k] with fltIn := p.auxFlt.getLsbD k.val }
  let s := s.modPwr fun x => { x with pmbAlert := p.pmbAlert }
  let s := s.modFlt fun f => { f with sto := Pair.ofLevels p.stoT p.stoC, estop := Pair.ofLevels p.estopT p.estopC }
  let s := s.modStage fun v => Vector.ofFn fun n =>
    { v[n] with pair := Pair.ofFlt (p.fltT.getLsbD n.val) (p.fltC.getLsbD n.val) }
  s.modIl fun i => { i with cover := Vector.ofFn fun n => !p.coverClosed.getLsbD n.val, web := !p.webClosed,
                            jam := !p.jamClosed }

end Sys2Proof.Machine
end

