-- ==== Sys2Proof/Machine/Pins.lean ====
section
/-! DEFINITION. The dual-polarity pairs, the interlocks and the laser enables (R247 to R249, R335, R426 to R428,
R527). -/

namespace Sys2Proof.Machine

open Sys2Proof.Bits

/-- A pair with its lines at new levels: STO and ESTOP are active with either line away from normal, and stay so until
both have read normal for 5 ticks (R426). -/
def Pair.either (p : Pair) (t c : Bool) : Pair := { p with t := t, c := c, active := p.active || t || !c }

/-- An FLT pair is active with T high and C low (R426). -/
def Pair.both (p : Pair) (t c : Bool) : Pair := { p with t := t, c := c, active := p.active || (t && !c) }

/-- Both lines read normal. -/
def Pair.linesNormal (p : Pair) : Bool := !p.t && p.c

/-- A wire fault: the pair counts as active, and WIRE is set (R426). -/
def Pair.fail (p : Pair) : Pair := { p with active := true, wire := true, wireSeen := true }

/-- The pair is normal again. -/
def Pair.recover (p : Pair) : Pair := { p with active := false, wire := false }

/-- Sources of a link's FLT pair: STAGE_FLT and STAGE_WIRE. -/
def stageFlt (L : Nat) : Nat := 0x070 + 16 * L
def stageWire (L : Nat) : Nat := 0x071 + 16 * L

/-- The INH pair of a link is asserted until FAULT_CLEAR (R335). -/
def holdInh (L : Nat) (s : State) : State := updateInh (s.atStage L fun l => { l with inhHeld := true })

/-- STO by the pair's state. -/
def stoCheck (s : State) : State := if s.flt.sto.active then condOn 0x000 s else s

/-- ESTOP by the pair's state. -/
def estopCheck (s : State) : State := if s.flt.estop.active then condOn 0x007 s else s

/-- An FLT pair's state: INH, and the source. -/
def fltCheck (L : Nat) (s : State) : State :=
  let p := (tab s.stage StageLink.reset L).pair
  if !p.active || p.wire then s else condOn (stageFlt L) (holdInh L s)

/-- STO_INPUT (R427). -/
def execStoInput (t c : Bool) (s : State) : Host.Outcome State Fault Refusal :=
  .next (stoCheck (s.modFlt fun f => { f with sto := f.sto.either t c }))

/-- ESTOP_INPUT (R428). -/
def execEstopInput (t c : Bool) (s : State) : Host.Outcome State Fault Refusal :=
  .next (estopCheck (s.modFlt fun f => { f with estop := f.estop.either t c }))

/-- FLT_PAIR_CHANGE (R335). -/
def execFltPairChange (L : Fin 8) (t c : Bool) (s : State) : Host.Outcome State Fault Refusal :=
  .next (fltCheck L (s.atStage L fun l => { l with pair := l.pair.both t c }))

/-- PAIR_WIRE_FAULT (R335, R426): both lines have read one level for 5 ticks. -/
def execPairWireFault (p : PairId) (s : State) : Host.Outcome State Fault Refusal :=
  match p with
  | .sto =>
    if s.flt.sto.t = s.flt.sto.c then .next (stoCheck (setsBit 0xB010 4 <| s.modFlt fun f => { f with sto := f.sto.fail })) else .next s
  | .estop =>
    if s.flt.estop.t = s.flt.estop.c then .next (estopCheck (setsBit 0xB010 5 <| s.modFlt fun f => { f with estop := f.estop.fail }))
    else .next s
  | .flt L =>
    if s.stage[L].pair.t = s.stage[L].pair.c then
      .next (condOn (stageWire L) (holdInh L (setsBit (0x8000 + 0x10 * L) 2 <| s.atStage L fun l => { l with pair := l.pair.fail })))
    else .next s

/-- PAIR_RETURN_NORMAL (R426): both lines have read normal for 5 ticks. -/
def execPairReturnNormal (p : PairId) (s : State) : Host.Outcome State Fault Refusal :=
  match p with
  | .sto =>
    if s.flt.sto.linesNormal then .next (condOff 0x000 (s.modFlt fun f => { f with sto := f.sto.recover })) else .next s
  | .estop =>
    if s.flt.estop.linesNormal then .next (condOff 0x007 (s.modFlt fun f => { f with estop := f.estop.recover }))
    else .next s
  | .flt L =>
    if s.stage[L].pair.linesNormal then
      .next (condOff (stageFlt L) (condOff (stageWire L) (s.atStage L fun l => { l with pair := l.pair.recover })))
    else .next s

/-- Source of an interlock (R249). -/
def interlockSource (i : Interlock) : Nat :=
  match i with | .cover n => 0x185 + 8 * n.val | .web => 0x00E | .jam => 0x00F

/-- Stations that an interlock gates. -/
def interlockStations (i : Interlock) : List Nat := match i with | .cover n => [n.val] | .web | .jam => eight

/-- The input's level. -/
def setInterlock (i : Interlock) (b : Bool) (s : State) : State :=
  let now := s.eng.sincePor
  s.modIl fun x => match i with
    | .cover n => { x with cover := upd x.cover n fun _ => b, coverAt := if b then x.coverAt else upd x.coverAt n fun _ => now }
    | .web => { x with web := b, webAt := if b then x.webAt else now }
    | .jam => { x with jam := b, jamAt := if b then x.jamAt else now }

/-- The input reads open. -/
def interlockOpen (s : State) (i : Interlock) : Bool :=
  match i with | .cover n => s.il.cover[n] | .web => s.il.web | .jam => s.il.jam

/-- An interlock reads open: lasers low, stations blank, and its source (R247, R249). -/
def interlockOpened (i : Interlock) (s : State) : State :=
  condOn (interlockSource i)
    ((interlockStations i).foldl (fun s n => laserLow .interlock 0x05 (interlockSource i) n s) (setInterlock i true s))

/-- INTERLOCK_OPEN (R249). -/
def execInterlockOpen (i : Interlock) (s : State) : Host.Outcome State Fault Refusal := .next (interlockOpened i s)

/-- INTERLOCK_CLOSE (R248): the condition source ends; LSR_EN rises after 10 ms by LASER_ENABLE_RISE. -/
def execInterlockClose (i : Interlock) (s : State) : Host.Outcome State Fault Refusal :=
  .next <| if !interlockOpen s i then s else (condOff (interlockSource i) (setInterlock i false s))

/-- The fault collector's laser-enable path permits LSR_EN: no STO, no SAFE, no shut-down, and not in step 9 of the boot
(R247, R427, table "Reaction codes", section "Power-up calibration"). -/
def laserPermitted (s : State) : Bool :=
  !s.flt.sto.active && s.eng.state != .safe && s.eng.state != .down && !(s.eng.state = .boot && s.boot.step = 9) &&
  s.pwr.writing.isNone

/-- Every input that gates LSR_ENn has stayed closed for 10 ms, 1,000,000 ticks, without a break (R248). -/
def gateClosed (s : State) (n : Fin 8) : Bool :=
  !s.il.cover[n] && !s.il.web && !s.il.jam &&
    decide (max s.il.coverAt[n] (max s.il.webAt s.il.jamAt) + 1000000 ≤ s.eng.sincePor)

/-- LASER_ENABLE_RISE (R248, R250): with every gating input closed for 10 ms, LSR_ENn rises, and the interlock condition ends. -/
def execLaserEnableRise (n : Fin 8) (s : State) : Host.Outcome State Fault Refusal :=
  if !gateClosed s n || !laserPermitted s || s.il.lsr[n] then .next s
  else .next (unblank n .laser (unblank n .interlock (s.modIl fun i => { i with lsr := upd i.lsr n fun _ => true })))

/-- What the first fault sample raises (R527): the conditions that it finds. -/
def sampleRaises (s : State) : State :=
  let s := estopCheck (stoCheck s)
  let s := if s.il.web then interlockOpened .web s else s
  let s := if s.il.jam then interlockOpened .jam s else s
  let s := (List.finRange 8).foldl (fun s n => if s.il.cover[n] then interlockOpened (.cover n) s else s) s
  each8 fltCheck s

end Sys2Proof.Machine
end

