-- ==== Sys2Proof/Machine/Boot.lean ====
section
/-! DEFINITION. Start-up: AON power-on reset, the boot steps, PLL locks, calibration, enumeration and training
(chapters 02, 07, 11 and 13). -/

namespace Sys2Proof.Machine

open Sys2Proof.Bits Sys2Proof.Crypto

/-- AON power-on reset releases: BOOT by row 1, PD1 on in step 2, and the first fault sample (R47, R504, R511,
R527; log 3). -/
def powerOn (straps : BitVec 5) (pins : Pins) (s : State) : State :=
  let s := porState straps s
  let s := s.modPwr fun p => { p with domain := updAt p.domain 1 fun _ => 2 }
  let s := s.modBoot fun b => { b with step := 2 }
  sampleRaises (firstSample pins (countLife 0 1 s))

/-- AON power-on reset is asserted. -/
def powerOff (straps : BitVec 5) (s : State) : State := (porState straps s).modEng fun e => { e with state := .down }

/-- AON_POWER_ON_RESET (R511). PD0 ends a record that it writes from VHOLD before a reset by VDD_3V3 takes it
(log 16). -/
def execAonPowerOnReset (rise : Bool) (straps : BitVec 5) (pins : Pins) (s : State) : Host.Outcome State Fault Refusal :=
  if s.pwr.writing.isSome then
    .next (if rise then s else s.modPwr fun p => { p with resetOwed := some straps })
  else .next (if rise then powerOn straps pins s else powerOff straps s)

/-- CAIRN_RECORD_WRITTEN (R447): the state becomes DOWN by row 28, PD1 goes off, and the sequence follows the rails. The
lifetime counter of power failures is kept with the record (logs 13, 82, 92). A reset that
VDD_3V3 has asserted meanwhile follows (R511; log 16). -/
def execCairnRecordWritten (s : State) : Host.Outcome State Fault Refusal :=
  match s.pwr.writing with
  | none => .next s
  | some r =>
    let s := s.modPwr fun p => { p with writing := none }
    let s := writeCairn r s
    let s := s.modPers fun p => { p with life := updAt p.life 1 fun v => sat 64 (v + 1)
                                         lifeRam := updAt p.lifeRam 1 fun v => sat 64 (v + 1) }
    let s := enterState 10 .down 0x07 (outputsSafe 0x010 s)
    let s := beginSequence .powerFail (domainsOff [1] s)
    .next (match s.pwr.resetOwed with | some straps => powerOff straps s | none => s)

/-- POWER_RETURN_RESET (R440): 100 ms after the end of a sequence that a power failure started, and with VCP good for 10 ms, the
supervisor resets; that VDD_3V3 is good comes with the command (log 118). -/
def execPowerReturnReset (straps : BitVec 5) (pins : Pins) (s : State) : Host.Outcome State Fault Refusal :=
  match s.pwr.down with
  | none => .next s
  | some d =>
    if d.done && d.origin = .powerFail && decide (d.endTick + 10000000 ≤ s.now) &&
        s.pwr.vcpSince.any (fun t => decide (t + 1000000 ≤ s.now)) then .next (powerOn straps pins s) else .next s

/-- Numbers of a region as a mask. -/
def regionMask (f : Nat → Bool) : BitVec 16 :=
  BitVec.ofNat 16 (((List.range 16).filter f).foldl (fun m r => m + 2 ^ r) 0)

/-- The three fuses of a lock disagree, or read differently at margin level. -/
def fuseSet (c : OtpCell) : Bool := c.nominal.getLsbD 0

/-- The shadow, the locks, and what is marginal (R450 to R452). -/
def loadShadow (s : State) : State :=
  let sh := (s.otp.cells.map fun x => (x.1, x.2.nominal)).filter fun x => x.2 != 0
  let marg := (s.otp.cells.filter fun x => x.2.isMarginal).map (·.1)
  let blank := regionMask fun r => wordsBlank (regionWords sh r)
  let valid := regionMask fun r => !wordsBlank (regionWords sh r) && wordsValid (regionWords sh r)
  let wm := regionMask fun r => (tab s.otp.wFuse OtpCell.blank r).isMarginal
  let rm := regionMask fun r => (tab s.otp.rFuse OtpCell.blank r).isMarginal
  s.modOtp fun o =>
    { o with shadow := sh, valid := valid, blank := blank,
             wlock := regionMask fun r => fuseSet (tab o.wFuse OtpCell.blank r)
             rlock := regionMask fun r => fuseSet (tab o.rFuse OtpCell.blank r)
             regions := wm ||| rm ||| regionMask fun r => marg.any fun a => a / 256 = r
             count := marg.length + popCount 16 wm.toNat + popCount 16 rm.toNat
             marginal := marg, wMargin := wm, rMargin := rm }

/-- Trims of BACKUP and AON: region 0 or the safe defaults, whose layout the manual does not give (log 15). -/
def applyTrims (s : State) : State :=
  let c := s.freeCtr
  (s.modClk fun k => { k with backupTrim := Config.freeNat c % 4096, aonTrim := Config.freeNat (c + 1) % 1024 })
    |>.modFreeCtr (· + 2)

/-- RID of region 8 replaces the straps (section "Ring index" of the OTP chapter, R386). -/
def ringOverride (s : State) : State :=
  let w := overrides s
  if bit w 3 then s.modRing fun r => { r with index := field w 8 4 } else s

/-- OTP_SHADOW_LOAD (R36, R452): step 2. -/
def execOtpShadowLoad (s : State) : Host.Outcome State Fault Refusal :=
  if !inStep s 2 then .next s
  else
    let s := ringOverride (applyTrims (loadShadow s))
    let s := if s.otp.count = 0 then s else raise 0x1F7 s
    let s := if regionInvalid s 0 then raise 0x003 (s.modBoot fun b => { b with trimDefault := true }) else s
    let s := if regionInvalid s 8 then raise 0x005 (s.modBoot fun b => { b with ovrInvalid := true }) else s
    .next (setOperate 9 (endStep 2 s))

/-- CRYSTAL_START (R197): step 3. -/
def execCrystalStart (ok : Bool) (s : State) : Host.Outcome State Fault Refusal :=
  if !inStep s 3 then .next s
  else if ok then .next (endStep 3 (s.modClk fun c => { c with refOk := true }))
  else .next (bootFail .xtal 0 s)

/-- Six steps of a binary search over 64 bands, from the count of each step; the band and whether the search fails: band 63 by
the count of the sixth step, which stands in it, and band 0 by a seventh count, taken in it (R192, log 17). -/
def bandSearch (counts : List Nat) : Nat × Bool :=
  let band := ((List.range 6).zip counts).foldl (fun b x => if x.2 ≤ 256 then b + 2 ^ (5 - x.1) else b) 0
  (band, (band = 0 && decide (256 < counts.getD 6 256)) || (band = 63 && decide (counts.getD 5 256 < 256)))

/-- The PCIe PLL locks in SAFE after a boot failure, so that the host can read the boot registers (R53). -/
def pllInSafe (s : State) (i : Nat) : Bool := i = 6 && s.eng.state = .safe && s.eng.bootFail

/-- PLLs that the present part of the boot locks (R48, R194, table "Power-up in step 8"). -/
def pllInBoot (s : State) (i : Nat) : Bool :=
  pllInSafe s i || (inStep s 4 && i = 0) || (inStep s 8 && (i = 5 || i = 6)) ||
  (inStep s 8 && tab s.pwr.domain 0 4 = 2 && (inR i 1 4 || i = 7))

def pll (s : State) (i : Nat) : Pll := tab s.clk.pll Pll.reset i

/-- An attempt with its band search in run `run` of the boot; a lock sequence starts at attempt 1 (R193). -/
def Pll.attempt (p : Pll) (run : Nat) (counts : List Nat) (us : Nat) : Pll :=
  { p with band := (bandSearch counts).1, searchFail := p.searchFail || (bandSearch counts).2, run := run
           attempts := if p.run != run || decide (3 ≤ p.attempts) then 1 else p.attempts + 1, lockTime := sat 16 us }

/-- The PCIe link is trained once RING and PCIe have locked, and after a boot failure once PCIe has (R48, R49, R53;
log 119). -/
def noteLinks (s : State) : State :=
  if (inStep s 8 && (pll s 5).locked && (pll s 6).locked) || (pllInSafe s 6 && (pll s 6).locked) then s.modBoot fun b => { b with linkTrained := true } else s

/-- Step 8 ends once every domain operates and every PLL is locked; step 9 holds the lasers off. -/
def noteStep8 (s : State) : State :=
  if inStep s 8 && tab s.pwr.domain 0 4 = 2 && (List.range 8).all fun i => (pll s i).locked then
    endStep 8 (allLasersLow 0 s)
  else s

/-- A PLL has declared lock. -/
def pllLocked (i : Nat) (s : State) : State :=
  let s := s.modClk fun c => { c with pll := updAt c.pll i fun p => { p with locked := true, held := true } }
  if inStep s 4 && i = 0 then endStep 4 s else noteStep8 (noteLinks s)

/-- A failed attempt; in BOOT the third fails the boot (R193). -/
def pllFailed (i : Nat) (s : State) : State :=
  if s.eng.state = .boot && pllInBoot s i && decide (3 ≤ (pll s i).attempts) then bootFail .pllLock i s else s

/-- A station blanked by its unlocked EXP PLL waits for line 0 (table "Consequences of an unlock"). -/
def expRelock (i : Nat) (s : State) : State :=
  if inR i 1 4 then
    [2 * (i - 1), 2 * (i - 1) + 1].foldl (fun s n => unblank n .pll s) s
  else s

/-- A PLL that had declared lock and is unlocked, in the boot or after it, declares lock again (R196, R199). -/
def relocks (s : State) (i : Nat) : Bool := (pll s i).held

/-- A lock attempt of PLL `i` with its band search (R192). -/
def lockAttempt (i : Fin 8) (counts : List Nat) (us : Nat) (s : State) : State :=
  let run := s.boot.run
  let s := s.modClk fun c => { c with pll := upd c.pll i (·.attempt run counts us) }
  if (bandSearch counts).2 then setsBit (0x4020 + 4 * i) 9 s else s

/-- PLL_LOCK_DECLARED (R192, R193): in the boot with a band search, and after an unlock without one (R196). -/
def execPllLockDeclared (i : Fin 8) (counts : List Nat) (us : Nat) (s : State) : Host.Outcome State Fault Refusal :=
  if s.clk.pll[i].locked then .next s
  else if relocks s i then .next (condOff (0x032 + i.val) (expRelock i (pllLocked i s)))
  else if pllInBoot s i then
    let s := lockAttempt i counts us s
    .next (if (bandSearch counts).2 then pllFailed i s else pllLocked i s)
  else .next s

/-- PLL_LOCK_ATTEMPT_TIMEOUT (R193). -/
def execPllLockAttemptTimeout (i : Fin 8) (counts : List Nat) (us : Nat) (s : State) : Host.Outcome State Fault Refusal :=
  if s.clk.pll[i].locked || !pllInBoot s i then .next s
  else .next (pllFailed i (lockAttempt i counts us s))

/-- Flash mode in use (R35). -/
def flashMode (s : State) : Nat :=
  match overrides s % 4 with
  | 1 => 1
  | 2 => 2
  | _ => byteAt (bootHdr s) 14

/-- SLOT_HEADER_READ (R33, R41): step 5. A slot that SLOT0_ONLY leaves unread counts as blank. -/
def execSlotHeaderRead (slot0 slot1 : List Byte) (s : State) : Host.Outcome State Fault Refusal :=
  if !inStep s 5 then .next s
  else
    let slot1 := if bit (overrides s) 2 then [] else slot1
    let s := s.modBoot fun b => { b with hdr0 := slot0, hdr1 := slot1 }
    let ok0 := headerOk slot0
    let ok1 := headerOk slot1
    if !ok0 && !ok1 then .next (bootFail (if headerBlank slot0 && headerBlank slot1 then .noFlash else .header) 0 s)
    else
      let pick := if ok0 && ok1 then (if u32 slot0 28 < u32 slot1 28 then 1 else 0) else if ok1 then 1 else 0
      let s := s.modBoot fun b => { b with slot := pick, fellBack := false }
      .next (startStep6 (endStep 5 (s.modBoot fun b => { b with mode := flashMode s })))

/-- SIGNATURE_VERIFICATION (R39, R43): step 6 with secure boot. -/
def execSignatureVerification (image : List Byte) (s : State) : Host.Outcome State Fault Refusal :=
  if !inStep s 6 then .next s
  else
    match findSignature image (imageLen s) 262144 64 0 [] with
    | .inr (f, ty, item) => .next (imageFail f ty item s)
    | .inl pos =>
      match checkSignature s image pos with
      | .inr f => .next (imageFail f 0x7F 0 s)
      | .inl d => .next (startStep7 (endStep 6 (s.modBoot fun b => { b with signed := true, digest := some d })))

/-- SECTION_LOAD (R526): one section of step 7. -/
def execSectionLoad (header payload padding : List Byte) (s : State) : Host.Outcome State Fault Refusal :=
  if inStep s 7 then .next (takeSection header payload padding s) else .next s

/-- POWER_UP_CALIBRATION (R57, R58): step 9. -/
def execPowerUpCalibration (m : CalibMeas) (s : State) : Host.Outcome State Fault Refusal :=
  if !inStep s 9 then .next s
  else
    let failed := (List.range 17).any fun i => (calibFresh m i).isNone
    let r := calibRecord s m
    let s := (s.modBoot fun b => { b with calib := r, calibFail := b.calibFail || failed }).modFreeCtr (· + 4760)
    .next (endStep 9 (if failed then raise 0x002 s else s))

/-- First entry of a list that occurs in it again. -/
def duplicate : List Nat → Option Nat
  | [] => none
  | a :: r => if r.contains a then some a else duplicate r

/-- Data blocks of the upper-ring slot of controller `i` (table "Controller slot", R391, R393). -/
def upperBlockCount (l : Img) (i : Nat) : Nat :=
  let n := (l.chansOf i).length
  (9 + ceilDiv n 32 + n + l.fwdWords i + 1) / 2

/-- Out-words of an eyelet (table "Eyelet kinds"). -/
def outWordCount (l : Img) (i : Nat) : Nat := match l.nodeKind i with | 0 => l.nodeOut i | 3 => 12 | _ => 0

/-- Data blocks of this controller's subordinate slot, and of an eyelet's slot (R392). -/
def headBlockCount (l : Img) : Nat := (1 + (l.eyelets.map (outWordCount l)).sum + 1) / 2
def eyeletBlockCount (l : Img) (i : Nat) : Nat := (1 + l.nodeInWords i + 1) / 2

/-- Data blocks of every node of a ring, as enumeration found it. -/
def ringBlocks (s : State) (sub : Bool) (r : EnumReport) : List Nat :=
  if sub then headBlockCount s.img :: (s.img.eyelets.filter fun i => decide (i ≤ r.eyelets.length)).map (eyeletBlockCount s.img)
  else (s.ring.index :: r.controllers.map (·.index)).map (upperBlockCount s.img)

/-- Measured delays of a ring's links in 1/640 ns: those of this controller's own ports in 1/64 tick, and the others as reported
in ns (R390, R398). -/
def ringDelays (s : State) (sub : Bool) (r : EnumReport) : Nat :=
  let own := ((if sub then [2, 3] else [0, 1]).filter fun p => (tab s.ring.port RingPort.reset p).up).map fun p =>
    (tab s.ring.port RingPort.reset p).delay
  100 * own.sum + 640 * (if sub then r.subDelays else r.upperDelays).sum

/-- T_NEED exceeds T_X on one ring, in 1/640 ns (R390). -/
def tooLong (s : State) (sub : Bool) (r : EnumReport) : Bool :=
  let bs := ringBlocks s sub r
  decide (640 * (2400 + s.img.tIn) < 4096 * (bs.map (· + 2)).sum + ringDelays s sub r + 25600 * bs.length)

/-- Press-domain ropes of this controller (R342). -/
def pressRopes (l : Img) : List Nat := l.ropes.filter fun r => l.ropeUse r = 2 || l.ropeUse r = 3

/-- A rope entry of another controller agrees with ours. -/
def ropeAgrees (l : Img) (x : Nat × Nat × Nat × Nat) : Bool :=
  !(pressRopes l).contains x.1 || (x.2.1 = l.ropeHome x.1 && x.2.2.1 = l.ropeShareCh x.1 && x.2.2.2 = l.ropeBackCh x.1)

/-- What a ring finds through ports that are up: nothing where none is (R385, R396, steps 1 and 3). -/
def EnumReport.through (s : State) (r : EnumReport) : EnumReport :=
  let up (p : Nat) : Bool := (tab s.ring.port RingPort.reset p).up
  { r with controllers := if up 0 || up 1 then r.controllers else []
           eyelets := if up 2 || (up 3 && s.img.subTopo = 1) then r.eyelets else [] }

/-- A failure of enumeration, as ITEM (R342, R390, R396). An alias must match what its heading controller reports
(log 111). -/
def enumFails (s : State) (r : EnumReport) : Option Nat :=
  let l := s.img
  let crc := crc32c ((l.sec 4).drop 64 |>.take 384)
  let idx := r.controllers.map (·.index)
  let others := (List.range 32).filter fun i => i != s.ring.index
  match duplicate (s.ring.index :: idx) with
  | some i => some i
  | none =>
    match others.find? fun i => l.ctrlUse i = 1 && !idx.contains i with
    | some i => some i
    | none =>
      match r.controllers.find? fun c => c.baseUs != l.baseUs || c.tableCrc != crc || !c.ropes.all (ropeAgrees l) with
      | some c => some c.index
      | none =>
        match l.eyelets.find? fun i =>
            (l.nodeUse i = 1 && decide (r.eyelets.length < i)) ||
            (decide (i ≤ r.eyelets.length) && r.eyelets.getD (i - 1) 0 != l.nodeType i) with
        | some i => some i
        | none =>
          match (List.range 128).find? fun i => l.nodeUse i = 3 && idx.contains (l.nodeType i / 128 % 32) &&
              !r.aliases.contains (l.nodeType i, l.nodeKind i) with
          | some i => some i
          | none =>
            if decide (1 < l.controllers) && tooLong s false r then some (ringBlocks s false r).length
            else if l.subTopo != 0 && tooLong s true r then some (ringBlocks s true r).length
            else none

/-- Something optional is absent (R51). -/
def enumMissing (s : State) (r : EnumReport) : Bool :=
  let idx := r.controllers.map (·.index)
  (List.range 32).any (fun i => i != s.ring.index && s.img.ctrlUse i = 2 && !idx.contains i) ||
  s.img.eyelets.any (fun i => s.img.nodeUse i = 2 && decide (r.eyelets.length < i))

/-- Step 1: ring time is set once to the time master's, the live controller with the lowest index (R396, R399). -/
def setRingTime (r : EnumReport) (s : State) : State :=
  let master := r.controllers.all fun c => decide (s.ring.index < c.index)
  let s := if master then s else s.modEng fun e => { e with time := r.masterTime % 2 ^ 64 }
  s.modRing fun g => { g with timeMaster := master, synced := master, timeSet := some 0, within := 0, beyond := 0 }

/-- A node that enumeration found. -/
def RingNode.found (n : RingNode) : RingNode := { n with present := true, live := true, missing := 0, good := 0 }

/-- What enumeration found; this controller is live itself (tables of RING_CTRL_LIVE and RING_SUB_LIVE). -/
def noteNodes (r : EnumReport) (s : State) : State :=
  let l := s.img
  s.modRing fun g =>
    { g with
      enumDone := true
      ctrl := r.controllers.foldl (fun v c => updAt v c.index fun n =>
          { n.found with serial := c.serial, group := if c.group < 32 then some c.group else none })
        (updAt g.ctrl g.index RingNode.found)
      node := (l.eyelets.filter fun i => decide (i ≤ r.eyelets.length)).foldl
        (fun v i => updAt v i RingNode.found)
        (((List.range 128).filter fun i => l.nodeUse i = 3 && r.aliases.any fun x => x.1 = l.nodeType i).foldl
          (fun v i => updAt v i RingNode.found) (updAt g.node 0 RingNode.found)) }

/-- Serials of the eyelets next to SA and SB, as their HELLO blocks gave them (R402). -/
def noteSerials (r : EnumReport) (s : State) : State :=
  let n := r.eyelets.length
  s.modRing fun g =>
    { g with node := updAt (updAt g.node 1 fun x => { x with serial := g.port[2].serial }) n fun x =>
               { x with serial := if n = 1 then g.port[2].serial else g.port[3].serial } }

/-- Steps 1 to 4 of R396, and the end of step 10 on a controller alone, whose ring time is its own (log 121). -/
def enumerate (r : EnumReport) (s : State) : State :=
  let r := EnumReport.through s r
  let s := setRingTime r s
  match enumFails s r with
  | some item => bootFail .ringEnum (item % 256) s
  | none =>
    let s := noteSerials r (noteNodes r s)
    let s := if enumMissing s r then optMissing s else s
    if s.img.controllers ≤ 1 then startStep11 (endStep 10 s) else s

/-- Step 5 of R396: once slots have run for 64 cycles, ring time must be synchronised by R400. -/
def enumSync (cycles : Nat) (s : State) : State :=
  if cycles < 64 then s
  else if s.ring.timeMaster || s.ring.synced then startStep11 (endStep 10 s)
  else bootFail .ringEnum s.ring.index s

/-- RING_ENUMERATION (R396): step 10. Steps 1 to 4 at its first, and step 5 at a later one (log 121). -/
def execRingEnumeration (r : EnumReport) (s : State) : Host.Outcome State Fault Refusal :=
  if !inStep s 10 then .next s
  else
    match s.ring.timeSet with
    | none => .next (enumerate r s)
    | some n => .next (enumSync n s)

/-- R332 passed. -/
def TrainReport.pass (r : TrainReport) (s : State) : Bool := r.good = 64 && decide (r.worstNs + 100 ≤ s.img.tIn) && r.pwmSync

/-- Step 11 ends when no link trains any more. -/
def noteStep11 (s : State) : State :=
  if inStep s 11 && (usedLinks s).all fun n => !(tab s.stage StageLink.reset n).training then finishBoot (endStep 11 s) else s

/-- STAGE_LINK_TRAINING (R51, R332). -/
def execStageLinkTraining (L : Fin 8) (r : TrainReport) (s : State) : Host.Outcome State Fault Refusal :=
  if !s.stage[L].training then .next s
  else
    let s := s.atStage L fun l => { l with training := false }
    if TrainReport.pass r s then
      .next (noteStep11 (s.atStage L fun l => { l with up := true, rtt := sat 8 ((r.worstNs + 24) / 25) }))
    else if inStep s 11 then
      .next (if s.img.linkUse L = 1 then bootFail .stageTrain L s else noteStep11 (optMissing s))
    else .next (raise (0x077 + 16 * L.val) s)

/-- STAGE_LINK_RETRAIN_TIMER (R332): a link that is down trains again in IDLE and ARMED. -/
def execStageLinkRetrainTimer (L : Fin 8) (s : State) : Host.Outcome State Fault Refusal :=
  if (s.eng.state = .idle || s.eng.state = .armed) && s.img.linkUse L != 0 && !s.stage[L].up && !s.stage[L].training then
    .next (startTraining L s)
  else .next s

/-- BOOT_STEP_TIMEOUT (R52): the step's bound has passed. In steps 6 and 7 too it ends the boot, without the fall-back of R42
(log 101). -/
def execBootStepTimeout (s : State) : Host.Outcome State Fault Refusal :=
  if s.eng.state = .boot then .next (bootFail .stepTimeout s.boot.step s) else .next s

end Sys2Proof.Machine
end

