-- ==== Sys2Proof/Machine/Msg.lean ====
section
/-! DEFINITION. Taking up a message and its common checks, in the order of R71. -/

namespace Sys2Proof.Machine

open Sys2Proof.Bits

/-- The job engine serves submission queues: not in BOOT and DOWN (R50), not in D3hot (R64). -/
def engineServes (s : State) : Bool :=
  s.eng.state != .boot && s.eng.state != .down && !s.host.d3hot && hostUp s

/-- Queue `q` can have a message taken up. -/
def queueServes (q : Fin 8) (s : State) : Bool := engineServes s && s.host.q[q].enable && !s.host.q[q].halted

/-- Whom a message's completions are for. -/
def msgRef (h : MsgHdr) (s : State) : MsgRef := { q := h.q, tag := h.tag, epoch := s.host.q[h.q].epoch }

/-- A rejection, whose RESULT the manual does not state (log 18): an open value. -/
def reject (r : MsgRef) (st : Status) (s : State) : State :=
  complete r st (Config.freeNat s.freeCtr) s.useFree

/-- The states of the table "Messages". -/
def inAny (s : State) : Bool := s.eng.state != .boot && s.eng.state != .down
def inOpen (s : State) : Bool :=
  s.eng.state = .idle || s.eng.state = .armed || s.eng.state = .run || s.eng.state = .halting

/-- The run, or a suspended run, belongs to a job. -/
def runHolds (s : State) (id : Nat) : Bool := (s.run.active || s.run.suspended) && s.run.job = id

/-- JOB names a job that the controller holds; JOB is 0; JOB of the run messages (R71). -/
def jobHeld (h : MsgHdr) (s : State) : Bool := (s.job? h.job).isSome
def jobZero (h : MsgHdr) (_ : State) : Bool := h.job = 0
def jobRun (h : MsgHdr) (s : State) : Bool :=
  h.job = 0 || (jobHeld h s && (!(s.run.active || s.run.suspended) || s.run.job = h.job))
def jobNew (h : MsgHdr) (s : State) : Bool := h.job != 0 && !jobHeld h s

/-- One message: taken up, checked in the order of R71, then its own effect. -/
def message (h : MsgHdr) (jobOk states range : State → Bool) (body : MsgRef → State → State) (s : State) : State :=
  if !queueServes h.q s then s
  else
    let r := msgRef h s
    let s := s.modHost fun x => { x with q := upd x.q h.q fun q => { q with running := q.running + 1 } }
    if !h.clean || h.tag = 0xFFFF || !jobOk s then reject r .field s
    else if !states s then reject r .state s
    else if !range s then reject r .range s
    else body r s

/-- No range to check. -/
def anyRange (_ : State) : Bool := true

/-- A result kind other than SPOIL takes new bytes (R86). -/
def newResult (b : List Byte) : Option Result := some { bytes := b, returned := false }

end Sys2Proof.Machine
end

