-- ==== Sys2Proof/Machine/StoreOps.lean ====
section
/-! DEFINITION. The raster store's memory and its accesses: bytes, poison, ECC outcomes of a read, the error log, the
remap table and the merge buffer (R93 to R116). -/

namespace Sys2Proof.Machine

open Sys2Proof.Bits

/-- The byte at an address; an address not listed reads 0 (log 5). -/
def memGet (m : List Host.Cell) (a : Nat) : Byte := sget 0 m a

/-- The memory after a write of one byte (log 5). -/
def memPut (m : List Host.Cell) (a : Nat) (b : Byte) : List Host.Cell := sput 0 m a b

/-- Bytes from address `a`. -/
def memWrite (m : List Host.Cell) (a : Nat) : List Byte → List Host.Cell
  | [] => m
  | b :: r => memWrite (memPut m a b) (a + 1) r

def memRead (m : List Host.Cell) (a n : Nat) : List Byte := (List.range n).map fun i => memGet m (a + i)

/-- Canonical form: strictly rising addresses, and no entry equal to what an unlisted address reads as. -/
abbrev Memory.wf (m : List Host.Cell) : Bool := swf 0 m

/-- Insertion into a strictly rising list of numbers. -/
def addNat (x : Nat) : List Nat → List Nat
  | [] => [x]
  | y :: r => if x < y then x :: y :: r else if x = y then y :: r else y :: addNat x r

/-- Lines and pages of the data region. -/
def lineOf (a : Nat) : Nat := a / 64
def pageOf (a : Nat) : Nat := a / pageBytes
def linePage (l : Nat) : Nat := l / 16384

def Agent.code : Agent → Nat
  | .decoder => 0 | .scrubber => 1 | .host => 2 | .dma => 3 | .migration => 4 | .flush => 5

def ErrKind.code : ErrKind → Nat
  | .corrected => 0 | .uncorrectable => 1 | .poison => 2 | .remapped => 3

/-- Corrections of the same word within 1 ms of the first one that an entry counts add to its newest entry (R111; log 125). -/
def mergeErr (now addr : Nat) : List StoreErr → Option (List StoreErr)
  | [] => none
  | x :: r =>
    match mergeErr now addr r with
    | some r' => some (x :: r')
    | none =>
      if x.kind = .corrected && x.addr = addr && !r.any (fun y => y.addr = addr) && now ≤ x.tick + 100000 then
        some ({ x with count := sat 16 (x.count + 1) } :: r)
      else none

/-- An entry at the end of the log of 256, the oldest overwritten and counted (R111). -/
def logStore (addr syn : Nat) (k : ErrKind) (g : Agent) (s : State) : State :=
  let e : StoreErr := { addr := addr, syndrome := syn, kind := k, agent := g, tick := s.now, count := 1 }
  s.modStore fun t =>
    match (if k = .corrected then mergeErr s.now addr t.log else none) with
    | some l => { t with log := l }
    | none =>
      if t.log.length < 256 then { t with log := t.log ++ [e] }
      else { t with log := t.log.drop 1 ++ [e], logLost := sat 8 (t.logLost + 1) }

/-- Corrected errors of page `p` in a list of errors. -/
def pageCount (p : Nat) (l : List (Nat × Nat)) : Nat := (l.filter fun x => x.1 = p).length

/-- The page's corrected errors of the window reach PAGE_LIMIT, or stand above a limit that has been lowered (R112). -/
def notePage (p : Nat) (s : State) : State :=
  let t := s.store
  let old := t.pageErr.filter fun x => decide (s.now < x.2 + t.window * 100000000)
  let weak := t.weak.filter fun q => decide (t.pageLimit ≤ pageCount q old)
  let reached := decide (t.pageLimit ≤ pageCount p old + 1) && !weak.contains p
  let s := s.modStore fun t => { t with pageErr := old ++ [(p, s.now)], weak := if reached then p :: weak else weak }
  if reached then raise 0x1C2 s else s

/-- The remap entry that holds a line (R114). -/
def remapped (s : State) (l : Nat) : Bool := s.store.remap.toList.contains (some l)

/-- A hard-failing line goes to a free remap entry, or finds none, at each of its errors (R113, R116; log 125). -/
def remapLine (l addr syn : Nat) (g : Agent) (s : State) : State :=
  match (List.range 8).find? fun k => (tab s.store.remap none k).isNone with
  | some k =>
    raise 0x1C4 (logStore addr syn .remapped g (s.modStore fun t => { t with remap := updAt t.remap k fun _ => some l }))
  | none => raise 0x1C5 (setsBit 0x2018 8 <| s.modStore fun t => { t with fullSeen := true })

/-- A corrected word (R95, R111, R112). -/
def correctedWord (l : Nat) (g : Agent) (s : State) (x : Fin 8 × Nat) : State :=
  let addr := 64 * l + 8 * x.1
  let s := s.modStore fun t => { t with ce := sat 16 (t.ce + 1), ceAddr := addr }
  notePage (linePage l) (logStore addr x.2 .corrected g (countLife 7 1 s))

/-- The corrected words of a line, the first of them at `w`; a line whose second read still shows an error is remapped
(R95, R113). -/
def corrected (l : Nat) (w : Fin 8) (syn : Nat) (more : List (Fin 8 × Nat)) (hard : Bool) (g : Agent) (s : State) : State :=
  let s := ((w, syn) :: more).foldl (correctedWord l g) s
  if hard then remapLine l (64 * l + 8 * w) syn g s else s

/-- Stored poison in a line (R96). The line keeps the bytes that it held (log 104). -/
def poisonLine (l : Nat) (s : State) : State := s.modStore fun t => { t with poison := addNat l t.poison }

/-- An uncorrectable line that is not stored poison: its words are logged, and a remap entry takes it with its poison (R95,
R111, R116). -/
def uncorrected (l : Nat) (w : Fin 8) (syn : Nat) (more fixed : List (Fin 8 × Nat)) (g : Agent) (s : State) : State :=
  let s := countLife 8 1 (s.modStore fun t => { t with ue := sat 8 (t.ue + 1) })
  let s := ((w, syn) :: more).foldl (fun s x => logStore (64 * l + 8 * x.1) x.2 .uncorrectable g s) s
  let s := remapLine l (64 * l + 8 * w) syn g (fixed.foldl (correctedWord l g) s)
  if remapped s l then poisonLine l s else s

def isPoison (s : State) (l : Nat) : Bool := s.store.poison.contains l

/-- What a read of one line shows: the state with what it logged, and whether the line is delivered poisoned
(R95, R96, R108, R114). A poison read is logged at the line's first word (log 125). -/
def readLine (g : Agent) (l : Nat) (e : EccRead) (s : State) : State × Bool :=
  if isPoison s l then (logStore (64 * l) 0xFF .poison g s, true)
  else if remapped s l then (s, false)
  else
    match e with
    | .clean => (s, false)
    | .corrected w syn more hard => (corrected l w syn more hard g s, false)
    | .uncorrectable w syn more fixed => (uncorrected l w syn more fixed g s, true)

/-- What the command says of a line; a line that it does not name reads clean. -/
def eccOf (ecc : List (Nat × EccRead)) (l : Nat) : EccRead :=
  match ecc.find? fun x => x.1 = l with | some x => x.2 | none => .clean

/-- Bytes of one line in the store: poisoned data poison the line, all 64 bytes clear its poison, and a write-back that waits
for the line is cancelled (R96, R100, R110). -/
def Store.put (a : Nat) (bs : List Byte) (bad : Bool) (t : Store) : Store :=
  { t with mem := memWrite t.mem a bs
           poison := if bad then addNat (lineOf a) t.poison
                     else if bs.length = 64 then t.poison.filter (· != lineOf a) else t.poison
           scrubFix := t.scrubFix.filter fun x => x.line != lineOf a }

/-- The bytes of an entry, in runs from byte `i` on. -/
def entryBytes (m : List Host.Cell) (e : MergeEntry) : List Byte :=
  (List.range 64).map fun i => match e.bytes.find? fun x => x.1 = i with | some x => x.2 | none => memGet m (64 * e.line + i)

/-- Bytes join an entry, in arrival order (R104); a clean write of the whole line clears its poison (R110). -/
def MergeEntry.put (e : MergeEntry) (off : Nat) (bs : List Byte) (bad : Bool) : MergeEntry :=
  { e with bytes := (e.bytes.filter fun x => decide (x.1 < off) || decide (off + bs.length ≤ x.1)) ++
                      bs.zipIdx.map fun x => (off + x.2, x.1)
           poison := bad || (e.poison && bs.length != 64) }

/-- The merge-buffer entry of a line. -/
def Store.entryOf (t : Store) (l : Nat) : Option Nat :=
  (List.range 16).find? fun k => match tab t.merge none k with | some e => e.line = l | none => false

/-- A write of the migration: into the merge-buffer entry that holds the line, which leaves with 64 bytes, or into the store (R104,
R105, R120). -/
def Store.mirror (a : Nat) (bs : List Byte) (bad : Bool) (t : Store) : Store :=
  match t.entryOf (lineOf a) with
  | none => t.put a bs bad
  | some k =>
    match tab t.merge none k with
    | none => t.put a bs bad
    | some e =>
      let e := e.put (a % 64) bs bad
      if e.bytes.length = 64 then
        ({ t with merge := updAt t.merge k fun _ => none } : Store).put (64 * e.line) (entryBytes t.mem e) e.poison
      else
        { t with merge := updAt t.merge k fun _ => some e, scrubFix := t.scrubFix.filter fun x => x.line != lineOf a }

/-- A write of part of a line reaches the store, and the destination of a migration that has copied the line (R120). -/
def Store.write (a : Nat) (bs : List Byte) (bad : Bool) (t : Store) : Store :=
  let u := t.put a bs bad
  if t.migActive && pageOf a = t.migSource && decide (lineOf a % 16384 < t.migDone) then
    u.mirror (a - t.migSource * pageBytes + t.migDest * pageBytes) bs bad
  else u

def lineWrite (bad : Bool) (a : Nat) (bs : List Byte) (s : State) : State := s.modStore (Store.write a bs bad)

/-- An entry leaves the merge buffer for the store (R107, R110). A line that is stored poison already is logged as a poison
read, stays poisoned and raises nothing (log 104). -/
def flushEntry (k : Nat) (ecc : EccRead) (s : State) : State :=
  match tab s.store.merge none k with
  | none => s
  | some e =>
    let s := s.modStore fun t => { t with merge := updAt t.merge k fun _ => none }
    let data := entryBytes s.store.mem e
    if e.bytes.length = 64 then lineWrite e.poison (64 * e.line) data s
    else
      let was := isPoison s e.line
      let (s, bad) := readLine .flush e.line ecc s
      let s := lineWrite (bad || e.poison) (64 * e.line) data s
      if bad && !was then raise 0x1C0 s else s

/-- Some of the words of a line but those of `but`, with a syndrome each: open values from number `n` on. -/
def freeWords (but : List (Fin 8)) (n : Nat) : List (Fin 8 × Nat) :=
  ((List.finRange 8).filter fun w : Fin 8 => (Config.freeNat n).testBit w.val && !but.contains w).map fun w =>
    (w, Config.freeNat (n + 1 + w.val) % 256)

/-- What the read of a flush shows that a write forces: open, in every word (R95, R107; log 105). -/
def freeEcc (n : Nat) : EccRead :=
  let w := Fin.ofNat 8 (Config.freeNat (n + 1))
  let syn := Config.freeNat (n + 2) % 256
  let more := freeWords [w] (n + 3)
  match Config.freeNat n % 3 with
  | 0 => .clean
  | 1 => .corrected w syn more (Config.freeBool n)
  | _ => .uncorrectable w syn more (freeWords (w :: more.map (·.1)) (n + 12))

/-- The merge-buffer entry of a line. -/
def mergeOf (s : State) (l : Nat) : Option Nat := s.store.entryOf l

/-- The oldest entry, while all 16 are occupied (R105; log 25). -/
def oldestEntry (s : State) : Nat :=
  (List.range 16).foldl (fun b k =>
    match tab s.store.merge none b, tab s.store.merge none k with
    | some x, some y => if y.age < x.age then k else b
    | _, _ => b) 0

/-- Bytes of one line join entry `k`; an entry with all 64 leaves (R104, R105). A write-back that waits for the line is
cancelled (R100). -/
def mergeJoin (bad : Bool) (a : Nat) (bs : List Byte) (k : Nat) (s : State) : State :=
  let s := s.modStore fun t =>
    { t with merge := updAt t.merge k fun x => x.map fun e => e.put (a % 64) bs bad
             scrubFix := t.scrubFix.filter fun x => x.line != lineOf a }
  match tab s.store.merge none k with
  | some e => if e.bytes.length = 64 then flushEntry k .clean s else s
  | none => s

/-- The oldest entry is flushed to make room (R105, R107; log 105). -/
def forceFlush (s : State) : State := flushEntry (oldestEntry s) (freeEcc s.freeCtr) (s.modFreeCtr (· + 21))

/-- Bytes of one line enter the merge buffer (R103 to R105; log 25). -/
def mergeWrite (bad : Bool) (a : Nat) (bs : List Byte) (s : State) : State :=
  match mergeOf s (lineOf a) with
  | some k => mergeJoin bad a bs k s
  | none =>
    let free := (List.range 16).find? fun k => (tab s.store.merge none k).isNone
    let k := free.getD (oldestEntry s)
    let s := if free.isSome then s else forceFlush s
    mergeJoin bad a bs k (s.modStore fun t =>
      { t with mergeSeq := t.mergeSeq + 1
               merge := updAt t.merge k fun _ => some { line := lineOf a, bytes := [], poison := false, age := t.mergeSeq } })

/-- The bytes of a write that fall into its first line. -/
def firstPart (a : Nat) (bs : List Byte) : List Byte := bs.take (64 - a % 64)

/-- A write, line by line: into the merge buffer when it is narrow or unaligned, or overlaps a held line (R103, R104).
Each part takes a byte or more, so `fuel` counts them. -/
def storeWriteFrom (narrow bad : Bool) : Nat → Nat → List Byte → State → State
  | 0, _, _, s => s
  | fuel + 1, a, bs, s =>
    if bs.isEmpty then s
    else
      let p := firstPart a bs
      let s := if narrow || (mergeOf s (lineOf a)).isSome then mergeWrite bad a p s else lineWrite bad a p s
      storeWriteFrom narrow bad fuel (a + p.length) (bs.drop p.length) s

/-- A write to the store; `bad` for poisoned data (R96, R481). One whose length is no multiple of 8 bytes enters the merge buffer as a
whole (R103; log 125). -/
def storePut (bad : Bool) (a : Nat) (bs : List Byte) (s : State) : State :=
  storeWriteFrom (a % 8 != 0 || bs.length % 8 != 0) bad bs.length a bs s

def storeWrite (a : Nat) (bs : List Byte) (s : State) : State := storePut false a bs s

/-- Lines that a range of bytes touches. -/
def linesOf (a n : Nat) : List Nat := if n = 0 then [] else (List.range (lineOf (a + n - 1) + 1 - lineOf a)).map (lineOf a + ·)

/-- A read of a line by an agent: an entry of the merge buffer leaves first, and then the read finds what it wrote (R106). -/
def readMerged (g : Agent) (l : Nat) (e : EccRead) (s : State) : State × Bool :=
  match mergeOf s l with
  | some k => readLine g l .clean (flushEntry k e s)
  | none => readLine g l e s

/-- A read of lines by an agent: the state and the lines delivered poisoned. -/
def readLines (g : Agent) (ecc : List (Nat × EccRead)) : List Nat → State → State × List Nat
  | [], s => (s, [])
  | l :: r, s =>
    let (s, bad) := readMerged g l (eccOf ecc l) s
    let (s, bads) := readLines g ecc r s
    (s, if bad then l :: bads else bads)

/-- A page is retired: its remap entries are freed, and it joins the list, which stands oldest first (R115, R118, R123,
R492). -/
def retirePage (p : Nat) (s : State) : State :=
  s.modStore fun t => { t with retired := if t.retired.contains p then t.retired else t.retired ++ [p]
                               remap := t.remap.map fun x => if x.any (fun l => linePage l = p) then none else x }

/-- Store address of byte `x` of a job's run (R79, R93). -/
def jobAddr (j : Job) (x : Nat) : Nat :=
  match j.pages.find? fun p => p.1 = x / pageBytes with
  | some p => p.2 * pageBytes + x % pageBytes
  | none => 0

/-- Bytes of a job's run, page by page; `fuel` counts parts. -/
def jobWriteFrom (j : Job) : Nat → Nat → List Byte → State → State
  | 0, _, _, s => s
  | fuel + 1, x, bs, s =>
    if bs.isEmpty then s
    else
      let p := bs.take (pageBytes - x % pageBytes)
      jobWriteFrom j fuel (x + p.length) (bs.drop p.length) (storeWrite (jobAddr j x) p s)

def jobWrite (j : Job) (x : Nat) (bs : List Byte) (s : State) : State := jobWriteFrom j (bs.length / pageBytes + 2) x bs s

/-- The byte that a read of an address returns, with what the merge buffer holds of its line (R106). -/
def heldByte (s : State) (a : Nat) : Byte :=
  match (mergeOf s (lineOf a)).bind fun k => tab s.store.merge none k with
  | some e => match e.bytes.find? fun x => x.1 = a % 64 with | some x => x.2 | none => memGet s.store.mem a
  | none => memGet s.store.mem a

/-- Bytes of a job's run. -/
def jobRead (s : State) (j : Job) (x n : Nat) : List Byte :=
  if s.store.merge.toList.all (·.isNone) then (List.range n).map fun i => memGet s.store.mem (jobAddr j (x + i))
  else (List.range n).map fun i => heldByte s (jobAddr j (x + i))

end Sys2Proof.Machine
end

