-- ==== Sys2Proof/Machine/JobMsg.lean ====
section
/-! DEFINITION. Jobs and frames: JOB_OPEN, JOB_CLOSE, QUOTA_SET, the decision and commit of frames (R74, R76 to R85). -/

namespace Sys2Proof.Machine

open Sys2Proof.Bits

/-- The last's entry covers the blend regions of every station printed (R233). -/
def blendFits (s : State) (last stations : Nat) : Bool :=
  (bitsOf 8 stations).all fun n => decide (s.img.corH n 20 + s.img.corH n 22 ≤ s.img.width last)

/-- Ranges of JOB_OPEN (R75, R233). -/
def jobOpenRange (last stations vAdm quota : Nat) (s : State) : Bool :=
  decide (last < s.img.lasts) && (bitsOf 8 stations).all (fun n => s.img.stationEn n) && inR vAdm 50 1500 &&
  inR quota 1 8192 && blendFits s last stations

/-- A new job. -/
def newJob (h : MsgHdr) (last stations vAdm quota : Nat) : Job :=
  { id := h.job, last := last, stations := BitVec.ofNat 8 stations, vAdm := vAdm, quota := quota, closed := false,
    queue := h.q, quotaArmed := false, pages := [], next := 0, peak := each 8 0 }

/-- A new job of the last run's identity: no mark report has been taken for it (R176). -/
def forgetMarks (id : Nat) (s : State) : State :=
  if s.run.job = id && !s.run.active then s.modReg fun v => v.map fun r => { r with seen := [] } else s

/-- JOB_OPEN (R74). -/
def jobOpen (h : MsgHdr) (last stations vAdm quota : Nat) (s : State) : State :=
  message h (jobNew h) inOpen (jobOpenRange last stations vAdm quota) (fun r s =>
    if 16 ≤ s.jobs.jobs.length then reject r .noRoom s
    else complete r .ok 0 (forgetMarks h.job (s.modJobs fun j => { j with jobs := j.jobs ++ [newJob h last stations vAdm quota] }))) s

def execJobOpen (h : MsgHdr) (last stations vAdm quota : Nat) (s : State) : Host.Outcome State Fault Refusal :=
  .next (jobOpen h last stations vAdm quota s)

/-- Repetitions of committed frames that have not started. -/
def unstarted (fs : List Frame) : Nat := (fs.filter (·.committed)).foldl (fun n f => n + (f.rep - f.started)) 0

/-- A frame without the repetitions that have not started (R74, MODE 1). -/
def Frame.withdraw (f : Frame) : Frame := if f.committed then { f with rep := f.started } else f

/-- The job is closed, and what nothing holds any more leaves. -/
def closeJob (id : Nat) (s : State) : State :=
  releaseEntries (releaseData id (s.modJob id fun j => { j with closed := true }))

/-- JOB_CLOSE (R74, table "Message payloads"). -/
def jobClose (h : MsgHdr) (mode : Nat) (s : State) : State :=
  message h (jobHeld h) inAny (fun _ => decide (mode ≤ 1)) (fun r s =>
    if mode = 0 then closeJob h.job (complete r .ok 0 s)
    else if runHolds s h.job then reject r .state s
    else
      let n := unstarted (s.framesOf h.job)
      let s := complete r .ok n s
      closeJob h.job (s.modJobs fun j => { j with frames := j.frames.map fun f => if f.job = h.job then f.withdraw else f })) s

def execJobClose (h : MsgHdr) (mode : Nat) (s : State) : Host.Outcome State Fault Refusal := .next (jobClose h mode s)

/-- QUOTA_SET (R74, R85). -/
def quotaSet (h : MsgHdr) (quota : Nat) (s : State) : State :=
  message h (jobHeld h) inAny (fun _ => inR quota 1 8192) (fun r s =>
    match s.job? h.job with
    | none => s
    | some j =>
      if j.closed then reject r .state s
      else noteQuota h.job (complete r .ok j.occupancy (s.modJob h.job fun j => { j with quota := quota, queue := h.q }))) s

def execQuotaSet (h : MsgHdr) (quota : Nat) (s : State) : Host.Outcome State Fault Refusal := .next (quotaSet h quota s)

/-- B in cycles (section "Admission"). -/
def lineBudget (vAdm : Nat) : Nat := 7620000 / vAdm

/-- DEC + 1.125 × W_MIN exceeds STORE_BW: with Σ b in bytes and t_L = 0.0127 ÷ V_ADM s (section "Admission"). -/
def overBandwidth (l : Img) (vAdm sum : Nat) : Bool := decide (101600 * l.storeBw < 9 * (sum * vAdm + 12700 * l.wMinBw))

/-- Sum of b_n with each station of the job at least at `f n`. -/
def peakSum (j : Job) (f : Nat → Nat) : Nat :=
  eight.foldl (fun t n => t + (if j.stations.getLsbD n then max (tab j.peak 0 n) (f n) else tab j.peak 0 n)) 0

/-- S of R79. -/
def frameSpace (l : Img) (j : Job) (raw : Bool) (len : Nat) : Nat :=
  if raw then len + 16 * l.lF j.last * popCount 8 j.stations.toNat else len

/-- BASE_REF names a base layer that the controller holds (R77). -/
def baseHeld (s : State) (id base : Nat) : Bool :=
  base = 0xFFFFFFFF || (s.baseNo? id base).any fun f => f.base.isNone && f.live

/-- Status of the decision stage (R77, R78); BASE_REF is judged before the closed job of R74 (log 109). -/
def decide78 (s : State) (j : Job) (raw : Bool) (len base cycles bytes : Nat) : Status :=
  let fresh := newPages (s.framesOf j.id) (frameSpace s.img j raw len)
  if (if raw then base != 0xFFFFFFFF else !baseHeld s j.id base) then .field
  else if j.closed then .state
  else if 4096 ≤ s.tableUsed then .noRoom
  else if lineBudget j.vAdm < cycles then .budget
  else if overBandwidth s.img j.vAdm (peakSum j fun _ => bytes) then .budget
  else if j.quota < j.occupancy + fresh then .quota
  else if (s.freePages fresh).length < fresh then .noRoom
  else .ok

/-- Pages `ps` follow the job's run from page number `k` on. -/
def numberPages (k : Nat) (ps : List Nat) : List (Nat × Nat) := ps.zipIdx.map fun x => (k + x.2, x.1)

/-- The frame is decided: its entry, and its reservation (R78, R79). -/
def reserve (r : MsgRef) (j : Job) (raw : Bool) (src len rep base : Nat) (s : State) : State :=
  let fs := s.framesOf j.id
  let size := frameSpace s.img j raw len
  let pages := s.freePages (newPages fs size)
  let f : Frame := { entry := s.jobs.nextEntry, job := j.id, ref := r, raw := raw, src := src, len := len, rep := rep, taken := rep,
                     base := if base = 0xFFFFFFFF then none else some base,
                     off := runEnd fs, size := size, committed := false, first := 0, started := 0, ended := 0, spoiled := 0,
                     streams := [] }
  let s := s.modJobs fun x => { x with frames := x.frames ++ [f], nextEntry := x.nextEntry + 1 }
  let s := s.modJob j.id fun x => { x with pages := x.pages ++ numberPages ((runEnd fs + pageBytes - 1) / pageBytes) pages }
  noteQuota j.id s

/-- Ranges of FRAME_PUT and FRAME_PUT_RAW. -/
def framePutRange (src len rep : Nat) : Bool := src % 16 = 0 && inR len 80 (2 ^ 32 - 16) && inR rep 1 65535

/-- A service, or a raw frame whose transfer no earlier frame of its job holds up (R81). -/
def cmpReady (s : State) (x : Service ⊕ Nat) : Bool :=
  match x with
  | .inl _ => true
  | .inr e => s.jobs.frames.any fun f => f.entry = e && ((s.framesOf f.job).find? fun g => !g.committed) = some f

/-- Compressor `u`, when free, takes the first of the waiting that can begin (R147). -/
def feedUnitCmp (s : State) (u : Nat) : State :=
  match tab s.host.cmp none u, s.host.cmpWait.find? (cmpReady s) with
  | none, some w => s.modHost fun h => { h with cmp := updAt h.cmp u fun _ => some w, cmpWait := h.cmpWait.erase w }
  | _, _ => s

/-- Waiting messages and raw frames take free compressors in fetch order, a frame not before its first line can be fetched
(R81, R147). -/
def feedCompressors (s : State) : State := (List.range 2).foldl feedUnitCmp s

/-- The decision of FRAME_PUT and FRAME_PUT_RAW (R78). -/
def framePut (raw : Bool) (h : MsgHdr) (src len rep base cycles bytes : Nat) (s : State) : State :=
  message h (jobHeld h) inOpen (fun _ => framePutRange src len rep) (fun r s =>
    match s.job? h.job with
    | none => s
    | some j =>
      match decide78 s j raw len base cycles bytes with
      | .ok =>
        let e := s.jobs.nextEntry
        let s := completeWith r .ok 0 true false (reserve r j raw src len rep base s)
        if raw then feedCompressors (s.modHost fun x => { x with cmpWait := x.cmpWait ++ [.inr e] }) else s
      | st => reject r st s) s

def execFramePut (h : MsgHdr) (src len rep baseRef declCycles declBytes : Nat) (s : State) :
    Host.Outcome State Fault Refusal := .next (framePut false h src len rep baseRef declCycles declBytes s)

def execFramePutRaw (h : MsgHdr) (src len rep baseRef declCycles declBytes : Nat) (s : State) :
    Host.Outcome State Fault Refusal := .next (framePut true h src len rep baseRef declCycles declBytes s)

/-- A later frame of the job lies `n` bytes lower. -/
def Frame.lower (id entry n : Nat) (f : Frame) : Frame :=
  if f.job = id ∧ entry < f.entry then { f with off := f.off - n } else f

/-- Bytes not used are given back: the job's later reservations move down (R79). -/
def giveBack (id entry n : Nat) (s : State) : State :=
  s.modJobs fun j => { j with frames := j.frames.map (Frame.lower id entry n) }

/-- A raw frame leaves its compressor, or the queue for one (R147). -/
def freeCompressor (entry : Nat) (s : State) : State :=
  feedCompressors (s.modHost fun h =>
    { h with cmp := h.cmp.map fun x => if x = some (.inr entry) then none else x
             cmpWait := h.cmpWait.filter fun x => x != .inr entry })

/-- A frame leaves the frame table uncommitted, with its reservation (R62, R65, R80). -/
def dropFrame (f : Frame) (s : State) : State :=
  let s := giveBack f.job f.entry f.size s
  let s := s.modJobs fun j => { j with frames := j.frames.filter fun g => g.entry != f.entry }
  releaseEntries (releaseData f.job (freeCompressor f.entry s))

/-- Every uncommitted frame that satisfies `p` is abandoned (R62, R65). -/
def abandonFrames (p : Frame → Bool) (s : State) : State :=
  (s.jobs.frames.filter fun f => !f.committed && p f).foldl (fun s f => dropFrame f s) s

/-- Entry of the station table: offset and length (section "Frame data"). -/
def tableEntry (d : List Byte) (n : Nat) : Nat × Nat := (u32 d (8 * n), u32 d (8 * n + 4))

/-- Two streams share a byte. -/
def overlap (a b : Nat × Nat) : Bool := decide (a.1 < b.1 + b.2 ∧ b.1 < a.1 + a.2)

/-- No stream shares a byte with another. -/
def disjoint : List (Nat × Nat) → Bool
  | [] => true
  | a :: r => r.all (fun b => !overlap a b) && disjoint r

/-- The station table holds streams of the job's stations only, aligned, within the data, apart from one another. -/
def tableOk (j : Job) (d : List Byte) : Bool :=
  eight.all (fun n =>
    let e := tableEntry d n
    if j.stations.getLsbD n then
      e.2 = 0 || (e.1 % 16 = 0 && decide (64 ≤ e.1) && decide (e.1 + e.2 ≤ d.length))
    else e = (0, 0)) &&
  disjoint ((eight.map (tableEntry d)).filter fun e => e.2 != 0)

/-- Costs of consecutive blocks of one line added up. -/
def lineCosts : List (Nat × Nat × Nat) → List (Nat × Nat × Nat)
  | [] => []
  | (l, c, b) :: r =>
    match lineCosts r with
    | (l', c', b') :: t => if l = l' then (l, c + c', b + b') :: t else (l, c, b) :: (l', c', b') :: t
    | [] => [(l, c, b)]

/-- Two lists in line order, joined in line order; `fuel` counts entries. -/
def joinCosts : Nat → List (Nat × Nat × Nat) → List (Nat × Nat × Nat) → List (Nat × Nat × Nat)
  | 0, _, _ => []
  | _, [], y => y
  | _, x, [] => x
  | n + 1, a :: x, b :: y => if a.1 ≤ b.1 then a :: joinCosts n x (b :: y) else b :: joinCosts n (a :: x) y

/-- Base blocks of a stored full stream, whose headers a commit has checked: line, c, b. -/
def baseCosts : Nat → List Byte → List (Nat × Nat × Nat)
  | 0, _ => []
  | fuel + 1, b =>
    if b.length < 16 then []
    else
      let h := readHdr b
      let rest := baseCosts fuel (b.drop (16 + h.payload))
      if h.overlay then rest else (h.line, blockCost h.pixels h.payload, 16 + h.payload) :: rest

/-- Bytes of station `n`'s stream of a stored frame. -/
def storedStream (s : State) (j : Job) (f : Frame) (n : Nat) : List Byte :=
  match f.streams.find? fun x => x.1 = n with
  | some (_, o, len) => jobRead s j (f.off + o) len
  | none => []

/-- Peak C and peak b of a list of lines. -/
def peaks (ls : List (Nat × Nat × Nat)) : Nat × Nat := ls.foldl (fun m x => (max m.1 x.2.1, max m.2 x.2.2)) (0, 0)

/-- Commit checks and measured peaks of one stream; none for a violation (R76, R80, R140). -/
def measureStream (s : State) (j : Job) (f : Frame) (n : Nat) (b : List Byte) : Option (Nat × Nat) :=
  let full := f.base.isNone
  match walkStream full (s.img.width j.last) (s.img.lF j.last) (b.length / 16 + 2) { last := none, lastBase := false } b with
  | .inr _ => none
  | .inl ls =>
    match f.base.bind fun k => s.baseNo? j.id k with
    | none => some (peaks (lineCosts ls))
    | some g =>
      let base := baseCosts (s.img.lF j.last * 2) (storedStream s j g n)
      some (peaks (lineCosts (joinCosts (base.length + ls.length) base ls)))

/-- A raw stream compressed line by line, LAST on its final block (R137, R145; log 19). -/
def compressStream (s : State) (j : Job) (b : List Byte) : List Byte :=
  let w := s.img.width j.last
  (compressLines w false false (2 ^ 40) true (List.replicate w 0) 0 (chunks (w / 2) (s.img.lF j.last) b) SvcSum.zero).1.out

/-- Padding to 16 bytes. -/
def pad16 (b : List Byte) : List Byte := b ++ List.replicate ((16 - b.length % 16) % 16) 0

/-- Stored data of a raw frame: a station table and the compressed streams, 16-byte aligned (R76, R79, log 19). -/
def packStreams (streams : List (Nat × List Byte)) : List Byte :=
  let placed := streams.foldl (fun (t : List (Nat × Nat × Nat) × List Byte) x =>
    (t.1 ++ [(x.1, 64 + t.2.length, x.2.length)], t.2 ++ pad16 x.2)) ([], [])
  (eight.flatMap fun n => match placed.1.find? fun e => e.1 = n with
    | some (_, o, len) => toLE 4 o ++ toLE 4 len
    | none => List.replicate 8 0) ++ placed.2

/-- What the commit stage found: a status, the data to store, and the peaks by station. -/
structure Measured where
  status : Status
  data : List Byte
  cycles : Nat
  bytes : Vector Nat 8

/-- A rejection of the commit stage. -/
def Measured.bad (st : Status) : Measured := { status := st, data := [], cycles := 0, bytes := each 8 0 }

/-- Data to store, with every raw stream compressed; none when a raw stream has the wrong length (R76). -/
def toStore (s : State) (j : Job) (f : Frame) (d : List Byte) : Option (List Byte) :=
  if !f.raw then some d
  else
    let w := s.img.width j.last
    let ss := (bitsOf 8 j.stations.toNat).map fun n => (n, (d.drop (tableEntry d n).1).take (tableEntry d n).2)
    if ss.all fun x => x.2.length = s.img.lF j.last * (w / 2) then
      some (packStreams (ss.map fun x => (x.1, compressStream s j x.2)))
    else none

/-- Commit stage: checks, measured peaks, and BUDGET (R80). -/
def measure (s : State) (j : Job) (f : Frame) (d : List Byte) : Measured :=
  if !tableOk j d then .bad .integrity
  else
    match toStore s j f d with
    | none => .bad .integrity
    | some d =>
      let found := (bitsOf 8 j.stations.toNat).map fun n =>
        (n, measureStream s j f n ((d.drop (tableEntry d n).1).take (tableEntry d n).2))
      if found.any fun x => x.2.isNone then .bad .integrity
      else
        let at' (n : Nat) : Nat × Nat := ((found.find? fun x => x.1 = n).bind (·.2)).getD (0, 0)
        let c := eight.foldl (fun m n => max m (at' n).1) 0
        let m : Measured := { status := .ok, data := d, cycles := c, bytes := Vector.ofFn fun n => (at' n.val).2 }
        if decide (lineBudget j.vAdm < c) || overBandwidth s.img j.vAdm (peakSum j fun n => (at' n).2) then { m with status := .budget }
        else m

/-- Streams of stored data. -/
def streamTable (j : Job) (d : List Byte) : List (Nat × Nat × Nat) :=
  (bitsOf 8 j.stations.toNat).map fun n => (n, tableEntry d n)

/-- The frame is committed: numbers, data in the store, and what it did not use given back (R79, R80). -/
def commit (j : Job) (f : Frame) (m : Measured) (s : State) : State :=
  let s := jobWrite j f.off m.data s
  let s := s.modFrame f.entry fun x =>
    { x with committed := true, first := j.next, size := m.data.length, streams := streamTable j m.data }
  let s := s.modJob j.id fun x =>
    { x with next := x.next + f.rep, peak := Vector.ofFn fun n => max x.peak[n] m.bytes[n] }
  let s := completeWith f.ref .ok j.next false false (giveBack j.id f.entry (f.size - m.data.length) s)
  releasePages j.id (freeCompressor f.entry s)

/-- The commit stage rejects the frame (R80). -/
def rejectCommit (f : Frame) (st : Status) (s : State) : State := dropFrame f (reject f.ref st s)

/-- The frame of a job whose transfer runs: the first not committed (R81); a raw one holds a compressor (R147). -/
def transferOf (s : State) (id : Nat) : Option Frame :=
  match (s.framesOf id).find? fun f => !f.committed with
  | none => none
  | some f => if f.raw && !s.host.cmp.toList.contains (some (.inr f.entry)) then none else some f

/-- FRAME_COMMIT (R80, R81): the last byte of the job's transfer has been read, or its read has failed. -/
def frameCommit (id : Nat) (data : List Byte) (read : HostRead) (s : State) : State :=
  match s.job? id, transferOf s id with
  | some j, some f =>
    match read with
    | .timeout => rejectCommit f .timeout s
    | .error | .poisoned => rejectCommit f .integrity s
    | .ok =>
      if data.length != f.len then s
      else
        let m := measure s j f data
        if m.status = .ok then commit j f m s else rejectCommit f m.status s
  | _, _ => s

def execFrameCommit (job : Nat) (data : List Byte) (read : HostRead) (s : State) : Host.Outcome State Fault Refusal :=
  .next (frameCommit job data read s)

end Sys2Proof.Machine
end

