-- ==== Sys2Proof/Machine/HostLink.lean ====
section
/-! DEFINITION. The host link: doorbells, queue control, completions and events that waited, interface resets and
power states (R62 to R70, R506, R507). -/

namespace Sys2Proof.Machine

open Sys2Proof.Bits

def modQ (q : Fin 8) (f : QPair → QPair) (s : State) : State := s.modHost fun h => { h with q := upd h.q q f }

/-- A doorbell: discarded while the pair is disabled, out of range by R66, or accepted by `f`. -/
def doorbell (q : Fin 8) (value : Word) (f : Nat → QPair → QPair) (s : State) : State :=
  let i := field value.toNat 11 0
  if !barOpen s || !s.host.q[q].enable then s
  else if s.host.q[q].size < i then raise 0x1F0 (setsBit (0x1104 + 0x40 * q) 1 <| modQ q (fun x => { x with dbErr := true }) s)
  else modQ q (f i) s

/-- SUBMISSION_QUEUE_TAIL_WRITE (R66). -/
def execSubmissionQueueTailWrite (q : Fin 8) (value : Word) (s : State) : Host.Outcome State Fault Refusal :=
  .next (doorbell q value (fun i x => { x with sqTail := i }) s)

/-- COMPLETION_QUEUE_HEAD_WRITE (R66, R68). -/
def execCompletionQueueHeadWrite (q : Fin 8) (value : Word) (s : State) : Host.Outcome State Fault Refusal :=
  .next (doorbell q value (fun i x => { x with cqHead := i }) s)

/-- The pair as it stands disabled: nothing waits, and the completions of messages that still run are never
written (R65). An interrupt that COALESCE still owes is dropped (log 123). -/
def QPair.disabled (x : QPair) : QPair :=
  { x with enable := false, halted := false, waiting := [], unsignalled := false, running := 0, epoch := x.epoch + 1 }

/-- The pair as it stands enabled (R65). -/
def QPair.enabled (x : QPair) : QPair :=
  { x with enable := true, halted := false, sqHead := 0, head := none, sqTail := 0, cqHead := 0, cqWr := 0, phase := true }

/-- The fields of HQn_CTRL that may be written while the pair is enabled. -/
def QPair.setCtrl (v : Nat) (x : QPair) : QPair :=
  { x with vector := field v 21 16, irqEn := bit v 22, coalesce := field v 31 24 }

/-- A write of HQn_CTRL (R65). -/
def writeQueueControl (q : Fin 8) (v : Nat) (s : State) : State :=
  let x := s.host.q[q]
  let size := field v 15 4
  if x.enable then
    let s := modQ q (QPair.setCtrl v) s
    if bit v 0 then s else abandonFrames (fun f => f.ref.q = q) (modQ q QPair.disabled s)
  else if bit v 0 then
    if size = 0 then s else modQ q (fun x => QPair.enabled { x.setCtrl v with size := size }) s
  else modQ q (fun x => { x.setCtrl v with size := size }) s

/-- QUEUE_CONTROL_WRITE (R65). -/
def execQueueControlWrite (q : Fin 8) (value : Word) (s : State) : Host.Outcome State Fault Refusal :=
  .next (if barOpen s then writeQueueControl q value.toNat s else s)

/-- COMPLETION_WRITE_RESUMED (R68, R69, R72): the oldest completion that waits is written once a slot is free, and no older
event waits for the queue. -/
def execCompletionWriteResumed (q : Fin 8) (s : State) : Host.Outcome State Fault Refusal :=
  let x := s.host.q[q]
  match x.waiting with
  | [] => .next s
  | c :: r =>
    if slotFree q s && !eventFirst q s then
      .next (putCompletion q c (modQ q (fun x => { x with waiting := r }) s))
    else .next s

/-- COALESCE_TIMER_EXPIRY (R69). -/
def execCoalesceTimerExpiry (q : Fin 8) (s : State) : Host.Outcome State Fault Refusal :=
  let x := s.host.q[q]
  if x.unsignalled && hostUp s then
    let s := modQ q (fun x => { x with unsignalled := false }) s
    .next (if x.irqEn then sendMsix x.vector s else s)
  else .next s

/-- Waiting events are written, oldest first, while their queue has a free slot and no older completion waits for it (R69, R70);
`fuel` counts them. -/
def drainEvents : Nat → State → State
  | 0, s => s
  | fuel + 1, s =>
    match s.host.evt.fifo with
    | [] => s
    | c :: r =>
      if slotFree s.host.evt.cq s && eventFirst s.host.evt.cq s then
        drainEvents fuel (putCompletion s.host.evt.cq c (s.modHost fun h => { h with evt := { h.evt with fifo := r } }))
      else s

/-- EVENT_FIFO_DRAIN (R70): EVT_LOST is the next event written once space has returned. -/
def execEventFifoDrain (s : State) : Host.Outcome State Fault Refusal :=
  let q := s.host.evt.cq
  if s.host.evt.enable && slotFree q s && (s.host.q[q].waiting.isEmpty || eventFirst q s) then .next (drainEvents 64 (writeLost s))
  else .next s

/-- A DMA instruction with a host burst outstanding fails as by a completion timeout (R480). -/
def Chan.loseHost (c : Chan) : Chan :=
  match c.hostOut with
  | some a => { c with failed := c.failed.or (some (.timeout, a, 0)), hostOut := none }
  | none => c

/-- MSI-X table and pending bits at their reset values (R504; log 4; log 20; log 67). -/
def resetMsix (s : State) : State :=
  s.modHost fun h => { h with msixMask := BitVec.allOnes 64, msixPend := 0, msixTab := each 64 0 }

/-- The queue registers at their reset values (R62). -/
def QPair.linkReset (x : QPair) : QPair := { QPair.reset with epoch := x.epoch + 1 }

/-- HOST_LINK_RESET (R62, R63, R480, R504). The four kinds differ in nothing here: each resets the MSI-X structures, and
leaves D0 in force (log 20). -/
def hostLinkReset (s : State) : State :=
  if !hostUp s then s
  else
    let s := abandonFrames (fun _ => true) s
    let s := s.modHost fun h => { h with q := h.q.map QPair.linkReset, d3hot := false }
    let s := s.modDma fun d => { d with ch := d.ch.map Chan.loseHost }
    raise 0x1F1 (resetMsix s)

def execHostLinkReset (kind : LinkReset) (s : State) : Host.Outcome State Fault Refusal :=
  match kind with
  | .functionLevel | .hot | .linkDown | .perst => .next (hostLinkReset s)

/-- D3HOT_ENTRY (R64). -/
def execD3hotEntry (s : State) : Host.Outcome State Fault Refusal :=
  .next (if hostUp s then s.modHost fun h => { h with d3hot := true } else s)

/-- D3HOT_EXIT (R64): the function is in D0 again; fetching and completions go on. -/
def execD3hotExit (s : State) : Host.Outcome State Fault Refusal :=
  .next (s.modHost fun h => { h with d3hot := false })

/-- A vector is unmasked: a message that the mask held pending is sent (R507). -/
def unmaskVector (v : Nat) (s : State) : State :=
  let held := s.host.msixPend.getLsbD v
  let s := s.modHost fun h => { h with msixMask := h.msixMask &&& ~~~(1#64 <<< v)
                                       msixPend := h.msixPend &&& ~~~(1#64 <<< v) }
  if held then sendMsix v s else s

/-- MSIX_VECTOR_UNMASK (R507). -/
def execMsixVectorUnmask (v : Fin 64) (s : State) : Host.Outcome State Fault Refusal :=
  .next (if barOpen s then unmaskVector v.val s else s)

end Sys2Proof.Machine
end

