-- ==== Sys2Proof/Machine/Admin.lean ====
section
/-! DEFINITION. Control messages: IDENT, STATE_SET with arming, results, logs, the calibration record and FAULT_L (R25, R26,
R60, R61, R73, R75, R86, R87, R430, R492). -/

namespace Sys2Proof.Machine

open Sys2Proof.Bits

/-- Identity block. -/
def identBlock (s : State) : List Byte :=
  toLE 4 0x8150 ++ toLE 8 (serial s) ++ toLE 4 (imageSeq s) ++ toLE 1 (s.ring.index % 32) ++ toLE 1 (s.img.b1 1 0) ++
  [0, 0] ++ toLE 4 (8192 - s.store.retired.length) ++ List.replicate 40 0

/-- IDENT (R75). -/
def ident (h : MsgHdr) (buf len : Nat) (s : State) : State :=
  message h (jobZero h) inAny (fun _ => decide (64 ≤ len)) (fun r s =>
    let b := identBlock s
    complete r .ok 0 (hostWrite buf b (s.modJobs fun j => { j with resIdent := newResult b }))) s

def execIdent (h : MsgHdr) (buf len : Nat) (s : State) : Host.Outcome State Fault Refusal := .next (ident h buf len s)

/-- Arming goes on (R25). -/
def arming (s : State) : Bool := s.eng.state = .idle && s.eng.target = some .armed

/-- STATE_SET IDLE ends once every enabled polygon channel is at standstill: by row 6 from ARMED, and without a transition
after a cancelled arming (R25). -/
def idleCheck (s : State) : State :=
  match s.eng.setReq with
  | none => s
  | some r =>
    if s.eng.target != some .idle || !allOff s then s
    else if s.eng.state = .armed then enterState 0 .idle 0x01 s
    else complete r .ok 2 (s.modEng fun e => { e with setReq := none, target := none })

/-- A STATE_SET is in progress. -/
def beginSet (r : MsgRef) (t : EngState) (s : State) : State := s.modEng fun e => { e with setReq := some r, target := some t }

/-- A pulse of an OTP command goes on. -/
def otpBusy (s : State) : Bool := s.otp.job.isSome

/-- STATE_SET from a state that a row of the table "State transitions" leaves for `t` (R26). -/
def setRow (r : MsgRef) (t : EngState) (s : State) : State :=
  match s.eng.state, t with
  | .idle, .armed => if s.law.prgBad || s.law.stop then reject r .notReady s else beginSet r .armed s
  | .idle, .service => enterState 0 .service 0x01 (beginSet r .service s)
  | .idle, .down | .safe, .down => shutDown 0 .host 0x01 8 0 (beginSet r .down s)
  | .armed, .idle => idleCheck (beginSet r .idle s)
  | .service, .idle => if otpBusy s then reject r .busy s else enterState 0 .idle 0x01 (beginSet r .idle s)
  | _, _ => reject r .state s

/-- STATE_SET IDLE during arming: the STATE_SET ARMED completes STATE, and the new one waits for standstill (R25, R26). -/
def cancelArming (r : MsgRef) (s : State) : State :=
  let s := match s.eng.setReq with | some old => complete old .state 2 s | none => s
  idleCheck (beginSet r .idle s)

/-- STATE_SET (R26, R326, R327, R458). -/
def stateSet (h : MsgHdr) (target : Nat) (s : State) : State :=
  message h (jobZero h) inAny (fun _ => decide (target ≤ 8)) (fun r s =>
    match EngState.ofCode target with
    | none => reject r .range s
    | some t =>
      if s.eng.setReq.isSome then (if arming s && t = .idle then cancelArming r s else reject r .busy s)
      else setRow r t s) s

def execStateSet (h : MsgHdr) (target : Nat) (s : State) : Host.Outcome State Fault Refusal := .next (stateSet h target s)

/-- ARMING_COMPLETE (row 4). -/
def execArmingComplete (s : State) : Host.Outcome State Fault Refusal :=
  .next (if arming s && allLocked s then enterState 0 .armed 0x01 s else s)

/-- ARM_TIMEOUT (row 5): the STATE_SET completes TIMEOUT, and the state stays IDLE. -/
def execArmTimeout (s : State) : Host.Outcome State Fault Refusal :=
  if !arming s then .next s
  else
    let s := match s.eng.setReq with | some r => complete r .timeout 2 s | none => s
    .next (enterState 0 .idle 0x0D (setArmTmo (s.modEng fun e => { e with setReq := none, target := none })))

/-- A result is written to the host buffer. -/
def giveResult (r : MsgRef) (buf len : Nat) (b : List Byte) (rep : Bool) (s : State) : State :=
  if len < b.length then reject r .range s
  else completeWith r .ok b.length false rep (hostWrite buf b s)

/-- RESULT_GET of SPOIL (R87). -/
def getSpoil (r : MsgRef) (buf len : Nat) (s : State) : State :=
  if s.jobs.spoil.isEmpty then reject r .notReady s
  else if s.jobs.batch != 0 then giveResult r buf len s.jobs.batchBytes true s
  else
    let batch := s.jobs.spoil.take (len / 96)
    let b := batch.flatMap SpoilRec.bytes
    giveResult r buf len b false (s.modJobs fun j => { j with batch := batch.length, batchBytes := b })

/-- The slot of a result kind other than SPOIL. -/
def resultOf (j : Jobs) (kind : Nat) : Option Result :=
  match kind with
  | 2 => j.resIdent
  | 3 => j.resCompress
  | 4 => j.resDecompress
  | 5 => j.resLog
  | _ => none

def setResult (kind : Nat) (x : Option Result) (j : Jobs) : Jobs :=
  match kind with
  | 2 => { j with resIdent := x }
  | 3 => { j with resCompress := x }
  | 4 => { j with resDecompress := x }
  | 5 => { j with resLog := x }
  | _ => j

/-- RESULT_GET of the other kinds (R86, R87). -/
def getOther (r : MsgRef) (kind buf len : Nat) (s : State) : State :=
  match resultOf s.jobs kind with
  | none => reject r .notReady s
  | some x =>
    if len < x.bytes.length then reject r .range s
    else giveResult r buf len x.bytes x.returned (s.modJobs (setResult kind (some { x with returned := true })))

/-- RESULT_GET (R86, R87). -/
def resultGet (h : MsgHdr) (kind buf len : Nat) (s : State) : State :=
  message h (jobZero h) inAny (fun _ => inR kind 1 5 && (kind != 1 || decide (96 ≤ len))) (fun r s =>
    if kind = 1 then getSpoil r buf len s else getOther r kind buf len s) s

def execResultGet (h : MsgHdr) (kind buf len : Nat) (s : State) : Host.Outcome State Fault Refusal :=
  .next (resultGet h kind buf len s)

/-- One spoiled repetition of a frame-table entry is acknowledged (R78). -/
def ackEntry (e : Nat) (s : State) : State := s.modFrame e fun f => { f with spoiled := f.spoiled - 1 }

/-- The records of the last batch are freed (R74, R78, R87), with what has been merged into them since (log 124). -/
def ackSpoil (s : State) : State :=
  let gone := s.jobs.spoil.take s.jobs.batch
  let s := gone.foldl (fun s r => r.entries.foldl (fun s e => ackEntry e s) s) s
  spoilCheck (releaseEntries
    (s.modJobs fun j => { j with spoil := j.spoil.drop j.batch, batch := 0, batchBytes := [] }))

/-- RESULT_ACK (R86, R87). -/
def resultAck (h : MsgHdr) (kind : Nat) (s : State) : State :=
  message h (jobZero h) inAny (fun _ => inR kind 1 5) (fun r s =>
    if kind = 1 then (if s.jobs.batch = 0 then reject r .notReady s else complete r .ok 0 (ackSpoil s))
    else
      match resultOf s.jobs kind with
      | some x => if x.returned then complete r .ok 0 (s.modJobs (setResult kind none)) else reject r .notReady s
      | none => reject r .notReady s) s

def execResultAck (h : MsgHdr) (kind : Nat) (s : State) : Host.Outcome State Fault Refusal := .next (resultAck h kind s)

/-- Store error log entry (R111). -/
def StoreErr.bytes (e : StoreErr) : List Byte :=
  toLE 5 (e.addr / 8) ++ toLE 1 e.syndrome ++ toLE 1 e.kind.code ++ toLE 1 e.agent.code ++ toLE 4 e.tick ++ toLE 2 e.count ++ [0, 0]

/-- Fault log entry (R417). -/
def FaultEntry.bytes (e : FaultEntry) : List Byte :=
  toLE 2 e.source ++ toLE 1 e.reaction ++ toLE 1 (b2n e.first + 2 * b2n e.same + 4 * b2n e.suppressed) ++ toLE 2 e.count ++
  [0, 0] ++ toLE 8 e.tick

/-- Insertion by ascending SEQ. -/
def insertSeq (x : List Byte) : List (List Byte) → List (List Byte)
  | [] => [x]
  | y :: r => if u32 x 8 < u32 y 8 then x :: y :: r else y :: insertSeq x r

/-- IST report entry. -/
def istReport (s : State) (t : Nat) : List Byte :=
  match s.ist.test.toList[t]? with
  | none => []
  | some x =>
    let st := if !s.ist.en.getLsbD t then 0 else if x.lastFailed then 2 else 1
    toLE 1 t ++ toLE 1 st ++ toLE 2 x.item ++ toLE 4 x.laps ++ toLE 4 x.lap ++ toLE 4 (x.failLap.getD 0xFFFFFFFF)

/-- Bytes of a log, and its maximum size (table "Logs"). -/
def logBytes (s : State) (log : Nat) : List Byte :=
  match log with
  | 1 => s.store.log.flatMap StoreErr.bytes
  | 2 => s.flt.log.flatMap FaultEntry.bytes
  | 3 => match newestCairn s.pers.cairn with | some k => s.pers.cairn.getD k [] | none => []
  | 4 => ((s.pers.cairn.filter fun r => !r.isEmpty).foldr insertSeq []).flatten
  | 5 => maskBytes 512 s.otp.marginal ++ toLE 2 s.otp.wMargin.toNat ++ toLE 2 s.otp.rMargin.toNat ++ toLE 4 0
  | 6 => (List.range 7).flatMap (istReport s)
  | 7 => s.pers.life.toList.flatMap (toLE 8) ++ List.replicate 32 0
  | 8 => s.store.retired.flatMap (toLE 2)
  | _ => []

def logMax (log : Nat) : Nat :=
  match log with
  | 1 => 4096 | 2 => 8192 | 3 => 512 | 4 => 32768 | 5 => 520 | 6 => 112 | 7 => 128 | 8 => 1024 | _ => 0

/-- LOG_READ (R492). -/
def logRead (h : MsgHdr) (log buf len : Nat) (s : State) : State :=
  message h (jobZero h) inAny (fun _ => inR log 1 8 && decide (logMax log ≤ len)) (fun r s =>
    let b := logBytes s log
    complete r .ok b.length (hostWrite buf b (s.modJobs fun j => { j with resLog := newResult b }))) s

def execLogRead (h : MsgHdr) (log buf len : Nat) (s : State) : Host.Outcome State Fault Refusal := .next (logRead h log buf len s)

/-- The record in use; before step 9 has made one, the manual names none (log 21). -/
def calibNow (s : State) : List Byte :=
  if s.boot.calib.length = calibLen then s.boot.calib else freeBytes s.freeCtr calibLen

/-- CALIB_READ (R60; log 21). -/
def calibRead (h : MsgHdr) (buf len : Nat) (s : State) : State :=
  message h (jobZero h) inAny (fun _ => len = calibLen) (fun r s =>
    complete r .ok calibLen (hostWrite buf (calibNow s) (s.modFreeCtr (· + calibLen)))) s

def execCalibRead (h : MsgHdr) (buf len : Nat) (s : State) : Host.Outcome State Fault Refusal := .next (calibRead h buf len s)

/-- FLAGS [16:0] of an accepted record read 0 (R61). -/
def clearFresh (b : List Byte) : List Byte :=
  sealCalib (b.take 12 ++ toLE 4 (u32 b 12 / 131072 * 131072) ++ (b.drop 16).take 2276)

/-- CALIB_WRITE (R61; log 51). -/
def calibWrite (h : MsgHdr) (len : Nat) (record : List Byte) (s : State) : State :=
  message h (jobZero h) (fun s => s.eng.state = .idle || s.eng.state = .service) (fun _ => len = calibLen) (fun r s =>
    if !calibIntact record then reject r .integrity s
    else if !calibMine s record then reject r .verify s
    else if !calibInLimits record then reject r .range s
    else complete r .ok 0 (s.modBoot fun b => { b with calib := clearFresh record })) s

def execCalibWrite (h : MsgHdr) (_buf len : Nat) (record : List Byte) (s : State) : Host.Outcome State Fault Refusal :=
  .next (calibWrite h len record s)

/-- FAULT_PIN_RELEASE (R73, R430). -/
def faultPinRelease (h : MsgHdr) (s : State) : State :=
  message h (jobZero h) inAny anyRange (fun r s =>
    if s.flt.pinPulse then reject r .busy s else complete r .ok 0 (s.modFlt fun f => { f with pinLow := false })) s

def execFaultPinRelease (h : MsgHdr) (s : State) : Host.Outcome State Fault Refusal := .next (faultPinRelease h s)

/-- FAULT_PIN_PULSE_END (R430): the minimum pulse has ended, and FAULT_L stays low. -/
def execFaultPinPulseEnd (s : State) : Host.Outcome State Fault Refusal :=
  .next (s.modFlt fun f => { f with pinPulse := false })

end Sys2Proof.Machine
end

