-- ==== Sys2Proof/Machine/Store.lean ====
section
/-! DEFINITION. The raster store: consumption of poison, scrubber, merge-buffer flush, BAR2, page retirement and migration
(R98 to R127). -/

namespace Sys2Proof.Machine

open Sys2Proof.Bits

/-- The store controller operates, and its DRAM PLL is not unlocked (table "Consequences of an unlock") (log 59). -/
def storeOn (s : State) : Bool := tab s.pwr.domain 0 4 = 2 && !s.flt.active.has 0x039

/-- STORE_UE for `n` poisoned lines consumed (R109). -/
def raiseUe : Nat → State → State
  | 0, s => s
  | n + 1, s => raiseUe n (raise 0x1C0 s)

/-- Lines consumed by an agent: read, and STORE_UE once for each one poisoned; the poisoned ones (R108, R109). -/
def consume (g : Agent) (ecc : List (Nat × EccRead)) (ls : List Nat) (s : State) : State × List Nat :=
  let (s, bad) := readLines g ecc ls s
  (raiseUe bad.length s, bad)

/-- The next page from `p` on that is not retired, wrapping to a new lap; true when it wraps. -/
def nextPage (s : State) : Nat → Nat → Nat × Bool
  | 0, p => (p, true)
  | fuel + 1, p =>
    if 8192 ≤ p then ((nextPage s fuel 0).1, true)
    else if s.store.retired.contains p then nextPage s fuel (p + 1)
    else (p, false)

/-- The line that the scrubber visits now: its own, or the first of the next page in service, and whether a lap ends on the
way (R99). -/
def scrubAt (s : State) : Nat × Bool :=
  if s.store.retired.contains (linePage s.store.scrubLine) then
    let (p, lap) := nextPage s 16384 (linePage s.store.scrubLine)
    (p * 16384, lap)
  else (s.store.scrubLine, false)

/-- A lap has ended (R102). -/
def scrubLap (s : State) : State :=
  let d := s.eng.sincePor - s.store.lapStart
  let s := s.modStore fun t => { t with lastLap := sat 16 (d / 10000000), lapStart := s.eng.sincePor }
  if s.store.lapLimit * 100000000 < d then raise 0x1C3 s else s

/-- The scrubber moves on from line `l` (R99, R102). -/
def scrubNext (l : Nat) (s : State) : State :=
  if (l + 1) % 16384 != 0 then s.modStore fun t => { t with scrubLine := l + 1 }
  else
    let (p, lap) := nextPage s 16384 (linePage l + 1)
    let s := s.modStore fun t => { t with scrubLine := p * 16384 }
    if lap then scrubLap s else s

/-- What the scrubber does with a line: an entry of the merge buffer leaves first, and then the read finds what it wrote (R100,
R101, R105, R114). A corrected line waits for its write-back and second read. -/
def scrubLine (l : Nat) (e : EccRead) (s : State) : State :=
  match mergeOf s l with
  | some k => flushEntry k e s
  | none =>
    if isPoison s l || remapped s l then s
    else
      match e with
      | .clean => s
      | .corrected w syn more hard =>
        (corrected l w syn more false .scrubber s).modStore fun t =>
          { t with scrubFix := t.scrubFix ++ [{ line := l, word := w.val, syndrome := syn, hard := hard }] }
      | .uncorrectable w syn more fixed => raise 0x1C1 (poisonLine l (uncorrected l w syn more fixed .scrubber s))

/-- Earliest time of the next burst in ns: the interval, doubled at each throttle level, after the last one (R98, R370). -/
def scrubFrom (s : State) : Nat :=
  match s.store.lastBurst with
  | some t => t + 256 * s.store.scrubInterval * 2 ^ s.therm.level
  | none => 0

/-- A burst may come within this tick (R98). -/
def scrubDue (s : State) : Bool := decide (scrubFrom s < 10 * (s.eng.sincePor + 1))

/-- SCRUB_BURST (R98, R102). It counts as of the earliest time within its tick (log 106). -/
def scrubBurst (ecc : EccRead) (s : State) : State :=
  let at' := max (10 * s.eng.sincePor) (scrubFrom s)
  let (l, lap) := scrubAt s
  let s := if lap then scrubLap s else s
  scrubNext l (scrubLine l ecc (s.modStore fun t => { t with lastBurst := some at' }))

def execScrubBurst (ecc : EccRead) (s : State) : Host.Outcome State Fault Refusal :=
  .next (if s.store.scrubEnable && storeOn s && scrubDue s then scrubBurst ecc s else s)

/-- SCRUB_WRITE_BACK (R100, R113): the oldest corrected line is written, its data as they read, and read once more; what that
read shows came with the burst (log 106). -/
def scrubWriteBack (s : State) : State :=
  match s.store.scrubFix with
  | [] => s
  | x :: r =>
    let s := s.modStore fun t => { t with scrubFix := r }
    if x.hard && !remapped s x.line then remapLine x.line (64 * x.line + 8 * x.word) x.syndrome .scrubber s else s

def execScrubWriteBack (s : State) : Host.Outcome State Fault Refusal :=
  .next (if storeOn s then scrubWriteBack s else s)

/-- MERGE_BUFFER_FLUSH (R105, R107). -/
def execMergeBufferFlush (entry : Fin 16) (ecc : EccRead) (s : State) : Host.Outcome State Fault Refusal :=
  .next (if storeOn s then flushEntry entry.val ecc s else s)

/-- Byte `i` of a read from address `a`; an uncorrectable line that is not stored poison gives open bytes. -/
def deliver (s : State) (bad : List Nat) (a i : Nat) : Byte :=
  if bad.contains (lineOf (a + i)) && !isPoison s (lineOf (a + i)) then Config.freeByte (s.freeCtr + i)
  else memGet s.store.mem (a + i)

/-- A byte through BAR2: 0xFF in a retired page (R125), and an open byte while the store gives no access (log 59). -/
def bar2Byte (s : State) (bad : List Nat) (a i : Nat) : Byte :=
  if s.store.retired.contains (pageOf (a + i)) then 0xFF
  else if storeOn s then deliver s bad a i
  else Config.freeByte (s.freeCtr + i)

/-- BAR2_READ (R124, R125). -/
def execBar2Read (offset : BitVec 28) (len : Nat) (ecc : List (Nat × EccRead)) (s : State) :
    Host.Outcome State Fault Refusal :=
  if !barOpen s || s.eng.state = .boot then .next s
  else
    let n := min len (2 ^ 28 - offset.toNat)
    let a := s.store.bar2Base * pageBytes + offset.toNat
    let ls := if storeOn s then (linesOf a n).filter fun l => !s.store.retired.contains (linePage l) else []
    let (s, bad) := consume .host ecc ls s
    let data := (List.range n).map fun i => bar2Byte s bad a i
    .next ((s.modFreeCtr (· + n)).modHost fun h => { h with bar2Out := h.bar2Out ++ [(data, !bad.isEmpty)], aer := h.aer + b2n (!bad.isEmpty) })

/-- A write to the data region, page by page, nothing into a retired page (R126); `fuel` counts pages. -/
def bar2WriteFrom : Nat → Nat → List Byte → State → State
  | 0, _, _, s => s
  | fuel + 1, a, bs, s =>
    if bs.isEmpty then s
    else
      let p := bs.take (pageBytes - a % pageBytes)
      let s := if s.store.retired.contains (pageOf a) then s else storeWrite a p s
      bar2WriteFrom fuel (a + p.length) (bs.drop p.length) s

/-- A BAR2 write of `n` bytes at `a` meets a retired page (R126). -/
def hitsRetired (a n : Nat) (s : State) : Bool := (linesOf a n).any fun l => s.store.retired.contains (linePage l)

/-- A BAR2 write that is discarded, whole or in part (R126). -/
def countDrop (s : State) : State := s.modStore fun t => { t with wrDrop := sat 16 (t.wrDrop + 1) }

/-- BAR2_WRITE (R126): discarded and counted outside SERVICE, from the load state of PD4 on. -/
def execBar2Write (offset : BitVec 28) (data : List Byte) (s : State) : Host.Outcome State Fault Refusal :=
  if !regOpen 4 s then .next s
  else if s.eng.state != .service then .next (countDrop s)
  else if !storeOn s then .next s
  else
    let d := data.take (2 ^ 28 - offset.toNat)
    let a := s.store.bar2Base * pageBytes + offset.toNat
    .next (bar2WriteFrom (d.length / pageBytes + 2) a d (if hitsRetired a d.length s then countDrop s else s))

/-- A write of STORE_BAR2 (R127). -/
def writeBar2Base (v : Nat) (s : State) : State :=
  let b := field v 12 0
  if 7936 < b then s else s.modStore fun t => { t with bar2Base := b }

/-- BAR2_BASE_WRITE (R127). -/
def execBar2BaseWrite (value : Word) (s : State) : Host.Outcome State Fault Refusal :=
  .next (if regOpen 4 s then writeBar2Base value.toNat s else s)

/-- A migration begins: a free page becomes the destination (R119, step 1). -/
def beginMigration (r : MsgRef) (page dest : Nat) (s : State) : State :=
  (s.modStore fun t => { t with migSource := page, migActive := true, migAbandoned := false, migDone := 0, migDest := dest })
    |>.modHost fun h => { h with retireReq := some r }

/-- The checks of R117 and the start of R118 or R119. -/
def retire (r : MsgRef) (page : Nat) (s : State) : State :=
  if s.store.retired.contains page then complete r .ok 0 s
  else if s.store.migActive then reject r .busy s
  else if 512 ≤ s.store.retired.length then reject r .noRoom s
  else if s.heldPages.contains page then
    match s.freePages 1 with
    | d :: _ => beginMigration r page d s
    | [] => reject r .noRoom s
  else complete r .ok 0 (retirePage page s)

/-- PAGE_RETIRE (R117 to R119). -/
def pageRetire (h : MsgHdr) (page : Nat) (s : State) : State :=
  message h (jobZero h) inAny (fun _ => decide (page ≤ 8191)) (fun r s => retire r page s) s

def execPageRetire (h : MsgHdr) (page : Nat) (s : State) : Host.Outcome State Fault Refusal := .next (pageRetire h page s)

/-- Lines `p` to `q - 1` of the migration's source page. -/
def migLines (t : Store) (p q : Nat) : List Nat := (List.range (q - p)).map (t.migSource * 16384 + p + ·)

/-- Those lines' bytes and poison at the destination, with the lines `bad` poisoned there; the copy of a line takes the place of a
merge-buffer entry and of a write-back that wait for it (R100, R104, R119). -/
def Store.copyLines (p q : Nat) (bad : List Nat) (t : Store) : Store :=
  let inR (page : Nat) (l : Nat) : Bool := decide (page * 16384 + p ≤ l) && decide (l < page * 16384 + q)
  { t with mem := (t.mem.filter fun c => inR t.migSource (lineOf c.1)).foldl
             (fun m c => memPut m (c.1 - t.migSource * pageBytes + t.migDest * pageBytes) c.2)
             (t.mem.filter fun c => !inR t.migDest (lineOf c.1))
           merge := t.merge.map fun x => if x.any fun e => inR t.migDest e.line then none else x
           scrubFix := t.scrubFix.filter fun x => !inR t.migDest x.line
           poison := (t.poison.filter (inR t.migSource) ++ bad).foldl
             (fun p l => addNat (l - t.migSource * 16384 + t.migDest * 16384) p) (t.poison.filter fun l => !inR t.migDest l)
           migDone := q }

/-- A line of the source page is read: MIGRATE_UE for an uncorrectable one that is not stored poison, which is poison at the
destination (R119, step 2). -/
def migrateLine (ecc : List (Nat × EccRead)) (x : State × List Nat) (l : Nat) : State × List Nat :=
  let was := isPoison x.1 l
  let (s, bad) := readMerged .migration l (eccOf ecc l) x.1
  if bad && !was then (raise 0x1C6 s, l :: x.2) else (s, x.2)

/-- The copy goes on through line `q - 1` (R119, step 2): each line is read, with the merge buffer's bytes of it written first
(R106), and lands at the destination. -/
def migrateTo (q : Nat) (ecc : List (Nat × EccRead)) (s : State) : State :=
  let p := s.store.migDone
  let shown := (migLines s.store p q).filter fun l => isPoison s l || (mergeOf s l).isSome || ecc.any fun x => x.1 = l
  let (s, bad) := shown.foldl (migrateLine ecc) (s, [])
  s.modStore (Store.copyLines p q bad)

/-- The destination replaces the source in a job's page list. -/
def Job.replacePage (src dst : Nat) (j : Job) : Job :=
  { j with pages := j.pages.map fun p => if p.2 = src then (p.1, dst) else p }

/-- Entries of the merge buffer that hold lines of the source leave, to the source and to the destination, before step 3 (R120). -/
def flushSource (ecc : List (Nat × EccRead)) (s : State) : State :=
  (List.range 16).foldl (fun s k =>
    match tab s.store.merge none k with
    | some e => if linePage e.line = s.store.migSource then flushEntry k (eccOf ecc e.line) s else s
    | none => s) s

/-- Steps 3 to 5 of R119. -/
def endMigration (s : State) : State :=
  let src := s.store.migSource
  let s := s.modJobs fun j => { j with jobs := j.jobs.map (Job.replacePage src s.store.migDest) }
  let s := retirePage src (s.modStore fun t => { t with migActive := false })
  match s.host.retireReq with
  | some r => complete r .ok 1 (s.modHost fun h => { h with retireReq := none })
  | none => s

/-- MIGRATION_COMPLETE (R119, R120): the copy has gone on to line `copy.upto`; past line 16,383 the migration is complete (log 106).
A power failure has abandoned it before (R122). -/
def execMigrationComplete (copy : MigCopy) (s : State) : Host.Outcome State Fault Refusal :=
  if !s.store.migActive || !storeOn s then .next s
  else
    let s := migrateTo (min 16384 (max s.store.migDone copy.upto)) copy.ecc s
    .next (if s.store.migDone = 16384 then endMigration (flushSource copy.ecc s) else s)

end Sys2Proof.Machine
end

