-- ==== Sys2Proof/Machine/Decoders.lean ====
section
/-! DEFINITION. Station decoders: the layer streams of a frame, block checks, re-synchronisation, and the band buffers
(R77, R135 to R144, R217). -/

namespace Sys2Proof.Machine

open Sys2Proof.Bits

/-- One layer stream of a frame at a station: first byte in the job's run, its bytes, and which of them are poisoned. -/
structure Source where
  run : Nat
  bytes : List Byte
  full : Bool
  width : Nat
  lf : Nat
  /-- 64-byte lines of the run that are delivered poisoned -/
  bad : List Nat

/-- Bytes `a` to `b - 1` of the stream touch a poisoned line. -/
def Source.poisoned (x : Source) (a b : Nat) : Bool :=
  x.bad.any fun l => decide (64 * l < x.run + b) && decide (x.run + a < 64 * (l + 1))

/-- Where the walk stands. -/
def Stream.at (t : Stream) : WalkAt := { last := t.last, lastBase := t.lastBase }

/-- The failing check of the header at the stream's position: 0 for poison, none when every check passes (R139, R143),
or when a re-synchronisation has accepted the block (R142; log 96). -/
def Source.check (x : Source) (t : Stream) : Option Nat :=
  let b := x.bytes.drop t.pos
  if t.found then none
  else if !b.isEmpty && x.poisoned t.pos (t.pos + min 16 b.length) then some 0
  else headerCheck x.full x.width x.lf t.at b

/-- R142 accepts a header at byte `q`. -/
def Source.accepts (x : Source) (t : Stream) (q : Nat) : Bool :=
  let b := x.bytes.drop q
  let h := readHdr b
  decide (16 ≤ b.length) && !x.poisoned q (q + 16) && (check123 h).isNone && decide (h.flags ≤ 3) &&
  (check56 h x.width (b.length - 16)).isNone && decide (t.at.next ≤ h.line) && decide (h.line < x.lf) &&
  !(x.full && h.overlay)

/-- First byte position from `q` on at which R142 accepts a header; `fuel` counts bytes. -/
def Source.scan (x : Source) (t : Stream) : Nat → Nat → Option Nat
  | 0, _ => none
  | fuel + 1, q => if x.accepts t q then some q else x.scan t fuel (q + 1)

/-- Re-synchronisation from the stream's position: the stream at the found block, or at its end (R142). -/
def Source.resync (x : Source) (t : Stream) : Stream :=
  match x.scan t (x.bytes.length - t.pos) t.pos with
  | some q =>
    let l := (readHdr (x.bytes.drop q)).line
    { t with pos := q, last := if l = 0 then none else some (l - 1), lastBase := false, found := true }
  | none => { t with pos := x.bytes.length, last := some (x.lf - 1), lastBase := false, found := false }

/-- What a stream gives for one line. -/
structure LayerOut where
  st : Stream
  base : Option (List Nat)
  ovr : Option (List Nat)
  /-- codes of failing checks, 0 for poison -/
  bad : List Nat
  /-- codes of the re-synchronisations that started -/
  resync : List Nat

/-- The stream gives nothing for the line. -/
def LayerOut.none (t : Stream) : LayerOut := { st := t, base := .none, ovr := .none, bad := [], resync := [] }

/-- The block at the stream's position, whose header has passed: the stream after it, and its pixels or code
(R141, R143). `payload` is false for a block that is passed over. -/
def Source.block (x : Source) (t : Stream) (up : List Nat) (payload : Bool) : Stream × (List Nat ⊕ Nat) :=
  let b := x.bytes.drop t.pos
  let h := readHdr b
  let t' : Stream :=
    { t with pos := t.pos + 16 + h.payload, last := some h.line, lastBase := x.full && !h.overlay, found := false }
  if !payload then (t', .inl [])
  else if x.poisoned t.pos t'.pos then (t', .inr 0)
  else (t', decodeBlock h ((b.drop 16).take h.payload) up)

/-- A header has failed in line `j`: the line is blanked and the stream re-synchronises. A found block of line `j` itself
is passed over, since the line is blanked whole (R142); poison in it is the line's (R143). -/
def Source.fail (x : Source) (t : Stream) (o : LayerOut) (c j : Nat) : LayerOut :=
  let r := x.resync t
  let o := { o with st := r, bad := o.bad ++ [c], resync := o.resync ++ [c] }
  if r.found && (readHdr (x.bytes.drop r.pos)).line = j then
    let after := (x.block r [] false).1
    { o with st := after, bad := if x.poisoned r.pos after.pos then o.bad ++ [0] else o.bad }
  else o

/-- The overlay block that may follow a base block, in a full stream (R137, R142). `use` is false where the frame only
borrows the base layer (R77). Where the stream ends before its last line, the next header fails check 6 with the base block the
last accepted, and line `j` is blanked whole (R139, R142). -/
def Source.overlayAfter (x : Source) (o : LayerOut) (j : Nat) (up : List Nat) (use : Bool) : LayerOut :=
  let t := o.st
  if x.bytes.length ≤ t.pos then (if j + 1 < x.lf then x.fail t o 6 j else o)
  else
    match x.check t with
    | some c => x.fail t o c j
    | .none =>
      if !(readHdr (x.bytes.drop t.pos)).overlay then o
      else
        let (t', r) := x.block t up use
        if !use then { o with st := t' }
        else match r with
          | .inl px => { o with st := t', ovr := some px }
          | .inr c => { o with st := t', bad := o.bad ++ [c] }

/-- Line `j` from a full stream. -/
def Source.fullLine (x : Source) (t : Stream) (j : Nat) (up upOver : List Nat) (use : Bool) : LayerOut :=
  if j < t.at.next then LayerOut.none t
  else
    match x.check t with
    | some c =>
      let o := x.fail t (LayerOut.none t) c j
      if o.st.lastBase then x.overlayAfter o j [] false else o
    | .none =>
      let (t', r) := x.block t up true
      let o : LayerOut := match r with
        | .inl px => { LayerOut.none t' with base := some px }
        | .inr c => { LayerOut.none t' with bad := [c] }
      x.overlayAfter o j upOver use

/-- Line `j` from an overlay-only stream. -/
def Source.overlayLine (x : Source) (t : Stream) (j : Nat) (up : List Nat) : LayerOut :=
  if x.bytes.length ≤ t.pos || decide (j < t.at.next) then LayerOut.none t
  else
    match x.check t with
    | some c => x.fail t (LayerOut.none t) c j
    | .none =>
      if (readHdr (x.bytes.drop t.pos)).line != j then LayerOut.none t
      else
        match x.block t up true with
        | (t', .inl px) => { LayerOut.none t' with ovr := some px }
        | (t', .inr c) => { LayerOut.none t' with bad := [c] }

/-- Spoil cause and source of a line blanked under a code (R141 to R143). -/
def codeCause (c : Nat) : Nat × Nat := if c = 0 then (0x01, 0x1C0) else if c = 13 then (0x02, 0x1C8) else (0x02, 0x1C9)

/-- The code that a line is reported under: poison before any check, else the first (R142, R143). -/
def lineCode (cs : List Nat) : Option Nat := if cs.contains 0 then some 0 else cs.head?

/-- Counts and fault of one line blanked under code `c`, whose last failing check is `check` (R144). -/
def reportBlank (n line c check : Nat) (s : State) : State :=
  if c = 0 then s
  else
    raise (codeCause c).2 (s.atDec n fun d =>
      { d with blanked := sat 16 (d.blanked + 1), check := check, lastLine := line })

/-- A re-synchronisation is counted and raised once (R142). -/
def reportResync (n : Nat) (s : State) : State := raise 0x1CA (s.atDec n fun d => { d with resync := sat 8 (d.resync + 1) })

/-- Last line that the re-synchronisations of a layer's line blank, with the code that they are known by (R142). -/
def LayerOut.blanks (o : LayerOut) (lf : Nat) : List (Nat × Nat) :=
  (o.resync.getLast?.map fun c => (if lf ≤ o.st.at.next then lf - 1 else o.st.at.next - 1, c)).toList

/-- First frame number of a job that has not started at S0. -/
def firstUnstarted (s : State) (id : Nat) : Option Nat :=
  ((s.framesOf id).find? fun f => f.committed && decide (f.started < f.rep)).map fun f => f.first + f.started

/-- The job whose lines the decoders take, and the number past the last of the run's frames: the run's, and in ARMED that of
a run message that waits for its entry, or of a suspended run (R217). -/
def decodeJob (s : State) : Option (Nat × Nat) :=
  if s.run.active && (s.eng.state = .run || s.eng.state = .halting) then
    match firstUnstarted s s.run.job with
    | some u => some (s.run.job, u + s.runLeft)
    | none => some (s.run.job, 2 ^ 32)
  else if s.eng.state = .armed then
    match s.host.runWait.filter (!·.resume) with
    | some w => (firstUnstarted s w.job).map fun u => (w.job, u + w.frames)
    | none => if s.run.suspended then (firstUnstarted s s.run.job).map fun u => (s.run.job, u + s.runLeft) else none
  else none

/-- Frame number that station `n`'s decoder works on: its own until its last line, then the next; at rest none before the first
frame of the stretch to come (R217). -/
def decodeNumber (s : State) (j : Job) (n : Nat) : Option Nat :=
  let d := tab s.dec Decoder.reset n
  match d.cur with
  | none => firstUnstarted s j.id
  | some (_, k) =>
    let k := if d.nextLine < s.img.lF j.last then k else k + 1
    some (if s.eng.state = .armed then max k ((firstUnstarted s j.id).getD k) else k)

/-- Lines from the first line of the facet in exposure to line `line` of frame `k`, in due order; before any facet of the stretch
carries a line, the lines that wait in the band buffer for the frames to come (R217). -/
def linesAhead (s : State) (j : Job) (n k line : Nat) : Nat :=
  let lf := s.img.lF j.last
  match ((tab s.expo Expo.reset n).now.bind fun f => f.lines.findSome? id) with
  | some y => k * lf + line - (y.number * lf + y.line)
  | none =>
    let first := if s.eng.state = .armed then (firstUnstarted s j.id).getD 0 else 0
    ((tab s.dec Decoder.reset n).band.filter fun x => decide (first ≤ x.number)).length

/-- The decoder begins a repetition: streams at their first bytes, nothing above (R135). -/
def Decoder.begin (e k : Nat) (d : Decoder) : Decoder :=
  { d with cur := some (e, k), nextLine := 0, own := Stream.reset, base := Stream.reset, above := [], aboveOver := [],
           blankTo := [] }

/-- Offset and length of station `n`'s stream of a frame in the job's run. -/
def streamAt (f : Frame) (n : Nat) : Nat × Nat :=
  match f.streams.find? fun x => x.1 = n with
  | some (_, o, len) => (f.off + o, len)
  | none => (f.off, 0)

/-- Lines of a job's run that hold bytes `a` to `a + n - 1`, as store lines. -/
def runLines (j : Job) (a n : Nat) : List (Nat × Nat) := (linesOf a n).map fun r => (r, lineOf (jobAddr j (64 * r)))

/-- Store line `l` is delivered poisoned to this command. -/
def linePoisoned (s : State) (ecc : List (Nat × EccRead)) (l : Nat) : Bool :=
  isPoison s l || (!remapped s l && match eccOf ecc l with | .uncorrectable .. => true | _ => false)

/-- The stream of frame `f` at station `n`, as the reads before this command and its own deliver it (R108). -/
def sourceOf (s : State) (j : Job) (f : Frame) (n : Nat) (full : Bool) (t : Stream) (ecc : List (Nat × EccRead)) : Source :=
  let (o, len) := streamAt f n
  { run := o, bytes := jobRead s j o len, full := full, width := s.img.width j.last, lf := s.img.lF j.last,
    bad := t.bad ++ ((runLines j o len).filter fun x => decide (t.seen ≤ x.1) && linePoisoned s ecc x.2).map (·.1) }

/-- Store lines that a stream's advance reads for the first time; the stream that remembers it. -/
def Source.fresh (x : Source) (t : Stream) : List Nat × Stream :=
  let last := (x.run + min x.bytes.length (t.pos + 16) + 63) / 64
  let first := max t.seen (x.run / 64)
  ((List.range (last - first)).map (first + ·)
    , { t with seen := max t.seen last, bad := x.bad.filter fun l => decide (l < max t.seen last) })

/-- What the streams of a repetition give for line `j`: base layer, overlay, the codes of failing checks in their order; and the
two streams after it. -/
structure LineOut where
  base : Option (List Nat)
  ovr : Option (List Nat)
  bad : List Nat
  own : LayerOut
  other : LayerOut

/-- Line `j` of the decoder's repetition. -/
def decodeOne (own : Source) (base : Option Source) (d : Decoder) (j : Nat) : LineOut :=
  let up := unpack d.above
  let upO := unpack d.aboveOver
  match base with
  | none =>
    let o := own.fullLine d.own j up upO true
    { base := o.base, ovr := o.ovr, bad := o.bad, own := o, other := LayerOut.none d.base }
  | some b =>
    let o := own.overlayLine d.own j upO
    let p := b.fullLine d.base j up [] false
    { base := p.base, ovr := o.ovr, bad := p.bad ++ o.bad, own := o, other := p }

/-- The line for the band buffer. -/
def bandLine (e k j : Nat) (code : Option Nat) (o : LineOut) : BandLine :=
  match code with
  | some c => { number := k, entry := e, line := j, pixels := [], blank := some (codeCause c) }
  | none =>
    let px := match o.base, o.ovr with
      | some b, some v => mergeLayers b v
      | some b, none => b
      | none, some v => v
      | none, none => []
    { number := k, entry := e, line := j, pixels := pack px, blank := none }

/-- The facet that carries line `j` of repetition `k` has begun at station `n`: the line is late (R219). -/
def linePassed (s : State) (id k n j : Nat) : Bool :=
  ((tab s.expo Expo.reset n).now.any fun f => f.lines.any fun x => x.any fun y => y.number = k && decide (j ≤ y.line)) ||
  match s.jobs.prog.find? fun p => p.job = id && p.number = k with
  | some p => p.stations.any fun x => x.n = n && decide (j < x.cur)
  | none => false

/-- The decoder of station `n` after line `j`. -/
def Decoder.after (o : LineOut) (code : Option Nat) (blankTo : List (Nat × Nat)) (line : Option BandLine) (j : Nat)
    (d : Decoder) : Decoder :=
  let layer (x : Option (List Nat)) : List Byte := if code.isSome then [] else (x.map pack).getD []
  { d with nextLine := j + 1, own := o.own.st, base := o.other.st, above := layer o.base, aboveOver := layer o.ovr,
           blankTo := blankTo, band := d.band ++ line.toList }

/-- Reads that the line took from the store, once for each 64-byte line (R95, R109). -/
def readFor (j : Job) (x : Source) (t : Stream) (ecc : List (Nat × EccRead)) (s : State) : State × Stream :=
  let (ls, t') := x.fresh t
  ((consume .decoder ecc (ls.map fun r => lineOf (jobAddr j (64 * r))) s).1, t')

/-- Line `j` of frame `f` at station `n` is finished. -/
def finishLine (j : Job) (f : Frame) (k n line : Nat) (ecc : List (Nat × EccRead)) (s : State) : State :=
  let d := tab s.dec Decoder.reset n
  let ref := f.base.bind fun b => s.baseNo? j.id b
  let own := sourceOf s j f n f.base.isNone d.own ecc
  let base := ref.map fun g => sourceOf s j g n true d.base ecc
  let o := decodeOne own base d line
  let (s, t1) := readFor j own o.own.st ecc s
  let (s, t2) := match base with | some b => readFor j b o.other.st ecc s | none => (s, o.other.st)
  let o := { o with own := { o.own with st := t1 }, other := { o.other with st := t2 } }
  let held := d.blankTo.filter fun x => decide (line ≤ x.1)
  let blankTo := held ++ o.other.blanks own.lf ++ o.own.blanks own.lf
  let code := lineCode (held.map (·.2) ++ o.other.resync ++ o.own.resync ++ o.bad)
  let out := if linePassed s j.id k n line then none else some (bandLine f.entry k line code o)
  let s := s.atDec n (Decoder.after o code blankTo out line)
  let s := (o.other.resync ++ o.own.resync).foldl (fun s _ => reportResync n s) s
  match code with
  | some c => reportBlank n line c ((o.bad.filter (· != 0)).getLast?.getD c) s
  | none => s

/-- DECODE_LINE (R139, R217): the decoder of station `n` finishes the next line in due order, while it stands fewer than 64
lines ahead. -/
def decodeLine (n : Nat) (ecc : List (Nat × EccRead)) (s : State) : State :=
  match decodeJob s with
  | none => s
  | some (id, bound) =>
    match s.job? id with
    | none => s
    | some j =>
      match decodeNumber s j n with
      | none => s
      | some k =>
        match s.frameNo? id k with
        | none => s
        | some f =>
          let d := tab s.dec Decoder.reset n
          let line := if d.cur = some (f.entry, k) then d.nextLine else 0
          if !storeOn s || !j.stations.getLsbD n || bound ≤ k || 64 ≤ linesAhead s j n k line then s
          else
            let s := if d.cur = some (f.entry, k) then s else s.atDec n (Decoder.begin f.entry k)
            finishLine j f k n (tab s.dec Decoder.reset n).nextLine ecc s

def execDecodeLine (n : Fin 8) (ecc : List (Nat × EccRead)) (s : State) : Host.Outcome State Fault Refusal :=
  .next (decodeLine n.val ecc s)

end Sys2Proof.Machine
end

