-- ==== Sys2Proof/Machine/Services.lean ====
section
/-! DEFINITION. The compression services COMPRESS and DECOMPRESS (R145 to R155). -/

namespace Sys2Proof.Machine

open Sys2Proof.Bits

/-- WIDTH of both services. -/
def svcWidthOk (w : Nat) : Bool := inR w 1024 16384 && w % 64 = 0

/-- Ranges of COMPRESS (R148). -/
def compressRange (f : SvcFields) : Bool :=
  svcWidthOk f.width && decide (16 ≤ f.dstLen) && f.srcLen % (f.width / 2) = 0 && decide (f.width / 2 ≤ f.srcLen) &&
  decide (f.firstLine + f.srcLen / (f.width / 2) ≤ 0x1000000)

/-- Ranges of DECOMPRESS. -/
def decompressRange (f : SvcFields) : Bool := svcWidthOk f.width && decide (1 ≤ f.dstLen)

/-- A service message as it waits. -/
def svcOf (r : MsgRef) (f : SvcFields) : Service :=
  { ref := r, src := f.src, srcLen := f.srcLen, dst := f.dst, dstLen := f.dstLen, width := f.width, noGrow := f.noGrow,
    overlay := f.overlay, firstLine := f.firstLine }

/-- COMPRESS (R147, R148): it waits in fetch order for a free compressor. -/
def compress (h : MsgHdr) (f : SvcFields) (s : State) : State :=
  message h (jobZero h) inAny (fun _ => compressRange f) (fun r s =>
    feedCompressors (s.modHost fun x => { x with cmpWait := x.cmpWait ++ [.inl (svcOf r f)] })) s

def execCompress (h : MsgHdr) (f : SvcFields) (s : State) : Host.Outcome State Fault Refusal := .next (compress h f s)

/-- The service decoder takes up the oldest waiting DECOMPRESS. -/
def feedDecoder (h : HostIf) : HostIf :=
  match h.dec, h.decWait with
  | none, w :: r => { h with dec := some w, decWait := r }
  | _, _ => h

/-- DECOMPRESS (R152): it waits for the service decoder. -/
def decompress (h : MsgHdr) (f : SvcFields) (s : State) : State :=
  message h (jobZero h) inAny (fun _ => decompressRange f) (fun r s =>
    s.modHost fun x => feedDecoder { x with decWait := x.decWait ++ [svcOf r f] }) s

def execDecompress (h : MsgHdr) (f : SvcFields) (s : State) : Host.Outcome State Fault Refusal := .next (decompress h f s)

/-- Service summary (R155). -/
def summary (m : SvcSum) (st : Status) (check : Nat) (stop : Option Nat) : List Byte :=
  toLE 1 st.code ++ toLE 1 check ++ [0, 0] ++ toLE 4 m.lines ++ toLE 4 (stop.getD 0xFFFFFFFF) ++ toLE 4 m.out.length ++
  toLE 4 m.raw ++ toLE 2 m.cycles ++ toLE 2 m.bytes ++ toLE 2 (sat 16 m.copies) ++ toLE 2 (sat 16 m.blanks) ++ toLE 4 0

/-- The status of a code. -/
def svcStatus (c : Nat) : Status :=
  match c with
  | 0x0B => .noGrow
  | 0x06 => .noRoom
  | 0x0A => .integrity
  | 0x0C => .expansion
  | _ => .ok

/-- A failed read of the input, by the statuses of R80 (log 24). -/
def readStatus (r : HostRead) : Option Status :=
  match r with
  | .ok => none
  | .timeout => some .timeout
  | .error | .poisoned => some .integrity

/-- COMPRESS over its input: summary counts, status and line at which it stopped (R145 to R151). -/
def compressAll (v : Service) (input : List Byte) : SvcSum × Status × Option Nat :=
  let n := v.width / 2
  let (m, c, stop) := compressLines v.width v.noGrow v.overlay v.dstLen (v.firstLine = 0) (List.replicate v.width 0) v.firstLine
    (chunks n (v.srcLen / n) input) SvcSum.zero
  (m, svcStatus c, stop)

/-- The compressor's service ends. -/
def endCompress (unit : Nat) (v : Service) (m : SvcSum) (st : Status) (stop : Option Nat) (s : State) : State :=
  let s := feedCompressors (s.modHost fun h => { h with cmp := updAt h.cmp unit fun _ => none })
  let s := if m.out.isEmpty then s else hostWrite v.dst m.out s
  complete v.ref st m.out.length (s.modJobs fun j => { j with resCompress := newResult (summary m st 0 stop) })

/-- COMPRESS_RUN (R145): the input has been read and coded (log 24). -/
def execCompressRun (unit : Fin 2) (input : List Byte) (read : HostRead) (s : State) : Host.Outcome State Fault Refusal :=
  match s.host.cmp[unit] with
  | some (.inl v) =>
    match readStatus read with
    | some st => .next (endCompress unit v SvcSum.zero st (some v.firstLine) s)
    | none =>
      if input.length != v.srcLen then .next s
      else
        let (m, st, stop) := compressAll v input
        .next (endCompress unit v m st stop s)
  | _ => .next s

/-- The service decoder's service ends. -/
def endDecompress (v : Service) (m : SvcSum) (st : Status) (check : Nat) (stop : Option Nat) (out : List Byte) (s : State) : State :=
  let s := s.modHost fun h => feedDecoder { h with dec := none }
  let s := if out.isEmpty then s else hostWrite v.dst out s
  complete v.ref st m.out.length (s.modJobs fun j => { j with resDecompress := newResult (summary m st check stop) })

/-- DECOMPRESS over its input (R152, R153). After EXPANSION the contents of DST are open. -/
def decompressAll (v : Service) (input : List Byte) (s : State) : State :=
  let (m, c, check, stop) := decompressBlocks v.width v.dstLen v.overlay input.length v.firstLine
    (List.replicate v.width 0) input SvcSum.zero
  if c = 0x0C then
    endDecompress v SvcSum.zero .expansion 0 stop (freeBytes s.freeCtr v.dstLen) (s.modFreeCtr (· + v.dstLen))
  else endDecompress v { m with raw := 0 } (svcStatus c) check stop m.out s

/-- DECOMPRESS_RUN (R152): the input has been read and decoded. -/
def execDecompressRun (input : List Byte) (read : HostRead) (s : State) : Host.Outcome State Fault Refusal :=
  match s.host.dec with
  | none => .next s
  | some v =>
    match readStatus read with
    | some st => .next (endDecompress v SvcSum.zero st 0 (some v.firstLine) [] s)
    | none => if input.length != v.srcLen then .next s else .next (decompressAll v input s)

end Sys2Proof.Machine
end

