-- ==== Sys2Proof/Machine/RunMsg.lean ====
section
/-! DEFINITION. Run messages and the entry to RUN (R12, R13, R31, R83, R179 to R188, R218, R239, R333, R404 to R406,
R468). -/

namespace Sys2Proof.Machine

open Sys2Proof.Bits

/-- Every link with an enabled axis is up, with its FLT pair normal (R333). -/
def stageLinksReady (s : State) : Bool :=
  Img.allSlots.all fun x =>
    !(s.img.slotKind x.1 x.2 = 1 && s.img.axisEn (s.img.slotAxis x.1 x.2)) ||
      (let l := tab s.stage StageLink.reset x.1
       l.up && !l.pair.active && l.pair.linesNormal)

/-- The exposure link of every station that the job prints is up (R239). -/
def expoLinksReady (stations : BitVec 8) (s : State) : Bool :=
  (bitsOf 8 stations.toNat).all fun n => (tab s.expo Expo.reset n).linkUp

/-- The mirror of tag `i` is at or above its LIMIT; 0xFFFFFFFF is no limit (R468, table "Tag entry"). -/
def atLimit (l : Img) (i : Nat) (t : Tag) : Bool := l.tagLimit i != 0xFFFFFFFF && decide (l.tagLimit i ≤ t.mirror)

/-- The policy of OTP region 7 forbids runs (R468). -/
def policyForbids (s : State) : Bool :=
  let p := policyWord s 7 0
  s.img.tagsUsed.any fun i =>
    let t := tab s.cons.tag Tag.reset i
    s.img.tagUse i = 2 &&
      ((bit p 0 && !(t.present && t.auth)) || (bit p 1 && atLimit s.img i t))

/-- What RUN_START and RUN_RESUME check for NOT_READY (R31, R239, R333, R468). -/
def runReady (stations : BitVec 8) (s : State) : Bool :=
  allLocked s && stageLinksReady s && expoLinksReady stations s && !policyForbids s

/-- SPEED and ACCEL of a run message (R83, R183, table "Message payloads"). -/
def speedRange (s : State) (vAdm speed accel : Nat) : Bool :=
  inR speed (max 50 s.img.vMin) vAdm && inR accel 10 20000

/-- Ranges of RUN_START. -/
def runStartRange (h : MsgHdr) (frames speed accel : Nat) (s : State) : Bool :=
  decide (1 ≤ frames) && (s.job? h.job).any fun j => speedRange s j.vAdm speed accel

/-- An accepted run message waits for its entry; the decoders begin with the first frame of a new run, and go on with a
resumed one's (R217, R218). -/
def beginWait (w : RunWait) (s : State) : State :=
  (if w.resume then s else clearDecoders s).modHost fun x => { x with runWait := some w }

/-- RUN_START (R13, R75, R83, R84, R183; log 87). -/
def runStart (h : MsgHdr) (frames speed accel : Nat) (s : State) : State :=
  message h (jobHeld h) (fun s => s.eng.state = .armed) (runStartRange h frames speed accel) (fun r s =>
    match s.job? h.job with
    | none => s
    | some j =>
      if s.host.runWait.isSome then reject r .busy s
      else if s.run.suspended then reject r .state s
      else if !runReady j.stations s then reject r .notReady s
      else beginWait { ref := r, resume := false, job := h.job, frames := frames, speed := speed, accel := accel } s) s

def execRunStart (h : MsgHdr) (frames speed accel : Nat) (s : State) : Host.Outcome State Fault Refusal :=
  .next (runStart h frames speed accel s)

/-- A value of RUN_RESUME: 0 keeps the one in force (R183). -/
def keep0 (v old : Nat) : Nat := if v = 0 then old else v

/-- RUN_RESUME (R13, R180, R183). -/
def runResume (h : MsgHdr) (speed accel : Nat) (s : State) : State :=
  message h (jobRun h) (fun s => s.eng.state = .armed && s.run.suspended)
    (fun s => speedRange s s.run.vAdm (keep0 speed s.run.speed) (keep0 accel s.run.accel)) (fun r s =>
      if s.host.runWait.isSome then reject r .busy s
      else if !runReady s.run.stations s then reject r .notReady s
      else beginWait { ref := r, resume := true, job := s.run.job, frames := s.run.frames,
                       speed := keep0 speed s.run.speed, accel := keep0 accel s.run.accel } s) s

def execRunResume (h : MsgHdr) (speed accel : Nat) (s : State) : Host.Outcome State Fault Refusal :=
  .next (runResume h speed accel s)

/-- Station `n`'s band buffer holds the lines that entry needs: the first 64 of repetition `k`, or all of a shorter one
(R218). -/
def bandReady (s : State) (k lf n : Nat) : Bool :=
  let b := (tab s.dec Decoder.reset n).band
  (List.range (min 64 lf)).all fun l => b.any fun x => x.number = k && x.line = l

/-- The band condition of R218 holds at every station of the job, or the first frame is uncommitted. -/
def entryBands (s : State) (j : Job) : Bool :=
  match firstUnstarted s j.id with
  | none => true
  | some k => (bitsOf 8 j.stations.toNat).all (bandReady s k (s.img.lF j.last))

/-- F_0 of a stretch that starts here (R179), with the base offsets that come into force (R174). -/
def startLine (s : State) : Int := s.line + max 0 (ceilLines (sMin s s.run.accel) - dFirst s)

/-- A sum of R175 at station `n`, of these offsets and the last's own, passes its limit. -/
def regBeyond (s : State) (n : Nat) (along cross : Int) : Bool :=
  decide (s.img.regLimit < (s.img.lastSub s.run.last n + along).natAbs ∨ s.img.regXLimit < cross.natAbs)

/-- REG_LIMIT for frame `f`, once per station per frame (R178). -/
def regCheck (n f : Nat) (along cross : Int) (s : State) : State :=
  if regBeyond s n along cross && (tab s.reg RegStation.reset n).limFrame != some f then
    raise 0x00D (s.atReg n fun r => { r with limFrame := some f })
  else s

/-- The sums of the stations of the run, with which its first frame starts (R175, R178). -/
def regBegin (s : State) : State :=
  (bitsOf 8 s.run.stations.toNat).foldl (fun s n =>
    let r := tab s.reg RegStation.reset n
    regCheck n s.run.first (r.trimAlong + r.accAlong) (r.trimCross + r.accCross) s) s

/-- The run or resumed stretch begins (R179, R180, R182; log 27). -/
def beginStretch (w : RunWait) (j : Job) (s : State) : State :=
  let first := (firstUnstarted s j.id).getD j.next
  let other := s.run.job != j.id
  let s := s.modReg fun v => v.map fun x => { x with kUsed := x.k, seen := if other then [] else x.seen }
  if w.resume then
    let left := s.runLeft
    s.modRun fun r => { r with active := true, suspended := false, speed := w.speed, accel := w.accel, first := first,
                               stretch := left, started := 0, halt := none, vRamp := 0, vRef := 0, delayed := false }
  else
    let number := (Config.freeNat s.freeCtr) % 2 ^ 32
    s.useFree.modRun fun _ =>
      { active := true, number := number, job := j.id, last := j.last, stations := j.stations, vAdm := j.vAdm,
        frames := w.frames, speed := w.speed, accel := w.accel, f0 := 0, first := first, stretch := w.frames, started := 0,
        suspended := false, halt := none, vRamp := 0, vRef := 0, delayed := false }

/-- RUN is entered (rows 9 and 10); `f0` is the start position that a group's START gives (R404). -/
def enterRun (w : RunWait) (j : Job) (f0 : Option Int) (s : State) : State :=
  let s := beginStretch w j s
  let f := f0.getD (startLine s)
  let s := (s.modRun fun r => { r with f0 := f }).modHost fun x => { x with runWait := none }
  regBegin (enterState 0 .run (if w.resume then 0x03 else 0x02) (complete w.ref .ok s.run.number s))

/-- The waiting run message ends without RUN: a member withdraws READY, and a leader's attempt is over (R404). -/
def dropWait (w : RunWait) (st : Status) (s : State) : State :=
  let s := s.modRing fun r =>
    { r with group := { r.group with msg := if r.group.msg = .ready then .none else r.group.msg, ready := 0 } }
  reject w.ref st (s.modHost fun x => { x with runWait := none })

/-- The engine state that the waiting message checked no longer holds (R218). -/
def waitStale (w : RunWait) (s : State) : Bool := s.eng.state != .armed || (w.resume && !s.run.suspended)

/-- This controller leads its run group, or belongs to another's (R403). -/
def groupLeader (s : State) : Bool := s.img.group = some s.ring.index
def groupMember (s : State) : Bool := s.img.group.isSome && !groupLeader s

/-- Every required, live member has sent READY (R404, log 26). -/
def groupAllReady (s : State) : Bool :=
  (List.range 32).all fun i =>
    let n := tab s.ring.ctrl RingNode.reset i
    i = s.ring.index || s.img.ctrlUse i != 1 || n.group != s.img.group || !n.live || s.ring.group.ready.getLsbD i

/-- A group message in this controller's next slots (R404, R406). -/
def sendGroup (m : GroupMsg) (pos : Int) (w : RunWait) (s : State) : State :=
  s.modRing fun r => { r with group := { r.group with msg := m, pos := pos, number := (r.group.number + 1) % 256,
                                                      speed := w.speed, accel := w.accel } }

/-- The leader enters RUN and sends START with its F_0 (R404). -/
def leadRun (w : RunWait) (j : Job) (s : State) : State :=
  let s := enterRun w j none s
  let s := s.modRing fun r => { r with group := { r.group with ready := 0, halts := [] } }
  sendGroup .start s.run.f0 w s

/-- A member sends READY once (R404). -/
def sendReady (w : RunWait) (s : State) : State := if s.ring.group.msg = .ready then s else sendGroup .ready 0 w s

/-- The conditions that the message checked at take-up hold at its entry (R218). -/
def entryReady (w : RunWait) (j : Job) (s : State) : Bool :=
  runReady j.stations s && (!w.resume || s.run.suspended)

/-- RUN_ENTRY (R218, R404). -/
def runEntry (s : State) : State :=
  match s.host.runWait with
  | none => s
  | some w =>
    match s.job? w.job with
    | none => dropWait w (if waitStale w s then .state else .notReady) s
    | some j =>
      if waitStale w s then dropWait w .state s
      else if !entryBands s j then s
      else if !entryReady w j s then dropWait w .notReady s
      else if groupMember s then sendReady w s
      else if groupLeader s then (if groupAllReady s then leadRun w j s else s)
      else enterRun w j none s

def execRunEntry (s : State) : Host.Outcome State Fault Refusal := .next (runEntry s)

/-- v_ref can still reach the plan with the new deceleration (R183): v_ref² ≤ 2a × (Z_new − X). -/
def modifyReaches (s : State) (accel : Nat) : Bool :=
  let z := runTarget s * lineAu + sMin s accel
  decide (refSpeed s * refSpeed s ≤ 2 * accelAu accel * max 0 (z - s.anch.follow))

/-- RUN_MODIFY (R83, R183, R405). -/
def runModify (h : MsgHdr) (frames speed accel : Nat) (s : State) : State :=
  message h (jobRun h) (fun s => s.eng.state = .run)
    (fun s => speedRange s s.run.vAdm speed accel && modifyReaches s accel) (fun r s =>
      if (frames != 0 && frames != s.run.frames) || groupMember s then reject r .state s
      else s.modHost fun x => { x with modifyWait := x.modifyWait ++ [{ ref := r, speed := speed, accel := accel }] }) s

def execRunModify (h : MsgHdr) (frames speed accel : Nat) (s : State) : Host.Outcome State Fault Refusal :=
  .next (runModify h frames speed accel s)

/-- A waiting RUN_MODIFY at its boundary (R183). A run that a stop has ended or turned into a halt since keeps its plan
(log 28). -/
def applyModify (m : ModifyWait) (s : State) : State :=
  if s.eng.state != .run then reject m.ref .state s
  else complete m.ref .ok 0 (s.modRun fun r => { r with speed := m.speed, accel := m.accel })

/-- Every waiting RUN_MODIFY. -/
def applyModifies (s : State) : State :=
  s.host.modifyWait.foldl (fun s m => applyModify m s) (s.modHost fun x => { x with modifyWait := [] })

/-- A suspended run is discarded (R188). -/
def discardRun (s : State) : State := postEvent .runEnd 2 (s.modRun fun r => { r with suspended := false })

/-- RUN_STOP (R73, R185, R188). -/
def runStopMsg (h : MsgHdr) (s : State) : State :=
  message h (jobRun h)
    (fun s => s.eng.state = .run || s.eng.state = .halting || (s.eng.state = .armed && s.run.suspended)) (anyRange) (fun r s =>
      match s.eng.state with
      | .run => startHalt 0 0x04 (complete r .ok 0 s)
      | .armed => complete r .ok 0 (discardRun s)
      | _ => complete r .ok 0 s) s

def execRunStop (h : MsgHdr) (s : State) : Host.Outcome State Fault Refusal := .next (runStopMsg h s)

end Sys2Proof.Machine
end

