-- ==== Sys2Proof/Machine/Anchor.lean ====
section
/-! DEFINITION. The anchor unit: counts, follower and debt, speed estimates, eyelet anchors and overspeed; and the facet
reference's mode, which follows the web (R156 to R169). -/

namespace Sys2Proof.Machine

open Sys2Proof.Bits

/-- Follower and raw position at tick `t` (R164). -/
def Anchor.posAt (a : Anchor) (t : Int) : Int × Int :=
  match a.hist.find? fun x => decide ((x.1 : Int) ≤ t) with
  | some x => x.2
  | none => match a.hist.getLast? with
    | some x => x.2
    | none => (a.follow, a.raw)

/-- Advance of the follower over the last EST_WIN, and over the one before it (R164). -/
def followAdvance (s : State) : Int × Int :=
  let w : Int := s.img.estWin
  let x1 := (s.anch.posAt (s.now - w)).1
  let x2 := (s.anch.posAt (s.now - 2 * w)).1
  (s.anch.follow - x1, x1 - x2)

/-- Advance of the raw position over the last EST_WIN. -/
def rawAdvance (s : State) : Int := s.anch.raw - (s.anch.posAt (s.now - (s.img.estWin : Int))).2

/-- The speed estimate v in au per second (R164). -/
def speedEst (s : State) : Int := (followAdvance s).1 * 100000000 / s.img.estWin

/-- The raw position's speed is STILL_SPEED or more: 0.01 m/min is 500,000 au/s (R165). -/
def moving (s : State) : Bool :=
  decide (500000 * (s.img.b2 10 32 : Int) * s.img.estWin ≤ (rawAdvance s).natAbs * 100000000)

/-- History back to two estimate windows (R164). -/
def trimHist (now win : Nat) (h : List (Nat × Int × Int)) : List (Nat × Int × Int) :=
  h.takeWhile (fun x => decide (now < x.1 + 2 * win)) ++ (h.dropWhile fun x => decide (now < x.1 + 2 * win)).take 1

/-- The position has changed in tick `now`. -/
def Anchor.note (now win : Nat) (a old : Anchor) : Anchor :=
  let base := if old.hist.isEmpty then [(0, old.follow, old.raw)] else old.hist
  { a with hist := (now, a.follow, a.raw) :: trimHist now win base }

/-- The raw position moves by `d` au: backward into the debt, forward out of it and then into the follower (R161). -/
def Anchor.move (d : Int) (a : Anchor) : Anchor :=
  if d < 0 then { a with raw := a.raw + d, debt := a.debt + d.natAbs }
  else
    let repay := min a.debt d.natAbs
    { a with raw := a.raw + d, debt := a.debt - repay, follow := a.follow + ((d.natAbs - repay : Nat) : Int) }

/-- Au of `c` counts, and the remainder carried (R158). -/
def scaleCounts (s : State) (c : Int) : Int × Int :=
  let n := c * s.img.scaleNum + s.anch.rem
  let d : Int := max 1 s.img.scaleDen
  (n / d, n % d)

/-- Debt past DEBT_MAX, once per episode (R162). -/
def debtCheck (s : State) : State :=
  if s.anch.debt = 0 then s.modAnch fun a => { a with reverse := false }
  else if s.anch.reverse || s.anch.debt ≤ s.img.debtMax then s
  else raise 0x008 (setsBit 0x3000 7 <| s.modAnch fun a => { a with reverse := true, debtTrip := true })

/-- T_STBY in 1/65,536 SYS cycle: 32 lines at V_STBY (R167). -/
def tStby (l : Img) : Nat := 162560000 * 65536 / max 1 l.vStby

/-- T_k+1 of R169 in 1/65,536 SYS cycle, for `e` au of error and an interval of `i`; none when the predicted speed is
not above 0. -/
def anchoredInterval (s : State) (e : Int) (i : Nat) : Option Nat :=
  let w : Int := s.img.estWin
  let d := followAdvance s
  let den := d.1 * w * 524288 + (d.1 - d.2) * i
  if den ≤ 0 then none else some ((2032000 * 65536 - s.img.gain * e) * 4 * w * w * 524288 / den).toNat

/-- Error of the grid in au: X − P. -/
def gridError (s : State) : Int := if s.facet.fresh then 0 else s.anch.follow - s.facet.grid

/-- The interval in force, T_STBY before the first. -/
def facetInterval (s : State) : Nat := if s.facet.interval = 0 then tStby s.img else s.facet.interval

/-- The facet reference changes its mode (R167, R168); `e` is the error ε of the last pulse in au. -/
def facetMode (e : Int) (s : State) : State :=
  if s.facet.anchored then
    match anchoredInterval s e (facetInterval s) with
    | some t => if tStby s.img < t then s.modFacet fun f => { f with anchored := false, fresh := false } else s
    | none => s.modFacet fun f => { f with anchored := false, fresh := false }
  else
    match anchoredInterval s 0 (facetInterval s) with
    | some t => if t < tStby s.img then s.modFacet fun f => { f with anchored := true, fresh := true } else s
    | none => s

/-- The web is no longer at standstill once its raw speed reaches STILL_SPEED, and the time below it starts again
(R165). -/
def stillCheck (s : State) : State := if moving s then s.modAnch fun a => { a with still := false, quiet := 0 } else s

/-- The anchor unit's positions become those of `a`. -/
def placeAnchor (a : Anchor) (s : State) : State :=
  let old := s.anch
  let new := a.note s.now s.img.estWin old
  let s := travel (new.follow - old.follow).toNat (s.modAnch fun _ => new)
  facetMode s.facet.err (stillCheck (debtCheck s))

/-- The selected anchor's position moves by `d` au. -/
def moveAnchor (d : Int) (s : State) : State := placeAnchor (s.anch.move d) s

/-- The raw speed has stayed below STILL_SPEED for STILL_TIME (R165). -/
def stillLong (s : State) : Bool := !moving s && decide (100000 * s.img.b2 10 34 ≤ s.anch.quiet)

/-- A tick of the standstill time (R165). -/
def countStill (s : State) : State := stillCheck (s.modAnch fun a => { a with quiet := a.quiet + 1 })

/-- The speed estimate is above 1.02 × V_ADM of the running job (R166): 0.1 m/min is 5,000,000 au/s. -/
def overspeed (s : State) : Bool :=
  s.run.active && decide (102 * 5000000 * (s.run.vAdm : Int) * s.img.estWin < (followAdvance s).1 * 100000000 * 100)

/-- A tick of the overspeed time (R166). -/
def countOver (s : State) : State :=
  if overspeed s then s.modAnch fun a => { a with overTime := a.overTime + 1 }
  else s.modAnch fun a => { a with overTime := 0, overEp := false }

/-- Quadrature code of two levels along the forward sequence 00, A, AB, B (log 29). -/
def quadrature (a b : Bool) : Nat := match a, b with | false, false => 0 | true, false => 1 | true, true => 2 | false, true => 3

/-- Count of one edge: forward 1, backward −1 (log 29). -/
def edgeCount (x : AnchIn) (a b : Bool) : Int :=
  match (quadrature a b + 4 - quadrature x.a x.b) % 4 with | 1 => 1 | 3 => -1 | _ => 0

/-- Counts of the selected hardware anchor move the web (R157, R158). -/
def countWeb (n : Nat) (c : Int) (s : State) : State :=
  if s.anch.src = n then
    let p := scaleCounts s c
    moveAnchor p.1 (s.modAnch fun a => { a with rem := p.2 })
  else s

/-- ANCHOR_COUNT (R157, R161): filtered levels of A and B. -/
def execAnchorCount (n : Fin 2) (a b : Bool) (s : State) : Host.Outcome State Fault Refusal :=
  let x := s.anch.inp[n]
  let c := edgeCount x a b
  let s := s.modAnch fun u => { u with inp := upd u.inp n fun x => { x with a := a, b := b, count := x.count + c } }
  if a != x.a && b != x.b then .next (raise 0x009 (setsBit 0x3000 4 <| s.modAnch fun u => { u with qerr := true }))
  else if c = 0 then .next s
  else .next (countWeb n.val c s)

/-- ANCHOR_Z_PULSE (R159). -/
def execAnchorZPulse (n : Fin 2) (s : State) : Host.Outcome State Fault Refusal :=
  let x := s.anch.inp[n]
  let s := s.modAnch fun u => { u with inp := upd u.inp n fun x => { x with zCount := some x.count } }
  match x.zCount with
  | none => .next s
  | some z =>
    let d : Int := (x.count - z).natAbs - (s.img.zPeriod : Int)
    if s.img.zPeriod != 0 && decide (2 < d.natAbs) then
      .next (raise 0x009 (setsBit 0x3000 5 <| s.modAnch fun u => { u with zerr := true }))
    else .next s

/-- Where the follower stands at tick `now` by extrapolation from the last report (R160): never behind where it has been,
and at the reported position while there is debt (R161; log 32). -/
def Anchor.eyeTarget (now : Nat) (a : Anchor) : Int :=
  max a.follow (if a.debt = 0 then a.eyeBase + a.eyeSpeed * ((now : Int) - a.eyeTick) / 100000000 else a.eyeBase)

/-- The follower is extrapolated from the last report (R160); the raw position is that of the counts (R161). -/
def extrapolate (s : State) : State :=
  if s.anch.src != 2 || !s.anch.eyeOn || s.anch.eyeSpeed = 0 || s.anch.eyeTarget s.now = s.anch.follow then s
  else placeAnchor { s.anch with follow := s.anch.eyeTarget s.now } s

/-- A report of `d` au since the one before, sampled at `time`, with the speed estimate `v`: counts move the raw position and
the reported follower position by R161, and the follower is corrected to the report (R160). -/
def Anchor.report (now time : Nat) (d v : Int) (a : Anchor) : Anchor :=
  let m := ({ a with follow := a.eyeBase } : Anchor).move d
  let r : Anchor := { m with follow := a.follow, eyeBase := m.follow, eyeTick := time, eyeSpeed := v, eyeOn := true,
                             eyeMiss := 0, eyeLost := false }
  { r with follow := r.eyeTarget now }

/-- Raw count and sample time of the anchor eyelet's words 1 to 4 as delivered (table "Eyelet kinds"). -/
def anchorReport (s : State) : Int × Nat :=
  let w := (tab s.ring.node RingNode.reset s.img.anchNode).words
  (signed 64 (w.getD 1 0 + 2 ^ 32 * w.getD 2 0), w.getD 3 0 + 2 ^ 32 * w.getD 4 0)

/-- EYELET_ANCHOR_REPORT (R160, R392; log 120): the follower is corrected to the report's count and sample time. The first report sets
the count from which movement is taken (log 32). -/
def execEyeletAnchorReport (count : Int) (time : Nat) (s : State) : Host.Outcome State Fault Refusal :=
  if s.anch.src != 2 || anchorReport s != (count, time) then .next s
  else
    match s.anch.eyeCount with
    | none => .next (s.modAnch fun a => { a with eyeCount := some count, eyeTick := time, eyeBase := a.follow, eyeOn := true,
                                                 eyeMiss := 0, eyeLost := false })
    | some c =>
      let p := scaleCounts s (count - c)
      let a := s.anch.report s.now time p.1 (speedEst s)
      .next (placeAnchor { a with rem := p.2, eyeCount := some count } s)

/-- A ring cycle ends: one more without a report of the anchor eyelet, unless one came (R160). -/
def Anchor.cycle (a : Anchor) : Anchor := if a.src = 2 then { a with eyeMiss := a.eyeMiss + 1 } else a

/-- ANCHOR_STALE (R160): no report for two consecutive ring cycles. Extrapolation stops at the last reported position, and the
follower stays where it has come to (log 32). -/
def execAnchorStale (s : State) : Host.Outcome State Fault Refusal :=
  if s.anch.src != 2 || s.anch.eyeLost || decide (s.anch.eyeMiss < 2) then .next s
  else .next (raise 0x00A (setsBit 0x3000 6 <| s.modAnch fun a => { a with stale := true, eyeOn := false, eyeSpeed := 0, eyeLost := true }))

/-- ANCHOR_OVERSPEED (R166): the speed estimate has been above 1.02 × V_ADM for 1 ms without a break (log 100). -/
def execAnchorOverspeed (s : State) : Host.Outcome State Fault Refusal :=
  if overspeed s && decide (100000 ≤ s.anch.overTime) && !s.anch.overEp then
    .next (raise 0x00C (s.modAnch fun a => { a with overEp := true }))
  else .next s

end Sys2Proof.Machine
end

