-- ==== Sys2Proof/Machine/AuxAxes.lean ====
section
/-! DEFINITION. Auxiliary axes P0 to P15 (R357 to R360). -/

namespace Sys2Proof.Machine

open Sys2Proof.Bits

/-- Acceleration in steps per second squared, and jerk in steps per second cubed. -/
def Aux.accelSteps (a : Aux) : Nat := 1000 * a.accel

/-- Steps needed to stop from speed `v` in steps per second (R357): v² ÷ 2a, or in S-curve profile the distance of a stop
whose deceleration rises and falls at `j` and does not pass a: v × √(v ÷ j), or v ÷ 2 × (v ÷ a + a ÷ j) (log 46). -/
def stopSteps (curve : Bool) (a j v : Nat) : Nat :=
  if a = 0 then 0
  else if !curve || j = 0 then ceilDiv (v * v) (2 * a)
  else if v * j ≤ a * a then isqrt (v * v * v / j)
  else ceilDiv (v * (v * j + a * a)) (2 * a * j)

/-- The largest speed below 2ᵏ that stops within `n` steps (log 46). -/
def speedFrom (curve : Bool) (a j n : Nat) : Nat → Nat → Nat
  | 0, v => v
  | k + 1, v => speedFrom curve a j n k (if stopSteps curve a j (v + 2 ^ k) ≤ n then v + 2 ^ k else v)

/-- JERK in steps per second cubed. -/
def auxJerkOf (l : Img) (p : Nat) : Nat := 1000 * l.auxJerk p

/-- Speed that the ramp has reached after `n` steps, at most SPEED. -/
def auxSpeedAt (l : Img) (p : Nat) (x : Aux) (n : Nat) : Nat :=
  min (100 * x.speed) (speedFrom (l.auxCurve p) x.accelSteps (auxJerkOf l p) n 21 0)

/-- Interval to the next step, at least 500 ns: 200 SYS cycles (R357). -/
def auxInterval (l : Img) (p : Nat) (x : Aux) (n : Nat) : Nat :=
  max (200 * 65536) (400000000 * 65536 / max 1 (auxSpeedAt l p x (max 1 n)))

/-- Steps of the ramp to SPEED. -/
def rampTop (l : Img) (p : Nat) (x : Aux) : Nat := stopSteps (l.auxCurve p) x.accelSteps (auxJerkOf l p) (100 * x.speed)

/-- Steps remaining to the held target. -/
def Aux.remaining (x : Aux) : Nat := (x.held - x.pos).natAbs

/-- A move towards `t` begins; a move of no steps is over at once. -/
def Aux.begin (l : Img) (p : Nat) (t : Int) (x : Aux) : Aux :=
  let x := { x with held := t, dir := decide (x.pos < t), rampSteps := 0, abort := false }
  if t = x.pos then { x with state := .idle } else { x with state := .moving, interval := auxInterval l p x 0 }

/-- The limit input forbids a move towards `t`: it is active, and the move does not run away from its side (R358). -/
def limitForbids (l : Img) (p : Nat) (x : Aux) (t : Int) : Bool :=
  x.fltIn && l.auxFltMode p = 1 && decide (x.pos < t) = x.limitDir

/-- START and RESUME are rejected whatever the axis does (R358). -/
def auxBarred (s : State) (p : Nat) (t : Int) : Bool :=
  s.eng.state = .boot || s.eng.state = .belay || s.eng.state = .safe || !s.img.auxEn p ||
    limitForbids s.img p (tab s.aux Aux.reset p) t

/-- A rejected command. -/
def auxReject (p : Nat) (s : State) : State := setsBit (0x8414 + 0x20 * p) 3 (s.atAux p fun x => { x with reject := true })

/-- The alarm is active: the axis stops in the tick (R360). -/
def alarmStop (p : Nat) (s : State) : State :=
  let x := tab s.aux Aux.reset p
  if x.fltIn && s.img.auxFltMode p = 2 && (x.state = .moving || x.state = .stopping) then
    s.atAux p fun x => { x.cut with state := .fault }
  else s

/-- A move starts, unless the alarm stops it at once. -/
def auxMove (p : Nat) (t : Int) (s : State) : State :=
  let l := s.img
  alarmStop p (s.atAux p (Aux.begin l p t))

/-- AUX_START (R358). -/
def auxStart (p : Nat) (s : State) : State :=
  let x := tab s.aux Aux.reset p
  match x.state with
  | .idle | .suspended => if auxBarred s p x.target then auxReject p s else auxMove p x.target s
  | _ => auxReject p s

def execAuxStart (p : Fin 16) (s : State) : Host.Outcome State Fault Refusal :=
  .next (if regOpen 1 s then auxStart p s else s)

/-- AUX_STOP (R358, R360). -/
def execAuxStop (p : Fin 16) (s : State) : Host.Outcome State Fault Refusal :=
  .next (if regOpen 1 s then s.atAux p (Aux.halt false) else s)

/-- AUX_RESUME (R358). -/
def auxResume (p : Nat) (s : State) : State :=
  let x := tab s.aux Aux.reset p
  match x.state with
  | .suspended => if auxBarred s p x.held then auxReject p s else auxMove p x.held s
  | _ => auxReject p s

def execAuxResume (p : Fin 16) (s : State) : Host.Outcome State Fault Refusal :=
  .next (if regOpen 1 s then auxResume p s else s)

/-- ABORT: the remainder is discarded, after the stop of an axis that moves (R358). -/
def Aux.discard (x : Aux) : Aux :=
  match x.state with
  | .idle => x
  | .moving => x.halt true
  | .stopping => { x with abort := true }
  | .suspended | .fault => { x with state := .idle, held := x.pos }

def execAuxAbort (p : Fin 16) (s : State) : Host.Outcome State Fault Refusal :=
  .next (if regOpen 1 s then s.atAux p Aux.discard else s)

/-- One step (R357): POS counts it; the ramp falls from the step on at which the steps remaining are at most the steps
needed to stop, and a move or a stop ends at rest. -/
def Aux.step (l : Img) (p : Nat) (x : Aux) : Aux :=
  if x.state != .moving && x.state != .stopping then x
  else
    let x := { x with pos := signed 32 (unsigned 32 (if x.dir then x.pos + 1 else x.pos - 1)) }
    let slow := x.state = .stopping || decide (x.remaining ≤ x.rampSteps) || decide (rampTop l p x < x.rampSteps)
    let n := if slow then x.rampSteps - 1 else min (x.rampSteps + 1) (rampTop l p x)
    let x := { x with rampSteps := n, interval := auxInterval l p x n }
    if x.state = .moving && x.remaining = 0 then { x with state := .idle, rampSteps := 0 } else x.settle

def execAuxStep (p : Fin 16) (s : State) : Host.Outcome State Fault Refusal :=
  let l := s.img
  .next (s.atAux p (Aux.step l p))

/-- AUX_FLT_INPUT (R360): a limit or an alarm stops the axis in this tick, and its source is raised. -/
def auxFlt (p : Nat) (s : State) : State :=
  let s := s.atAux p fun x => { x with limitDir := if x.fltIn then x.limitDir else x.dir, fltIn := true }
  if !s.img.auxEn p then s
  else
    match s.img.auxFltMode p with
    | 1 => raise 0x173 (s.atAux p Aux.cut)
    | 2 => raise 0x174 (alarmStop p s)
    | _ => s

def execAuxFltInput (p : Fin 16) (s : State) : Host.Outcome State Fault Refusal :=
  if (tab s.aux Aux.reset p).fltIn then .next s else .next (auxFlt p s)

/-- AUX_FLT_RELEASE (R360). -/
def execAuxFltRelease (p : Fin 16) (s : State) : Host.Outcome State Fault Refusal :=
  .next (s.atAux p fun x => { x with fltIn := false })

/-- A new ACCEL lets a moving axis stop at its held target no longer (R359). -/
def accelRefused (l : Img) (p : Nat) (x : Aux) (accel : Nat) : Bool :=
  x.state = .moving &&
    decide (x.remaining < stopSteps (l.auxCurve p) (1000 * accel) (auxJerkOf l p) (auxSpeedAt l p x x.rampSteps))

/-- The fields that a write of AUXp_PROFILE changes (R359): 0 in a field, and a SPEED above 20,000, are discarded by R6, and
so is an ACCEL with which a moving axis could stop no longer. The ramp is counted anew for the present speed. -/
def Aux.profile (l : Img) (p : Nat) (value : Nat) (x : Aux) : Aux :=
  let sp := value % 65536
  let ac := value / 65536 % 65536
  let bad := accelRefused l p x ac
  let v := auxSpeedAt l p x x.rampSteps
  let y := { x with speed := if inR sp 1 20000 then sp else x.speed }
  if ac = 0 then y
  else if bad then y
  else { y with accel := ac, rampSteps := if x.rampSteps = 0 then 0 else max 1 (stopSteps (l.auxCurve p) (1000 * ac) (auxJerkOf l p) v) }

/-- AUXp_PROFILE written (R359): REJECT is set for a refused ACCEL. -/
def auxProfile (p value : Nat) (s : State) : State :=
  let l := s.img
  let ac := value / 65536 % 65536
  let s' := s.atAux p (Aux.profile l p value)
  if ac != 0 && accelRefused l p (tab s.aux Aux.reset p) ac then auxReject p s' else s'

def execAuxProfileWrite (p : Fin 16) (value : Word) (s : State) : Host.Outcome State Fault Refusal :=
  .next (if regOpen 1 s then auxProfile p value.toNat s else s)

end Sys2Proof.Machine
end

