-- ==== Sys2Proof/Machine/Thermal.lean ====
section
/-! DEFINITION. Temperature inputs, throttling, fuser heaters and high-voltage node loss (R364 to R375, R378 to R380). -/

namespace Sys2Proof.Machine

open Sys2Proof.Bits

/-- Terms of the series 2 × (y + y³ ÷ 3 + y⁵ ÷ 5 + …), `p` the present power and `k` its exponent, in 2⁻⁶⁴. -/
def lnTerms (yy : Nat) : Nat → Nat → Nat → Nat
  | 0, _, _ => 0
  | n + 1, p, k => 2 * p / k + lnTerms yy n (p * yy / 2 ^ 64) (k + 2)

/-- ln(p ÷ q) for q ≤ p < 2q, in 2⁻⁶⁴. -/
def lnUnit (p q : Nat) : Nat :=
  let y := (p - q) * 2 ^ 64 / (p + q)
  lnTerms (y * y / 2 ^ 64) 24 y 1

/-- ln(p ÷ q) for p, q above 0, in 2⁻⁶⁴. -/
def lnRat (p q : Nat) : Int :=
  let e := Fp.log2Rat p q
  (if 0 ≤ e then (lnUnit p (q * 2 ^ e.toNat) : Int) else (lnUnit (p * 2 ^ (-e).toNat) q : Int)) + e * (lnUnit 2 1 : Nat)

/-- n ÷ d as binary32; none for d = 0. -/
def f32Quot (n d : Int) : Option F32 := if d = 0 then none else if d < 0 then some (Fp.ofRat (-n) (-d).toNat) else some (Fp.ofRat n d.toNat)

/-- Temperature of thermistor `n` from ρ in 1/65,536 (R365), with the formula's result rounded to binary32 (log 22); none
where the formula has no value (log 64). -/
def ntcTemp (l : Img) (n rho : Nat) : Option F32 :=
  let r25 := Fp.mag (l.fl 13 (Img.ntcAt n))
  let b := Fp.exact (l.fl 13 (Img.ntcAt n + 4))
  let ser := Fp.mag (l.fl 13 (Img.ntcAt n + 8))
  if rho = 0 || ser = 0 || r25 = 0 || 65536 ≤ rho then none
  else
    let ln := lnRat (ser * rho) (r25 * (65536 - rho))
    let d := 20 * b + 5963 * ln * 2 ^ 85
    f32Quot (5963 * b * 20 - 5463 * d) (20 * d)

/-- Temperature of remote diode `d` from its two forward voltages in µV (R367), with q ÷ k = 16,021,766,340 ÷ 1,380,649 K/V
(logs 22, 64). -/
def diodeTemp (l : Img) (d v1 v2 : Nat) : Option F32 :=
  let eta := Fp.exact (l.fl 13 (Img.diodeAt d))
  let off := signed 16 (l.b2 13 (Img.diodeAt d + 4))
  let num := 16021766340 * ((v2 : Int) - v1) * 2 ^ 149 * 2 ^ 64
  let den := 1380649 * 1000000 * eta * (lnRat 10 1)
  f32Quot (num * 20 + (2 * off - 5463) * den) (20 * den)

/-- 500.0 °C. -/
def hot : F32 := 0x43FA0000

/-- One conversion of an input: three in a row outside the limits break it, three inside heal it (R366). -/
def judge (out broken : Bool) (run : Nat) : Bool × Nat :=
  if out != broken then (if 3 ≤ run + 1 then (!broken, 0) else (broken, run + 1)) else (broken, 0)

/-- Median of five readings. -/
def median5 (xs : List Int) : Int := (xs.foldr insertI []).getD 2 0

/-- Die reading `k` differs from the median of the other five by more than 20 °C (R368). -/
def dieOut (xs : List Int) (k : Nat) : Bool :=
  let others := ((List.range 6).filter (· != k)).map fun i => xs.getD i 0
  decide (200 < (xs.getD k 0 - median5 others).natAbs)

/-- Input `i` is in use. -/
def sensorUse (l : Img) (i : Nat) : Bool :=
  if i < 16 then l.ntcUse i else if i < 20 then l.diodeUse (i - 16) else decide (i < 26)

/-- The conversion of input `i` lies outside its limits. -/
def sensorOut (r : SensorReadings) (i : Nat) : Bool :=
  if i < 16 then
    let n := r.ntc.getD i 0
    decide (995 * 65536 < 1000 * n) || decide (1000 * n < 5 * 65536)
  else if i < 20 then
    let v := r.diode.getD (i - 16) (0, 0)
    !(inR v.1 200000 900000 && inR v.2 200000 900000)
  else dieOut r.die (i - 20)

/-- What input `i` converts to; an open value where its formula has none. -/
def sensorValue (s : State) (r : SensorReadings) (i : Nat) : F32 :=
  if i < 16 then (ntcTemp s.img i (r.ntc.getD i 0)).getD (Config.freeF32 s.freeCtr i)
  else if i < 20 then
    let v := r.diode.getD (i - 16) (0, 0)
    (diodeTemp s.img (i - 16) v.1 v.2).getD (Config.freeF32 s.freeCtr i)
  else Fp.ofRat (r.die.getD (i - 20) 0) 10

/-- Conversion of input `i`: its port, its broken bit, and SENSOR_BROKEN once per episode (R364, R366, R368). -/
def convert (r : SensorReadings) (i : Nat) (s : State) : State :=
  if !sensorUse s.img i then s
  else
    let was := tab s.therm.broken false i
    let (now, run) := judge (sensorOut r i) was (tab s.therm.run 0 i)
    let v := if now then hot else sensorValue s r i
    let s := s.modTherm fun t => { t with value := updAt t.value i fun _ => v, broken := updAt t.broken i fun _ => now
                                          run := updAt t.run i fun _ => run }
    if now && !was then raise 0x022 s else s

/-- T_J (R368). -/
def junction (s : State) (die : List Int) : Int :=
  if 2 ≤ dieBroken s then s.img.thr 3
  else
    let live := ((List.range 6).filter fun k => !tab s.therm.broken false (20 + k)).map fun k => die.getD k 0
    maxI 0 live

/-- Highest level whose threshold T_J reaches. -/
def levelOf (s : State) (tj : Int) : Nat :=
  if s.img.thr 2 ≤ tj then 3 else if s.img.thr 1 ≤ tj then 2 else if s.img.thr 0 ≤ tj then 1 else 0

/-- The throttle level after a conversion (R368, R369). -/
def nextLevel (s : State) (tj : Int) : Nat :=
  let l := s.therm.level
  if dieBroken s = 1 then 3
  else if l < levelOf s tj then levelOf s tj
  else if 0 < l && decide (tj < s.img.thr (l - 1) - s.img.tHyst) then l - 1
  else l

/-- Level, T_J and what they raise (R369, R371). -/
def throttle (die : List Int) (s : State) : State :=
  let tj := junction s die
  let l := nextLevel s tj
  let rose := s.therm.level = 0 && decide (0 < l)
  let crit := decide (s.img.thr 3 ≤ tj)
  let s := s.modTherm fun t => { t with level := l, tj := tj, pinned := dieBroken s = 1, critical := crit
                                        die := Vector.ofFn fun k => die.getD k.val 0 }
  condSet 0x021 crit (if rose then raise 0x020 s else s)

/-- The sensor of heater `h` reads at or above `limit` in 0.1 °C. -/
def heaterAbove (s : State) (h : Nat) (limit : Int) : Bool :=
  decide (limit * 2 ^ 149 ≤ 10 * Fp.exact (tab s.therm.value 0 (s.img.htrSensor h)))

/-- The cut-off of heater `h` (R374). -/
def cutoff (h : Nat) (s : State) : State :=
  if !s.img.htrUse h then s
  else
    let hotNow := heaterAbove s h (s.img.htrMax h)
    let s := if hotNow then heaterLow h (s.modHtr fun t => { t with cutoff := updAt t.cutoff h fun _ => true }) else s
    condSet (0x024 + h) hotNow s

/-- FAULT_CLEAR releases a cut-off once the sensor reads below HTR_MAX − 5.0 °C (R374). -/
def releaseCutoffs (s : State) : State :=
  s.modHtr fun t => { t with cutoff := Vector.ofFn fun h => t.cutoff[h] && heaterAbove s h.val (s.img.htrMax h.val - 50) }

/-- SENSOR_CONVERSION (R364 to R374). -/
def execSensorConversion (r : SensorReadings) (s : State) : Host.Outcome State Fault Refusal :=
  if !collectorOn s || s.eng.state = .down then .next s
  else
    let s := (List.range 26).foldl (fun s i => convert r i s) s
    .next ((List.range 4).foldl (fun s h => cutoff h s) (throttle r.die s.useFree))

/-- The programs' outputs do not act: BOOT, SAFE, LAW_CTRL.STOP, or the engine halted (R326, R375, R378). -/
def lawOutputsOff (s : State) : Bool :=
  s.eng.state = .boot || s.eng.state = .safe || s.eng.state = .down || s.law.stop || s.law.halted

/-- Value last committed on an out-port (R305). -/
def outPortValue (s : State) (p : Nat) : F32 := (s.law.outPorts.lookup p).getD 0

/-- Duty of heater `h` in 2⁻¹⁴⁹, limited to 0 to DUTY_MAX (R373). -/
def heaterDuty (s : State) (h : Nat) : Nat :=
  let u := outPortValue s (0x1400 + h)
  let m := Fp.exact (Fp.ofRat (s.img.htrDutyMax h) 1000)
  (clampI 0 m (Fp.exact u)).toNat

/-- The procedure of R373. -/
def heaterDecide (now h u : Nat) (t : Heaters) : Heaters :=
  let acc := tab t.acc 0 h + u
  if 2 ^ 149 ≤ acc then { t with on := updAt t.on h fun _ => true, since := updAt t.since h fun _ => now, acc := updAt t.acc h fun _ => acc - 2 ^ 149 }
  else { t with on := updAt t.on h fun _ => false, acc := updAt t.acc h fun _ => acc }

/-- Heater `h` at a ZC edge: every edge in MODE 0, every second one in MODE 1. -/
def heaterEdge (h : Nat) (s : State) : State :=
  if !s.img.htrUse h || lawOutputsOff s || tab s.htr.cutoff false h then heaterLow h s
  else if s.img.htrMode h = 1 && tab s.htr.half false h then s.modHtr fun t => { t with half := updAt t.half h fun _ => false }
  else
    let u := heaterDuty s h
    s.modHtr fun t => { heaterDecide s.eng.sincePor h u t with half := updAt t.half h fun _ => s.img.htrMode h = 1 }

/-- ZC is lost (R372). -/
def zcLost (s : State) : State :=
  if s.htr.zcOk then raise 0x023 (allHeatersLow (s.modHtr fun t => { t with zcOk := false, good := 0 }))
  else s.modHtr fun t => { t with good := 0 }

/-- ZERO_CROSS_EDGE (R372, R373, R466). -/
def execZeroCrossEdge (intervalUs : Nat) (s : State) : Host.Outcome State Fault Refusal :=
  let s := (chargeHeaters s).modHtr fun t => { t with zcPeriod := sat 16 intervalUs }
  if !inR intervalUs 7500 11500 then .next (zcLost s)
  else
    let s := s.modHtr fun t => { t with good := min 8 (t.good + 1), zcOk := t.zcOk || decide (8 ≤ t.good + 1) }
    .next (if s.htr.zcOk then (List.range 4).foldl (fun s h => heaterEdge h s) s else s)

/-- ZERO_CROSS_LOST (R372): no edge for 25 ms. -/
def execZeroCrossLost (s : State) : Host.Outcome State Fault Refusal := .next (zcLost s)

/-- HV_NODE_LOST (R380): once per episode. -/
def execHvNodeLost (c : Fin 24) (s : State) : Host.Outcome State Fault Refusal :=
  if s.img.hvUsed.contains c.val && decide (s.img.hvLost ≤ s.hv.missing[c]) && !s.hv.lostEp.getLsbD c.val then
    .next (raise 0x02A (s.modHv fun h => { h with lostEp := h.lostEp ||| (1#24 <<< c.val) }))
  else .next s

end Sys2Proof.Machine
end

