-- ==== Sys2Proof/Machine/Clear.lean ====
section
/-! DEFINITION. FAULT_CLEAR (R27, R54, R56, R423, R424). -/

namespace Sys2Proof.Machine

open Sys2Proof.Bits

/-- Masks and latch: what this tick raised keeps its sticky bit, and the latch if it took it. A latch of an earlier tick that is
cleared stays barred to the sources of this tick (R423). -/
def clearMasks (s : State) : State :=
  let now := tickSources s
  let keep := s.flt.first.any fun f => f.tick = s.now
  s.modFlt fun f => { f with sticky := now.foldl Mask.put Mask.empty, same := Mask.empty
                             first := if keep then f.first else none, ovf := keep && f.ovf
                             barTick := if f.first.isSome && !keep then some s.now else f.barTick
                             clears := sat 16 (f.clears + 1), rearm := true }

/-- FIRST_LEG reads 7 again, and a HALTED channel goes to COAST (row 19, R287). -/
def Spindle.release (c : Spindle) : Spindle :=
  let c := { c with firstLeg := 7 }
  if c.state = .halted then { c with state := .coast, gates := 0, agree := 0, catching := true, resting := false, braking := false } else c

/-- The INH pair is held no longer where the FLT pair is normal (R335). -/
def StageLink.release (l : StageLink) : StageLink :=
  { l with inhHeld := l.inhHeld && !(l.pair.linesNormal && !l.pair.active) }

/-- An auxiliary axis in FAULT goes to SUSPENDED (R360). -/
def Aux.release (a : Aux) : Aux := if a.state = .fault then { a with state := .suspended } else a

/-- The other items of the table "Effects of FAULT_CLEAR". -/
def clearItems (s : State) : State :=
  let s := s.modEng fun e => { e with estop := false }
  let s := each8 (fun n s => unblank n .reaction s) s
  let s := s.modSp fun v => v.map Spindle.release
  let s := updateInh (s.modStage fun v => v.map StageLink.release)
  let s := s.modBus fun v => v.map fun b => { b with absorbLost := false }
  let s := s.modAux fun v => v.map Aux.release
  releaseCutoffs s

/-- Row 25: IDLE, with the gates no longer inhibited (R281); a halted law engine restarts at the next boundary (R326). -/
def safeToIdle (s : State) : State :=
  postCairnRecords (inhibitEnded s (enterState 0 .idle 0x0C (s.modLaw fun l => { l with restart := l.restart || l.halted })))

/-- SAFE is left by row 25 or 26; a restart of the boot waits for the end of the shut-down sequence that the failure
started, throughout which the engine stays in SAFE (R52, R54, log 52). -/
def leaveSafe (s : State) : State :=
  if !s.eng.bootFail then safeToIdle s
  else if downActive s then s.modBoot fun b => { b with restart := true }
  else safeToBoot s

/-- FAULT_CLEAR (R27, R423). -/
def faultClear (h : MsgHdr) (s : State) : State :=
  message h (jobZero h) inAny anyRange (fun r s =>
    if s.eng.state = .safe && !mayLeaveSafe s then reject r .state s
    else
      let s := clearItems (clearMasks (countLife 9 1 (complete r .ok 0 s)))
      if s.eng.state = .safe then leaveSafe s else s) s

def execFaultClear (h : MsgHdr) (s : State) : Host.Outcome State Fault Refusal := .next (faultClear h s)

end Sys2Proof.Machine
end

