-- ==== Sys2Proof/Machine/Params.lean ====
section
/-! DEFINITION. PARAM_SET and PARAM_GET (R260, R314 to R317, R325). -/

namespace Sys2Proof.Machine

open Sys2Proof.Bits

/-- INDEX of space 0 is a link destination (R316). -/
def linkDest (l : Img) (i : Nat) : Bool := l.lawLinks.any fun k => l.lkDst k = i

/-- SPEED_MAX of a channel, in rpm. -/
def speedMax (l : Img) (n : Nat) : F32 := l.spF n 64

/-- Checks of R260 for a write of CMD of channel `n`. -/
def spindleParamStatus (s : State) (index : Nat) (v : F32) : Status :=
  let n := index / 16
  if 8 ≤ n || index % 16 != 0 || !Fp.finite v || Fp.lt (speedMax s.img n) (Fp.abs v) then .range
  else if !s.img.spindleEn n || s.img.spSource n != 4 then .field
  else if decide (Fp.exact v < 0) && s.img.spMode n = 0 then .field
  else .ok

/-- Checks of R316 for a data RAM word. -/
def lawParamStatus (s : State) (index : Nat) (v : F32) : Status :=
  if !Fp.finite v then .range else if linkDest s.img index then .locked else .ok

/-- SPACE and INDEX in range (table "Message payloads"). -/
def paramRange (space index : Nat) : Bool := space = 1 || (space = 0 && decide (index ≤ 32767))

def paramStatus (s : State) (space index : Nat) (v : F32) : Status :=
  if space = 0 then lawParamStatus s index v else spindleParamStatus s index v

/-- Number of the boundary before this tick, or in it (R386). -/
def State.boundary (s : State) : Nat := s.now / s.img.tS

/-- Boundary at which a PARAM_SET taken up now applies: the next when at least 1 µs ahead, else the one after (R315). -/
def paramDue (s : State) : Nat :=
  let k := s.boundary + 1
  if s.now + 100 ≤ k * s.img.tS then k else k + 1

/-- The states of PARAM_SET. -/
def inParamSet (s : State) : Bool :=
  match s.eng.state with
  | .idle | .armed | .run | .halting | .belay | .safe | .service => true
  | .boot | .down => false

/-- PARAM_SET (R260, R314 to R316): taken up only while none waits. -/
def paramSet (h : MsgHdr) (space index : Nat) (value : F32) (s : State) : State :=
  if s.host.paramWait.isSome then s
  else
    message h (jobZero h) inParamSet (fun _ => paramRange space index) (fun r s =>
      match paramStatus s space index value with
      | .ok =>
        let w : ParamWait := { ref := r, space := space, index := index, value := value, due := paramDue s }
        s.modHost fun x => { x with paramWait := some w }
      | st => reject r st s) s

def execParamSet (h : MsgHdr) (space index : Nat) (value : F32) (s : State) : Host.Outcome State Fault Refusal :=
  .next (paramSet h space index value s)

/-- Observer speed of a channel in rpm. -/
def speedRpm (c : Spindle) : F32 := Fp.ofRat c.speed 16

/-- The waiting word applies (R315 to R317): RESULT is the number of the boundary. -/
def applyParam (k : Nat) (s : State) : State :=
  match s.host.paramWait with
  | none => s
  | some w =>
    if k < w.due then s
    else
      let s := s.modHost fun x => { x with paramWait := none }
      let s := if w.space = 0 then noteQuantities (dput w.index (Fp.flush w.value) false s)
               else s.atSp (w.index / 16) fun c => { c with param := w.value }
      complete w.ref .ok (k % 2 ^ 32) s

/-- Value that PARAM_GET returns; none for an INDEX outside R260. -/
def paramValue (s : State) (space index : Nat) : Option F32 :=
  if space = 0 then some (opd s index).v
  else if 8 ≤ index / 16 then none
  else
    let c := tab s.sp Spindle.reset (index / 16)
    match index % 16 with
    | 0 => some c.param
    | 1 => some (speedRpm c)
    | _ => none

/-- PARAM_GET (R260, R316); an uncorrectable word reads as +0 (R325). -/
def paramGet (h : MsgHdr) (space index : Nat) (s : State) : State :=
  message h (jobZero h) inParamSet (fun _ => paramRange space index) (fun r s =>
    match paramValue s space index with
    | some v => complete r .ok v.toNat (if space = 0 then lawReads { reads := [index], puts := [] } s s else s)
    | none => reject r .range s) s

def execParamGet (h : MsgHdr) (space index : Nat) (s : State) : Host.Outcome State Fault Refusal :=
  .next (paramGet h space index s)

end Sys2Proof.Machine
end

