-- ==== Sys2Proof/Machine/DmaOps.lean ====
section
/-! DEFINITION. DMA programs: instruction words (R473), the address spaces (R470 to R472, R481), instruction boundaries,
failures and events (R474 to R480). -/

namespace Sys2Proof.Machine

open Sys2Proof.Bits

/-- Update of channel `k`. -/
def State.atCh (s : State) (k : Nat) (f : Chan → Chan) : State := s.modDma fun d => { d with ch := updAt d.ch k f }

/-- Update of check unit `u`. -/
def State.atCu (s : State) (u : Nat) (f : CheckUnit → CheckUnit) : State := s.modDma fun d => { d with cu := updAt d.cu u f }

def State.ch (s : State) (k : Nat) : Chan := tab s.dma.ch Chan.reset k

def State.cu (s : State) (u : Nat) : CheckUnit :=
  tab s.dma.cu { poly := 0, fold := false, run := 0, done := false, busy := false, poison := false, owner := 0 } u

/-- A decoded DMA instruction (table "DMA instruction encodings"). -/
inductive DmaOp where
  | move (advSrc advDst : Bool) (srcSpace dstSpace src dst len : Nat)
  | loop (count back : Nat)
  | wait (kind event ticks : Nat)
  | signal (irq half full ev : Bool) (event : Nat)
  | scan (init final adv : Bool) (unit space addr len : Nat)
  | jump (target : Nat)
  | done
  | nop
  deriving DecidableEq, Repr

/-- `o` where no reserved or illegal field stands in the way. -/
def legal (ok : Bool) (o : DmaOp) : Option DmaOp := if ok then some o else none

/-- LEN 0 means 1,048,576. -/
def dmaLen (n : Nat) : Nat := if n = 0 then 1048576 else n

/-- The instruction of two words; none for an illegal one (R473). -/
def decodeDma (w : Nat × Nat) : Option DmaOp :=
  let a := w.1
  let b := w.2
  match field a 7 0 with
  | 0x01 => legal (field a 11 10 = 0)
      (.move (bit a 8) (bit a 9) (field a 15 12) (field a 19 16) (field a 63 20) (field b 43 0) (dmaLen (field b 63 44)))
  | 0x02 => legal (field a 15 8 = 0 && field a 63 48 = 0 && field b 63 14 = 0 && field a 47 16 != 0 && field b 13 0 != 0)
      (.loop (field a 47 16) (field b 13 0))
  | 0x03 => legal (field a 63 24 = 0 && decide (field a 15 8 ≤ 2) && decide (field a 23 16 ≤ 28) &&
        (field a 15 8 != 1 || (field b 63 32 = 0 && field b 31 0 != 0)))
      (.wait (field a 15 8) (field a 23 16) (field b 31 0))
  | 0x04 => legal (field a 15 12 = 0 && decide (field a 23 16 ≤ 15) && field a 63 24 = 0 && b = 0)
      (.signal (bit a 8) (bit a 9) (bit a 10) (bit a 11) (field a 23 16))
  | 0x05 => legal (field a 11 11 = 0 && decide (field a 15 12 ≤ 3) && field b 63 20 = 0)
      (.scan (bit a 8) (bit a 9) (bit a 10) (field a 15 12) (field a 19 16) (field a 63 20) (dmaLen (field b 19 0)))
  | 0x06 => legal (field a 63 8 = 0 && field b 63 14 = 0) (.jump (field b 13 0))
  | 0x07 => legal (field a 63 8 = 0) .done
  | 0x0F => legal (field a 63 8 = 0) .nop
  | _ => none

/-- LEN as it is written: 0 for 1,048,576. -/
def lenField (n : Nat) : Nat := n % 1048576

/-- The two words of an instruction, with 0 in reserved, unused and ignored fields (table "DMA instruction encodings"). -/
def encodeDma (o : DmaOp) : Nat × Nat :=
  match o with
  | .move x y ss ds src dst len =>
    (0x01 + b2n x * 2 ^ 8 + b2n y * 2 ^ 9 + ss * 2 ^ 12 + ds * 2 ^ 16 + src * 2 ^ 20, dst + lenField len * 2 ^ 44)
  | .loop n back => (0x02 + n * 2 ^ 16, back)
  | .wait k e t => (0x03 + k * 2 ^ 8 + e * 2 ^ 16, t)
  | .signal i h f v e => (0x04 + b2n i * 2 ^ 8 + b2n h * 2 ^ 9 + b2n f * 2 ^ 10 + b2n v * 2 ^ 11 + e * 2 ^ 16, 0)
  | .scan i f v u sp a len =>
    (0x05 + b2n i * 2 ^ 8 + b2n f * 2 ^ 9 + b2n v * 2 ^ 10 + u * 2 ^ 12 + sp * 2 ^ 16 + a * 2 ^ 20, lenField len)
  | .jump t => (0x06, t)
  | .done => (0x07, 0)
  | .nop => (0x0F, 0)

/-- Fields of a DMA instruction within their ranges (R473). -/
def DmaOp.wf (o : DmaOp) : Bool :=
  match o with
  | .move _ _ ss ds src dst len =>
    decide (ss < 16 ∧ ds < 16 ∧ src < 2 ^ 44 ∧ dst < 2 ^ 44 ∧ 1 ≤ len ∧ len ≤ 1048576)
  | .loop n back => decide (1 ≤ n ∧ n < 2 ^ 32 ∧ 1 ≤ back ∧ back < 16384)
  | .wait k e t => decide (k ≤ 2 ∧ e ≤ 28 ∧ t < 2 ^ 32 ∧ (k = 1 → 1 ≤ t))
  | .signal _ _ _ _ e => decide (e ≤ 15)
  | .scan _ _ _ u sp a len => decide (u ≤ 3 ∧ sp < 16 ∧ a < 2 ^ 44 ∧ 1 ≤ len ∧ len ≤ 1048576)
  | .jump t => decide (t < 16384)
  | .done | .nop => true

/-- Word `i` of the program RAM; the two words of a slot. -/
def ramWord (s : State) (i : Nat) : Nat := sget 0 s.dma.ram i
def dmaSlot (s : State) (k : Nat) : Nat × Nat := (ramWord s (2 * k), ramWord s (2 * k + 1))

/-- The slot's line is uncorrectable (R481; log 57). -/
def slotBad (s : State) (k : Nat) : Bool := s.dma.ramBad.contains (2 * k) || s.dma.ramBad.contains (2 * k + 1)

/-- Words of the instruction at hand: those read already, or the slot's. -/
def chanWords (s : State) (c : Chan) : Nat × Nat := c.cur.getD (dmaSlot s c.pc)

/-- The DMA engine runs: PD1 operates, in every engine state except DOWN and BOOT. -/
def dmaOn (s : State) : Bool := collectorOn s && s.eng.state != .down && s.eng.state != .boot

/-- The slot after `n`; that of the last slot, and of a jump below slot 0, the manual leaves open (log 56). -/
def slotAt (s : State) (n : Int) : Nat := if 0 ≤ n ∧ n < 16384 then n.toNat else Config.freeNat s.freeCtr % 16384

/-- A channel at rest, between instructions. -/
def Chan.rest (c : Chan) : Chan :=
  { c with cur := none, work := none, issued := false, hostOut := none, failed := none, stopReq := false, unitWait := none, seen := false }

/-- An instruction has completed (R474, R479): the channel goes on with slot `next`, or stops (log 58). -/
def dmaBoundary (k : Nat) (next : Int) (s : State) : State :=
  let n := slotAt s next
  s.useFree.atCh k fun c => { c.rest with pc := n, state := if c.stopReq then .stopped else .running }

/-- The channel halts at the boundary of a failed instruction (R480, R481). -/
def dmaHalt (k : Nat) (e : DmaErr) (addr space : Nat) (s : State) : State :=
  let s := s.atCh k fun c =>
    { c.rest with state := .halted, errPc := c.pc, errKind := e, errAddr := addr, errSpace := space }
  raise (if e = .poison then 0x1F6 else 0x1F5) s

/-- A failure without a beat: which address CHn_ERR_ADDR takes is open (log 56). -/
def dmaHaltOpen (k : Nat) (e : DmaErr) (s : State) : State :=
  dmaHalt k e (Config.freeNat s.freeCtr % 2 ^ 44) (Config.freeNat (s.freeCtr + 1) % 16) s.useFree.useFree

/-- What a command does that executes the instruction of opcode `opc` at channel `k`: nothing where the channel stands
before another one, and a failure where the words are illegal. -/
def dmaExec (k : Nat) (opc : Nat) (f : DmaOp → State → State) (s : State) : State :=
  let c := s.ch k
  let w := chanWords s c
  if !dmaOn s || c.state != .running || c.issued || c.work.isSome || field w.1 7 0 != opc || (c.cur.isNone && slotBad s c.pc) then s
  else match decodeDma w with
    | some o => f o (s.atCh k fun c => { c with cur := some w })
    | none => dmaHaltOpen k .illegal s

/-- Event `e` of the table "Events" occurs: the WAITs in progress for it have seen it (R476). -/
def Chan.note (e : Nat) (c : Chan) : Chan :=
  match c.state, (c.cur.bind decodeDma) with
  | .waiting, some (.wait 2 x _) => { c with seen := c.seen || x = e }
  | _, _ => c

def dmaEvent (e : Nat) (s : State) : State := s.modDma fun d => { d with ch := d.ch.map (Chan.note e) }

/-- i of R475: backward jumps of the innermost active loop. -/
def Chan.jumps (c : Chan) : Nat := match c.loops with | f :: _ => f.jumps | [] => 0

/-- A LOOP's frame is on top of the stack. -/
def loopOnTop (c : Chan) : Bool := match c.loops with | f :: _ => f.slot = c.pc | [] => false

/-- A LOOP on top of the stack (R475). -/
def loopTop (k back : Nat) (s : State) : State :=
  let c := s.ch k
  match c.loops with
  | [] => s
  | f :: r =>
    if f.remain = 0 then dmaBoundary k (c.pc + 1 : Nat) (s.atCh k fun c => { c with loops := r })
    else
      let f := { f with remain := f.remain - 1, jumps := f.jumps + 1 }
      dmaBoundary k ((c.pc : Int) - back) (s.atCh k fun c => { c with loops := f :: r })

/-- LOOP (R475). -/
def dmaLoop (k count back : Nat) (s : State) : State :=
  let c := s.ch k
  if loopOnTop c then loopTop k back s
  else if 4 ≤ c.loops.length then dmaHaltOpen k .loopOverflow s
  else loopTop k back (s.atCh k fun c => { c with loops := { slot := c.pc, remain := count - 1, jumps := 0 } :: c.loops })

/-- SIGNAL (R477). -/
def dmaSignal (k : Nat) (irq half full ev : Bool) (event : Nat) (s : State) : State :=
  let c := s.ch k
  let s := s.atCh k fun c => { c with sig := c.sig || irq, half := c.half || half, full := c.full || full }
  let o := 0xE014 + 0x40 * k
  let s := [(irq, 4), (half, 5), (full, 6)].foldl (fun s x => if x.1 then setsBit o x.2 s else s) s
  let s := if ev then s.modDma fun d => { d with flags := d.flags ||| (1#16 <<< event) } else s
  let s := if irq && c.irqEn then sendMsix c.vector s else s
  dmaBoundary k (c.pc + 1 : Nat) s

/-- A lower channel waits for the same software event (R476). -/
def lowerWaits (s : State) (k event : Nat) : Bool :=
  (List.range k).any fun j =>
    let c := s.ch j
    c.state = .waiting && (match c.cur.bind decodeDma with | some (.wait 2 e _) => e = event | _ => false)

/-- What the WAIT in progress waits for has come, with what its end clears (R476). -/
def waitDone (k kind event ticks : Nat) (s : State) : Option State :=
  let c := s.ch k
  if kind = 0 then (if c.dbPend then some (s.atCh k fun c => { c with dbPend := false }) else none)
  else if kind = 1 then (if c.waitStart + ticks ≤ s.eng.sincePor then some s else none)
  else if event < 16 then
    (if s.dma.flags.getLsbD event && !lowerWaits s k event then
      some (s.modDma fun d => { d with flags := d.flags &&& ~~~(1#16 <<< event) }) else none)
  else if c.seen then some s else none

/-- Bytes of an address space (log 54). -/
def spaceSize (sp : Nat) : Nat :=
  match sp with
  | 0 => 2 ^ 44 | 1 => 2 ^ 33 | 2 => 0x80000 | 3 => 0x20000 | 4 => 0x40000 | _ => 0

/-- Bytes of the unit that an access must take whole (R470; log 54). -/
def spaceUnit (sp : Nat) : Nat := match sp with | 2 => 8 | 3 => 4 | _ => 1

/-- The page holds committed or reserved data, in a job's run or as the destination of a migration (R471; log 62). -/
def pageHeld (s : State) (p : Nat) : Bool := s.heldPages.contains p || (s.store.migActive && s.store.migDest = p)

/-- A beat of `n` bytes lies within the ranges and rights of its space (R470, R471; log 62). -/
def beatOk (s : State) (write : Bool) (sp a n : Nat) : Bool :=
  decide (a + n ≤ spaceSize sp) &&
  (match sp with
   | 1 => !s.store.retired.contains (pageOf a) && !(write && s.eng.state != .service && pageHeld s (pageOf a))
   | 2 | 3 => !write || (s.eng.state = .service && s.law.stop)
   | _ => true)

/-- Byte `a` of the law engine's memories and of the program RAM. -/
def byteOf (w i : Nat) : Byte := BitVec.ofNat 8 (w >>> (8 * i))
def lawByte (s : State) (a : Nat) : Byte := byteOf (progWord s (a / 8)) (a % 8)
def dataByte (s : State) (a : Nat) : Byte :=
  let w := dget s (a / 4)
  if w.bad then 0 else byteOf w.v.toNat (a % 4)
def ramByte (s : State) (a : Nat) : Byte := byteOf (ramWord s (a / 8)) (a % 8)

/-- Word `w` with one byte replaced. -/
def setByte (w i : Nat) (b : Byte) : Nat := w - ((w >>> (8 * i)) % 256) * 2 ^ (8 * i) + b.toNat * 2 ^ (8 * i)

/-- A list with entry `i` set, longer by zeros where it ends before. -/
def putLong (l : List Nat) (i w : Nat) : List Nat :=
  if i < l.length then l.set i w else l ++ List.replicate (i - l.length) 0 ++ [w]

/-- A mark set or taken out of a rising list. -/
def markNat (b : Bool) (i : Nat) (l : List Nat) : List Nat := if b then insertNat i l else l.filter (· != i)

/-- The mark of a word as its byte `i` is written: its first byte starts the check bits afresh, and a later one keeps what an
earlier burst of the word marked (R472, R481). -/
def markAt (ep was : Bool) (i : Nat) : Bool := ep || (was && i != 0)

/-- A byte into the law engine's program RAM (R472, R481). -/
def putLawByte (ep : Bool) (a : Nat) (b : Byte) (s : State) : State :=
  let w := setByte (progWord s (a / 8)) (a % 8) b
  s.modLaw fun l => { l with prog := putLong l.prog (a / 8) w,
                             progBad := markNat (markAt ep (l.progBad.contains (a / 8)) (a % 8)) (a / 8) l.progBad }

/-- A byte into the data RAM; with its last byte a word that is NaN or infinite becomes +0 (R472). -/
def putDataByte (ep : Bool) (a : Nat) (b : Byte) (s : State) : State :=
  let bad := markAt ep (dget s (a / 4)).bad (a % 4)
  let v : F32 := BitVec.ofNat 32 (setByte (dget s (a / 4)).v.toNat (a % 4) b)
  let v := if a % 4 = 3 && !Fp.finite v then 0 else v
  noteQuantities (s.modLaw fun l => dputL l (a / 4) { v := v, stale := false, bad := bad })

/-- A 64-bit word of the program RAM (log 57). -/
def putRamWord (ep : Bool) (i w : Nat) (s : State) : State :=
  s.modDma fun d => { d with ram := sput 0 d.ram i w, ramBad := markNat ep i d.ramBad }

/-- A byte into the program RAM. A word that the access takes whole starts its check bits afresh; one that it takes in part
keeps its mark (log 57). -/
def putRamByte (lo hi : Nat) (ep : Bool) (a : Nat) (b : Byte) (s : State) : State :=
  let i := a / 8
  let whole := decide (lo ≤ 8 * i ∧ 8 * i + 8 ≤ hi)
  let was := s.dma.ramBad.contains i
  putRamWord (ep || (was && (!whole || a % 8 != 0))) i (setByte (ramWord s i) (a % 8) b) s

/-- Bytes of a beat into a space. -/
def putBytes (f : Nat → Byte → State → State) : Nat → List Byte → State → State
  | _, [], s => s
  | a, b :: r, s => putBytes f (a + 1) r (f a b s)

/-- A beat of an access of bytes `lo` to `hi` − 1 is written. -/
def writeBeat (lo hi sp a : Nat) (ep : Bool) (bs : List Byte) (s : State) : State :=
  match sp with
  | 0 => s.modHost fun h => { h with out := h.out ++ [{ addr := a, data := bs, ep := ep }] }
  | 1 => storePut ep a bs s
  | 2 => putBytes (putLawByte ep) a bs s
  | 3 => putBytes (putDataByte ep) a bs s
  | _ => putBytes (putRamByte lo hi ep) a bs s

/-- Words of 8 bytes of the 64-byte line at `a` that an access of bytes `lo` to `hi` − 1 touches: the poison of a line is
that of all of them, whichever burst takes them (R481). -/
def ramLineWords (lo hi a : Nat) : List Nat :=
  (List.range 8).map (8 * (a / 64) + ·) |>.filter fun w => decide (lo < 8 * w + 8 ∧ 8 * w < hi)

/-- A MOVE or SCAN under way: the state, its failure, the store line read last with its poison, and the first host burst
outstanding. -/
structure Beats where
  st : State
  fail : Option (DmaErr × Nat × Nat)
  line : Option (Nat × Bool)
  out : Option Nat
  deriving DecidableEq, Repr

/-- Uncorrectable data words that a read meets (R325). -/
def dmaDataUe (a n : Nat) (s : State) : State :=
  let bad := ((List.range ((n + 3) / 4)).filter fun i => (dget s (a / 4 + i)).bad).length
  iterate (fun s => raise 0x103 (s.modLaw fun l => { l with dataUe := sat 8 (l.dataUe + 1) })) bad s

/-- Bytes of a poisoned store line that is not stored poison are open. -/
def openBytes (n : Nat) (s : State) : List Byte := (List.range n).map fun i => Config.freeByte (s.freeCtr + i)

/-- A store line is consumed: once, though two beats may take it (R109). A write between the two leaves the merge buffer
first (R106). -/
def consumeLine (ecc : List (Nat × EccRead)) (l : Nat) (b : Beats) : Beats :=
  if b.line.any (fun x => x.1 = l) then
    match mergeOf b.st l with
    | some k => { b with st := flushEntry k (eccOf ecc l) b.st }
    | none => b
  else
    let (s, bad) := consume .dma ecc [l] b.st
    { b with st := s, line := some (l, !bad.isEmpty) }

/-- Bytes of the store: free ones while its domain is off, or in an uncorrectable line. -/
def storeBytes (a n : Nat) (b : Beats) : Beats × List Byte × Bool :=
  let bad := b.line.any (·.2) || isPoison b.st (lineOf a)
  if !storeOn b.st || (bad && !isPoison b.st (lineOf a)) then
    ({ b with st := b.st.modFreeCtr (· + n) }, openBytes n b.st, bad)
  else (b, memRead b.st.store.mem a n, bad)

/-- The read of a line of space 2 or 4 is uncorrectable (R481). -/
def freshUe (ecc : List (Nat × EccRead)) (a : Nat) : Bool :=
  match eccOf ecc (lineOf a) with | .uncorrectable _ _ _ _ => true | _ => false

/-- Bytes of space 2 or 4, with the poison of their line: open ones where the read is uncorrectable. -/
def ramBytes (ecc : List (Nat × EccRead)) (bad : List Nat) (lo hi a n : Nat) (f : Nat → Byte) (b : Beats) :
    Beats × List Byte × Bool :=
  if freshUe ecc a then ({ b with st := b.st.modFreeCtr (· + n) }, openBytes n b.st, true)
  else (b, (List.range n).map fun i => f (a + i), (ramLineWords lo hi a).any (bad.contains ·))

/-- A beat is read: its bytes, and whether their line is poisoned (R470, R472, R481); the access takes `len` bytes from
`lo`. -/
def readBeat (h : DmaHost) (ecc : List (Nat × EccRead)) (lo len sp a off n : Nat) (b : Beats) : Beats × List Byte × Bool :=
  match sp with
  | 0 => (b, (h.bytes.drop off).take n, h.poisoned.contains (lineOf a))
  | 1 => storeBytes a n (if storeOn b.st then consumeLine ecc (lineOf a) b else b)
  | 2 => ramBytes ecc b.st.law.progBad lo (lo + len) a n (lawByte b.st) b
  | 3 => ({ b with st := dmaDataUe a n b.st }, (List.range n).map fun i => dataByte b.st (a + i), false)
  | _ => ramBytes ecc b.st.dma.ramBad lo (lo + len) a n (ramByte b.st) b

/-- The host has not answered for a beat (log 61). -/
def beatMissing (h : DmaHost) (sp a off n : Nat) : Bool :=
  sp = 0 && (h.missing.contains (lineOf a) || decide (h.bytes.length < off + n))

/-- Beats of an access, by offset and length: at most 64 bytes, within 64-byte blocks of both addresses (R478; log 55). -/
def beats (src dst len : Nat) : Nat → Nat → List (Nat × Nat)
  | 0, _ => []
  | fuel + 1, off =>
    if len ≤ off then []
    else
      let n := min (len - off) (min (64 - (src + off) % 64) (64 - (dst + off) % 64))
      (off, n) :: beats src dst len fuel (off + n)

/-- Every address and length of an access fits the unit of its space (R470). -/
def wholeOk (sp a len : Nat) : Bool := a % spaceUnit sp = 0 && len % spaceUnit sp = 0

/-- One beat of a MOVE (logs 55, 61). -/
def moveBeat (h : DmaHost) (ecc : List (Nat × EccRead)) (carry : Bool) (ss src ds dst len : Nat) (b : Beats) (x : Nat × Nat) : Beats :=
  let a := src + x.1
  let d := dst + x.1
  if b.fail.isSome then b
  else if !beatOk b.st false ss a x.2 || !wholeOk ss src len then { b with fail := some (.address, a, ss) }
  else if !beatOk b.st true ds d x.2 || !wholeOk ds dst len then { b with fail := some (.address, d, ds) }
  else if ds = 1 && !storeOn b.st then { b with fail := some (.refusedWrite, d, ds) }
  else if beatMissing h ss a x.1 x.2 then { b with out := b.out.or (some a) }
  else
    let (b, bs, bad) := readBeat h ecc src len ss a x.1 x.2 b
    if bad && !carry then { b with fail := some (.poison, a, ss) }
    else { b with st := writeBeat dst (dst + len) ds d bad bs b.st }

/-- Algorithm of POLY. -/
def polyOf (n : Nat) : Poly := match n with | 0 => .crc32c | 1 => .crc32 | 2 => .ccitt | _ => .kermit

/-- CUu_RUN as it stands in its POLY's width (R485). -/
def CheckUnit.crcReg (u : CheckUnit) : Nat := u.run % 2 ^ (polyOf u.poly).width

/-- The final value of the register. -/
def CheckUnit.value (u : CheckUnit) : Nat := if u.done then u.crcReg ^^^ (polyOf u.poly).final else u.crcReg

/-- Bytes fed to a unit (R484). -/
def feedUnit (addr : Nat) (bs : List Byte) (u : CheckUnit) : CheckUnit :=
  let bs := if u.fold then toLE 8 addr ++ bs else bs
  { u with run := bs.foldl (polyOf u.poly).feed u.crcReg }

/-- One beat of a SCAN; nothing is fed past a burst that is outstanding. -/
def scanBeat (h : DmaHost) (ecc : List (Nat × EccRead)) (carry : Bool) (u sp addr len : Nat) (b : Beats) (x : Nat × Nat) : Beats :=
  let a := addr + x.1
  if b.fail.isSome || b.out.isSome then b
  else if !beatOk b.st false sp a x.2 || !wholeOk sp addr len then { b with fail := some (.address, a, sp) }
  else if beatMissing h sp a x.1 x.2 then { b with out := some a }
  else
    let (b, bs, bad) := readBeat h ecc addr len sp a x.1 x.2 b
    let b := if bad then { b with st := setsBit (0xE80C + 0x10 * u) 2 (b.st.atCu u fun y => { y with poison := true }) } else b
    if bad && !carry then { b with fail := some (.poison, a, sp) }
    else { b with st := b.st.atCu u (feedUnit a bs) }

/-- A SCAN that waits for unit `u` at a lower channel (R484). -/
def lowerScan (s : State) (k u : Nat) : Bool := (List.range k).any fun j => (s.ch j).unitWait = some u

/-- ADDR or DST as R475 advances it. -/
def advanced (adv : Bool) (c : Chan) (a len : Nat) : Nat := if adv then a + c.jumps * len else a

/-- Up to `m` bursts of the instruction in progress at channel `k` are served (R478): with the last one, or a failure, all are
issued, and it waits for its completions. -/
def dmaBursts (k m : Nat) (xs : List (Nat × Nat)) (w : DmaWork) (f : Beats → Nat × Nat → Beats) (s : State) : State :=
  let c := s.ch k
  let b := (xs.take m).foldl f { st := s, fail := c.failed, line := w.line, out := c.hostOut }
  b.st.atCh k fun c =>
    { c with hostOut := b.out, failed := b.fail, issued := b.fail.isSome || (xs.drop m).isEmpty
             work := if b.fail.isSome then none else (xs.drop m).head?.map fun x => { w with off := x.1, line := b.line } }

/-- Channel `k` serves up to `m` bursts of its MOVE or SCAN. -/
def dmaRun (k m : Nat) (s : State) : State :=
  let c := s.ch k
  match c.work, c.cur.bind decodeDma with
  | some w, some (.move x y ss ds src dst len) =>
    let src := advanced x c src len
    let dst := advanced y c dst len
    dmaBursts k m (beats src dst len len w.off) w (moveBeat w.host w.ecc c.poison ss src ds dst len) s
  | some w, some (.scan _ _ v u sp addr len) =>
    let addr := advanced v c addr len
    dmaBursts k m (beats addr addr len len w.off) w (scanBeat w.host w.ecc c.poison u sp addr len) s
  | _, _ => s

/-- Bytes of a MOVE or SCAN; 0 for every other instruction. -/
def DmaOp.burstLen (o : DmaOp) : Nat :=
  match o with | .move _ _ _ _ _ _ len => len | .scan _ _ _ _ _ _ len => len | _ => 0

/-- Bytes of the MOVE or SCAN at hand at channel `k`; 0 for a channel without work (R478): at rest, before another
instruction, waiting for its unit, or with every burst issued. -/
def dmaWorkOf (s : State) (k : Nat) : Nat :=
  let c := s.ch k
  if c.state != .running || c.issued || c.unitWait.isSome || (c.cur.isNone && slotBad s c.pc) then 0
  else match decodeDma (chanWords s c) with | some o => o.burstLen | none => 0

/-- The channel with work that the round robin serves next (R478; log 55). -/
def dmaNext (s : State) : Option Nat :=
  ((List.range 16).map fun i => (s.dma.turn + i) % 16).find? fun k => decide (0 < dmaWorkOf s k)

/-- No channel but `k` has work. -/
def dmaAlone (s : State) (k : Nat) : Bool := (List.range 16).all fun j => j = k || dmaWorkOf s j = 0

/-- Channels with work are served one burst at a time in round-robin order (R478), as far as the operands of the channel next
in turn are known; a channel that is alone is served to its end. -/
def dmaRound : Nat → State → State
  | 0, s => s
  | fuel + 1, s =>
    match dmaNext s with
    | none => s
    | some k =>
      if (s.ch k).work.isNone then s
      else dmaRound fuel ((dmaRun k (if dmaAlone s k then 1048576 else 1) s).modDma fun d => { d with turn := (k + 1) % 16 })

/-- The bursts that can be served now: no more than the channels have bytes to move. -/
def dmaServe (s : State) : State := dmaRound (((List.range 16).map (dmaWorkOf s)).sum + 1) s

/-- The bursts of channel `k` join the round. -/
def dmaBegin (k : Nat) (h : DmaHost) (ecc : List (Nat × EccRead)) (s : State) : State :=
  dmaServe (s.atCh k fun c => { c with unitWait := none, work := some { host := h, ecc := ecc, off := 0, line := none } })

/-- SCAN (R484): it waits while its unit is busy, or a lower channel waits for it. -/
def dmaScan (k : Nat) (h : DmaHost) (ecc : List (Nat × EccRead)) (init : Bool) (u : Nat) (s : State) : State :=
  if (s.cu u).busy || lowerScan s k u then dmaServe (s.atCh k fun c => { c with unitWait := some u })
  else
    let s := s.atCu u fun x =>
      { x with busy := true, owner := k, run := if init then (polyOf x.poly).init else x.run, done := x.done && !init }
    dmaBegin k h ecc s

/-- A SCAN ends: its unit is free, and with FINAL it is DONE (R484). -/
def scanEnds (ok : Bool) (o : Option DmaOp) (s : State) : State :=
  match o with
  | some (.scan _ final _ u _ _ _) =>
    let s := s.atCu u fun x => { x with busy := false, done := x.done || (ok && final) }
    if ok && final then dmaEvent (25 + u) s else s
  | _ => s

/-- The instruction in progress has completed (R474, R480). -/
def dmaFinish (k : Nat) (fail : Option (DmaErr × Nat × Nat)) (s : State) : State :=
  let c := s.ch k
  let s := scanEnds fail.isNone (c.cur.bind decodeDma) s
  match fail with
  | some (e, a, sp) => dmaHalt k e a sp s
  | none => dmaBoundary k (c.pc + 1 : Nat) s

end Sys2Proof.Machine
end

