-- ==== Sys2Proof/Machine/Pixels.lean ====
section
/-! DEFINITION. The pixel chain: from the tone codes of a facet's lines to slot words (R220 to R232, R246, R251). -/

namespace Sys2Proof.Machine

open Sys2Proof.Bits

/-- A pulse: power, start from the pixel's place and width, both in 1/64 pixel. Width 0 is off. -/
structure Pulse where
  power : Nat
  start : Int
  width : Nat
  deriving DecidableEq, Repr

/-- Welt factor of a ramp position on a tone code (R232). -/
def weltScale (l : Img) (n t i : Nat) : Nat := (t * l.corB n (440 + i) + 127) / 255

/-- Step 2: welt blend of the tone code of pixel `p` (R232). -/
def weltBlend (l : Img) (n width p t : Nat) : Nat :=
  let left := if p < l.corH n 20 then weltScale l n t p else t
  let right := if width - 1 - p < l.corH n 22 then weltScale l n t (width - 1 - p) else t
  min left right

/-- Step 3: the tone entry's power, start and width (R222, R223). -/
def tonePulse (e : Nat) : Pulse := { power := field e 14 12, start := (field e 11 6 : Nat), width := field e 5 0 }

/-- Step 4: emitter trim of a pulse that is on (R224). -/
def trimPulse (l : Img) (n e : Nat) (x : Pulse) : Pulse :=
  if x.width = 0 then x
  else
    let p := signed 8 (l.corB n (104 + 2 * e))
    let w := signed 8 (l.corB n (105 + 2 * e))
    { x with power := (clampI 0 7 (x.power + p)).toNat, width := (max 0 (x.width + w)).toNat }

/-- Addition of step 5 from one missing pixel of tone code `t`; `both` when both neighbours are usable (R225). -/
def mlcAdd (l : Img) (n t : Nat) (both : Bool) (x : Pulse) : Pulse :=
  if t = 0 then x
  else
    let base := (if both then 376 else 408) + 2 * t
    let dp := l.corB n base
    let dw := l.corB n (base + 1)
    let y : Pulse := if x.width = 0 then { power := 0, start := 32, width := 0 } else x
    { power := min 7 (y.power + dp), start := y.start - ((dw / 2 : Nat) : Int), width := y.width + dw }

/-- Step 6: derating (R251). -/
def deratePulse (l : Img) (n : Nat) (on : Bool) (x : Pulse) : Pulse :=
  if on then { x with power := x.power - l.corB n 14 } else x

/-- LIN_n at grid pixel `g` (R228). -/
def linearity (l : Img) (n : Nat) (g : Int) : Int :=
  let g := clampI 0 16383 g
  let i := (g / 256).toNat
  let r := g % 256
  let at' (k : Nat) : Int := l.corS n (176 + 2 * k)
  if 63 ≤ i then at' 63 else at' i + (at' (i + 1) - at' i) * r / 256

/-- What places a line's pulses: the last, the emitter, CROSS_n, XREG_n and CROSS_f (R227). -/
structure Placement where
  left : Nat
  emitter : Nat
  offset : Int
  deriving DecidableEq, Repr

/-- Step 7: the place of pixel `p` in 1/64 pixel (R227). -/
def place227 (l : Img) (n : Nat) (x : Placement) (p : Nat) : Int :=
  64 * ((x.left + p : Nat) : Int) + x.offset + l.corS n (32 + 2 * x.emitter) + linearity l n ((x.left + p : Nat) : Int)

/-- The part of a pulse from `a` to `b` that lies in the grid (R229). -/
def clipGrid (a b : Int) : Option (Nat × Nat) :=
  let a := max 0 a
  let b := min (64 * 16384) b
  if a < b then some (a.toNat, b.toNat) else none

/-- A word under construction: slot, start, end within the slot, power, and whether a pulse continues from it. -/
structure SlotPart where
  slot : Nat
  first : Nat
  last : Nat
  power : Nat
  join : Bool
  deriving DecidableEq, Repr

/-- Parts of a pulse from `a` to `b` by slots; `fuel` counts slots (R230). -/
def slotParts (power : Nat) : Nat → Nat → Nat → List SlotPart
  | 0, _, _ => []
  | fuel + 1, a, b =>
    let s := a / 64
    let stop := 64 * (s + 1)
    if b < stop then [{ slot := s, first := a % 64, last := b - 64 * s, power := power, join := false }]
    else if b = stop then
      -- a part that fills its slot to the end is written with join (R230)
      [{ slot := s, first := a % 64, last := 64, power := power, join := a % 64 = 0 }]
    else { slot := s, first := a % 64, last := 64, power := power, join := true } :: slotParts power fuel stop b

/-- Two parts of one slot (R230). -/
def SlotPart.merge (x y : SlotPart) : SlotPart :=
  { slot := x.slot, first := min x.first y.first, last := max x.last y.last, power := max x.power y.power,
    join := x.join || y.join }

/-- A part into a list in slot order. -/
def insertPart (x : SlotPart) : List SlotPart → List SlotPart
  | [] => [x]
  | y :: r => if x.slot < y.slot then x :: y :: r else if x.slot = y.slot then x.merge y :: r else y :: insertPart x r

/-- The slot word; a slot that its parts fill is written start 0, join 1 (R222, R230). -/
def SlotPart.word (x : SlotPart) : Nat :=
  let full := x.first = 0 && x.last = 64
  let join := x.join || full
  b2n join * 32768 + x.power * 4096 + x.first * 64 + if join then 0 else x.last - x.first

/-- Words in slot order: a join from the slot before forces start 0 (R230). -/
def slotWords (prev : Option Nat) : List SlotPart → List (Nat × Nat)
  | [] => []
  | x :: r =>
    let x := if prev = some x.slot then { x with first := 0 } else x
    let w := x.word
    (x.slot, w) :: slotWords (if 32768 ≤ w then some (x.slot + 1) else none) r

/-- Step 8 over every pulse of a line, each given by its place. -/
def lineWords (ps : List (Int × Pulse)) : List (Nat × Nat) :=
  slotWords none (ps.foldr (fun x acc =>
    if x.2.width = 0 then acc
    else match clipGrid (x.1 + x.2.start) (x.1 + x.2.start + x.2.width) with
      | some (a, b) => (slotParts x.2.power 6 a b).foldr insertPart acc
      | none => acc) [])

/-- A slot word is not off. -/
def wordOn (w : Nat) : Bool := decide (32768 ≤ w) || decide (0 < w % 64)

/-- A line of a facet as the chain takes it: its tone codes after step 2; none for a slot without a line that is on. -/
abbrev ToneLine := Option (List Nat)

/-- Emitter of slot `b` is dead (R225, R246). -/
def slotDead (f : FacetNow) (b : Nat) : Bool := f.dead.getLsbD (f.w + b)

/-- Slot `b` is a usable neighbour: within B0 to B31, alive, its line not blanked (R225). -/
def usable (f : FacetNow) (tones : List ToneLine) (b : Int) : Bool :=
  decide (0 ≤ b ∧ b < 32) && !slotDead f b.toNat && (tones.getD b.toNat none).isSome

/-- Additions that slot `b` takes from a dead slot `d` at pixel `p` (R225). -/
def mlcFrom (l : Img) (n : Nat) (f : FacetNow) (tones : List ToneLine) (d : Int) (p : Nat) (x : Pulse) : Pulse :=
  if decide (0 ≤ d ∧ d < 32) && slotDead f d.toNat then
    match tones.getD d.toNat none with
    | some ts => mlcAdd l n (ts.getD p 0) (usable f tones (d - 1) && usable f tones (d + 1)) x
    | none => x
  else x

/-- Steps 3 to 6 of pixel `p` in slot `b`. -/
def pixelPulse (l : Img) (n : Nat) (f : FacetNow) (tones : List ToneLine) (b p t : Nat) : Pulse :=
  let tone := if b < f.split then f.tone0 else f.tone1
  let x := trimPulse l n (f.w + b) (tonePulse (tab tone 0 t))
  let x := mlcFrom l n f tones (b + 1) p (mlcFrom l n f tones ((b : Int) - 1) p x)
  deratePulse l n (if b < f.split then f.derate0 else f.derate1) x

/-- Words of slot `b` (R221). Off words are not listed. -/
def beamWords (l : Img) (n last : Nat) (f : FacetNow) (crossF : Int) (tones : List ToneLine) (b : Nat) :
    List (Nat × Nat) :=
  match tones.getD b none with
  | none => []
  | some ts =>
    if slotDead f b then []
    else
      let x : Placement := { left := l.left last, emitter := f.w + b, offset := l.lastCross last n + f.xreg + crossF }
      lineWords (ts.zipIdx.map fun y => (place227 l n x y.2, pixelPulse l n f tones b y.2 y.1))

/-- Tone codes of a slot's line after step 2. -/
def slotTones (l : Img) (n last : Nat) (band : List BandLine) (x : Option SlotLine) : ToneLine :=
  match x with
  | none => none
  | some y =>
    if y.off.isSome then none
    else (band.find? fun z => z.number = y.number && z.line = y.line).map fun z =>
      (unpack z.pixels).zipIdx.map fun t => weltBlend l n (l.width last) t.2 t.1

/-- Words of every slot of a facet: none for a facet sent blank. -/
def facetWords (l : Img) (n last : Nat) (f : FacetNow) (crossF : Int) (band : List BandLine) : List (List (Nat × Nat)) :=
  if f.blank then []
  else
    let tones := f.lines.map (slotTones l n last band)
    (List.range 32).map (beamWords l n last f crossF tones)

/-- Words that are not off (METER 2). -/
def wordCount (ws : List (List (Nat × Nat))) : Nat := ws.foldl (fun c b => c + (b.filter fun x => wordOn x.2).length) 0

end Sys2Proof.Machine
end

