-- ==== Sys2Proof/Machine/Forward.lean ====
section
/-! DEFINITION. The forward stream of the exposure links: blocks, lanes, spans, and when a facet's words and the blocks of its
retrace leave (R234 to R236, R243, R466). Times are in units of 8 ps. -/

namespace Sys2Proof.Machine

open Sys2Proof.Bits

/-- The model runs in history mode (R206). -/
def historyMode (s : State) : Bool := decide (9 ≤ s.img.facets)

/-- CROSS_f of the facet: 0 in history mode (R206, R210). -/
def crossOf (s : State) (f : FacetNow) (i : Nat) : Int := if historyMode s then 0 else tab f.cross 0 i

/-- A staged tone entry that takes effect with a line 0 due at tick `due`: the newest written before it (R231). -/
def toneDue (due : Nat) (x : List (Nat × Nat)) : Option Nat := (x.find? fun y => decide (y.2 < due)).map (·.1)

/-- Staged tone entries in force from the facet's line 0, unless HOLD (R231); those written at its due tick or later wait. -/
def takeTones (due : Nat) (e : Expo) : Expo :=
  let e : Expo := { e with now := e.now.map fun f => { f with toned := true } }
  if e.hold then e
  else
    let tone := Vector.ofFn fun t => (toneDue due e.toneSet[t]).getD e.tone[t]
    { e with tone := tone, toneSet := e.toneSet.map fun x => x.filter fun y => decide (due ≤ y.2)
             now := e.now.map fun f => { f with tone1 := tone } }

/-- Tick at which line 0 of the frame that a facet starts is due: slot B0 at the pulse, and each later slot a line period
later (R216, R231; log 103). -/
def FacetNow.due (f : FacetNow) : Nat := f.tick + f.split * f.tk / (32 * 262144)

/-- The words of a facet that is going out, formed anew in the slots that have not left (R221, R231). -/
def reword (n : Nat) (f : FacetNow) (o : FacetOut) (s : State) : State :=
  let ws := facetWords s.img n s.run.last f (crossOf s f (tab s.scan Scan.reset n).facet) (tab s.dec Decoder.reset n).band
  s.atExpo n fun e =>
    { e with words := (List.range 32).map fun b =>
        ((e.words.getD b []).filter fun x => decide (x.1 < o.next)) ++ (ws.getD b []).filter fun x => decide (o.next ≤ x.1) }

/-- The tone entries that the frame of the facet in progress brings into force, once (R231). -/
def frameTones (n : Nat) (s : State) : State :=
  match (tab s.expo Expo.reset n).now with
  | none => s
  | some f =>
    if f.toned then s
    else
      let s := s.atExpo n (takeTones f.due)
      match (tab s.expo Expo.reset n).now, (tab s.expo Expo.reset n).out with
      | some f, some o => if (tab s.scan Scan.reset n).tSos.isSome && !o.blank then reword n f o s else s
      | _, _ => s

/-- They come into force in the tick at which line 0 is due. -/
def toneTick (n upto : Nat) (s : State) : State :=
  if (tab s.expo Expo.reset n).now.any (fun f => !f.toned && decide (f.due ≤ upto)) then frameTones n s else s

/-- A data block (R234). -/
def FwdBlock.isData : FwdBlock → Bool
  | .data _ => true
  | _ => false

/-- Sync header: 0b01 of a data block, 0b10 of a control block (R234). -/
def FwdBlock.sync (b : FwdBlock) : Nat := if b.isData then 1 else 2

/-- Payload bytes 0 to 7 (R234, table "Forward control blocks"). -/
def FwdBlock.bytes : FwdBlock → List Byte
  | .idle => toLE 1 0x1E ++ toLE 7 0
  | .facet k w blank tG => toLE 1 0x2D ++ toLE 2 k ++ toLE 1 (w + 8 * b2n blank) ++ toLE 4 tG
  | .start t => toLE 1 0x33 ++ toLE 3 (unsigned 24 t) ++ toLE 4 0
  | .cfg a d => toLE 1 0x4B ++ toLE 2 a ++ toLE 4 d ++ toLE 1 0
  | .chk crc span => toLE 1 0x55 ++ toLE 4 crc ++ toLE 2 span ++ toLE 1 0
  | .test e i1 i2 => toLE 1 0x66 ++ toLE 1 e ++ toLE 2 i1 ++ toLE 2 i2 ++ toLE 2 0
  | .data ws => ws.flatMap (toLE 2)

/-- A block of the lane's own. -/
def Lane.put (b : FwdBlock) (l : Lane) : Lane :=
  { l with count := l.count + 1, crc := b.bytes.foldl Poly.crc32c.feed l.crc, last := b }

/-- CHK after 256 blocks: their CRC-32C and the lane's span number (R236). -/
def Lane.check (l : Lane) : Lane :=
  { Lane.reset with span := l.span + 1, last := .chk (l.crc ^^^ Poly.crc32c.final) (l.span % 65536) }

/-- START takes its DELAY as it leaves at `t`: t_0 − (t + FWD_LAT) (R235; log 78). -/
def FwdBlock.leave (t lat : Int) : FwdBlock → FwdBlock
  | .start t0 => .start (t0 - (t + lat))
  | b => b

/-- The facet's data blocks run through span `k` of a lane. -/
def SentFacet.note (i k : Nat) (x : SentFacet) : SentFacet :=
  { x with spans := updAt x.spans i fun r => some ((r.map (·.1)).getD k, k) }

/-- Lane `i` sends at `t`: CHK when it is due, else the block that waits longest, else IDLE. -/
def Expo.sendOne (t lat : Int) (e : Expo) (i : Nat) : Expo :=
  let l := tab e.lanes Lane.reset i
  if 256 ≤ l.count then { e with lanes := updAt e.lanes i Lane.check }
  else
    let b := (e.queue.headD .idle).leave t lat
    { e with queue := e.queue.drop 1, lanes := updAt e.lanes i (Lane.put b)
             sent := match e.sent with
               | x :: r => (if b.isData then x.note i l.span else x) :: r
               | [] => [] }

/-- The blocks are dealt to lanes 0, 1, 2 and 3 in turn (R234). -/
def Expo.sendRound (t lat : Int) (e : Expo) : Expo := (List.range 4).foldl (Expo.sendOne t lat) e

/-- The blocks of a tick that begins at tick `now`: round `j` of a lane's blocks begins 33 × j ÷ 8 ns after the tick, less the
time since the last block. -/
def Expo.sendTick (now : Nat) (lat : Int) (e : Expo) : Expo :=
  let all := e.phase + 80
  let e := (List.range (all / 33)).foldl
    (fun e' j => e'.sendRound (((1250 * now : Nat) : Int) + divNear (((33 * j : Nat) - (e.phase : Int)) * 125) 8) lat) e
  { e with phase := all % 33 }

/-- The word of beam `b` in slot `s`; an off word is 0 (R220). -/
def wordAt (ws : List (List (Nat × Nat))) (b s : Nat) : Nat := (((ws.getD b []).find? fun x => x.1 = s).map (·.2)).getD 0

/-- The eight data blocks of a slot: block `j` carries beams 4j to 4j + 3 (R234). -/
def slotBlocks8 (ws : List (List (Nat × Nat))) (s : Nat) : List FwdBlock :=
  (List.range 8).map fun j => .data ((List.range 4).map fun i => wordAt ws (4 * j + i) s)

/-- `x` parts of 65,536 of an interval of `t` in 1/65,536 SYS cycle, in 8 ps (R226). -/
def partOf (x t : Nat) : Int := divNear ((x * t * 625 : Nat) : Int) ((65536 * 131072 : Nat) : Int)

/-- T_G in 2⁻¹⁶ ns, from ACT and T_k (R226). -/
def slotPeriod (act tk : Nat) : Nat := (divNear ((act * tk * 5 : Nat) : Int) ((2 * 65536 * 16384 : Nat) : Int)).toNat

/-- First slot whose words need not have left by the end of tick `now`. -/
def FacetOut.due (act now : Nat) (o : FacetOut) : Nat :=
  let d := ((1250 * (now + 1) + o.lead : Nat) : Int) - o.t0
  if d < 0 then 0 else min 16384 (d.toNat * (16384 * 65536 * 131072) / max 1 (act * o.tk * 625) + 1)

/-- START can leave in tick `now` with a DELAY that its 24 bits hold: a block leaves at most 500 × 8 ps before its tick (R235). -/
def FacetOut.startDue (lat : Int) (now : Nat) (o : FacetOut) : Bool :=
  !o.started && decide (o.t0 - lat < ((1250 * now : Nat) : Int) - 500 + 16777216)

/-- Blocks wait for the lanes of a link that is up. -/
def Expo.enqueue (bs : List FwdBlock) (e : Expo) : Expo := if e.linkUp then { e with queue := e.queue ++ bs } else e

/-- START goes to the lanes, after FACET (R235; log 78). -/
def sendStart (n : Nat) (s : State) : State :=
  match (tab s.expo Expo.reset n).out with
  | none => s
  | some o =>
    if o.startDue (s.img.fwdLat n) s.now then
      s.atExpo n fun e => { e.enqueue [.start o.t0] with out := some { o with started := true } }
    else s

/-- The words of the slots from `o.next` to `upto` leave (R235). -/
def sendWords (n upto : Nat) (o : FacetOut) (s : State) : State :=
  let slots := (List.range (upto - o.next)).map (o.next + ·)
  s.atExpo n fun e => { e.enqueue (slots.flatMap (slotBlocks8 e.words)) with out := some { o with next := upto } }

/-- The words that are due leave. -/
def sendSlots (n : Nat) (s : State) : State :=
  match (tab s.expo Expo.reset n).out with
  | none => s
  | some o =>
    let upto := o.due (s.img.corH n 0) s.now
    if o.blank || !o.started || upto ≤ o.next then s else sendWords n upto o s

/-- The retrace at t_0 + ACT × T_k + 2 µs (R243): CFG when one is queued, and TEST of the next emitter unless the laser enable
is low; its reading must arrive within 21 µs more. -/
def Expo.retrace (lit : Bool) (i1 i2 : Nat) (fin : Int) (o : FacetOut) (e : Expo) : Expo :=
  let e := e.enqueue ((if e.cfgPend then [.cfg e.cfgAddr e.cfgData] else []) ++ if lit then [.test e.rot i1 i2] else [])
  { e with cfgPend := e.cfgPend && !e.linkUp, out := some { o with retraced := true }
           test := if lit then some (e.rot, ((fin + 2875000) / 1250).toNat) else none
           rot := if lit then (e.rot + 1) % 36 else e.rot }

/-- The retrace, once its time has come. -/
def retrace (n : Nat) (s : State) : State :=
  match (tab s.expo Expo.reset n).out with
  | none => s
  | some o =>
    let fin := o.t0 + partOf (s.img.corH n 0) o.tk
    if o.retraced || decide (((1250 * s.now : Nat) : Int) < fin + 250000) then s
    else s.atExpo n (Expo.retrace (tab s.il.lsr false n) (s.img.corH n 16) (s.img.corH n 18) fin o)

/-- Words of a block that are not off. -/
def FwdBlock.onWords : FwdBlock → Nat
  | .data ws => (ws.filter wordOn).length
  | _ => 0

/-- Words that are not off among the blocks that wait for a lane. -/
def Expo.onWaiting (e : Expo) : Nat := e.queue.foldl (fun c b => c + b.onWords) 0

/-- A tick of station `n`'s forward link; METER 2 counts the words sent that are not off (R466). -/
def forwardTick (n : Nat) (s : State) : State :=
  let s := retrace n (sendSlots n (sendStart n (toneTick n s.now s)))
  if (tab s.expo Expo.reset n).linkUp then
    let before := (tab s.expo Expo.reset n).onWaiting
    let s := s.atExpo n (Expo.sendTick s.now (s.img.fwdLat n))
    addUsage 2 n (before - (tab s.expo Expo.reset n).onWaiting) s
  else s

end Sys2Proof.Machine
end

