-- ==== Sys2Proof/Machine/Facet.lean ====
section
/-! DEFINITION. The facet reference pulse, window choice, slots of a facet, and the start of frames (R84, R166 to R187,
R216 to R220, R246, R250). -/

namespace Sys2Proof.Machine

open Sys2Proof.Bits

/-- T_MIN: the facet period at 45,000 rpm, in 1/65,536 SYS cycle (R170). -/
def tMin (l : Img) : Nat := 1600000 * 65536 / (3 * max 1 l.facets)

/-- Enabled stations. -/
def stationsEn (l : Img) : List Nat := eight.filter l.stationEn

/-- ACT_min over the enabled stations. -/
def actMin (l : Img) : Nat := (stationsEn l).foldl (fun m n => min m (l.corH n 0)) 65536

/-- T_BEAM: 163.84 µs ÷ ACT_min, in 1/65,536 SYS cycle (R170). -/
def tBeam (l : Img) : Nat := 65536 * 65536 * 65536 / max 1 (actMin l)

/-- The next interval within `lo` and `hi`, and whether a limit acted. -/
def limitInterval (lo hi t : Nat) : Nat × Bool := if t < lo then (lo, true) else if hi < t then (hi, true) else (t, false)

/-- T_k+1 after the limits of R170, and whether one acted (log 31). -/
def nextInterval (s : State) : Nat × Bool :=
  let l := s.img
  let i := facetInterval s
  let raw := (anchoredInterval s (gridError s) i).getD (2 * tStby l)
  let a := limitInterval (i * (1000000 - l.slew) / 1000000) (i * (1000000 + l.slew) / 1000000) raw
  let b := limitInterval (max (tMin l) (tBeam l)) (tStby l) a.1
  (b.1, a.2 || b.2)

/-- N ÷ D rounded to the nearest integer, a half towards `prev` (R172). -/
def roundToward (prev n d : Int) : Int :=
  let q := n / d
  let r := 2 * (n % d)
  if r < d then q else if d < r then q + 1 else if prev ≤ q then q else q + 1

/-- δ_n of R171 as a numerator and denominator, in lines. -/
def alongOffset (s : State) (n : Nat) (err : Int) : Int × Int :=
  let w : Int := s.img.estWin
  let e := (tab s.scan Scan.reset n).e
  let sub := s.img.lastSub s.run.last n
  let lim : Int := s.img.regLimit
  let reg := clampI (-lim) lim (sub + (tab s.reg RegStation.reset n).along)
  (err * 20000 * w + 16 * e * (followAdvance s).1 + reg * 63500 * 1250 * w, 20000 * w * 63500)

/-- W_n and r_n in 1/256 line (R172, R173; log 31). -/
def windowOf (prevW : Nat) (x : Int × Int) : Nat × Int :=
  let step := clampI (-2) 2 (roundToward ((prevW : Int) - 2) x.1 x.2)
  ((step + 2).toNat, (512 * (x.1 - step * x.2) + x.2) / (2 * x.2))

/-- |δ_n| exceeds 2.5 lines (R173). -/
def slips (x : Int × Int) : Bool := decide (5 * x.2 < 2 * (x.1.natAbs : Int))

/-- D_n' of the run's last. -/
def runDelay (s : State) (n : Nat) : Int := dEff s s.run.last n

/-- Frames of the stretch that may be exposed: every one in RUN, those started in HALTING (R185). -/
def openFrames (s : State) : Nat :=
  match s.eng.state with | .run => s.run.stretch | .halting => s.run.started | _ => 0

/-- Frame index of the stretch and line that stand at position `pos`, in lines, at station `n` (R216). -/
def lineAtPos (s : State) (n : Nat) (pos : Int) : Option (Nat × Nat) :=
  let q := pos - runDelay s n - s.run.f0
  let lf := runLF s
  if q < 0 || lf ≤ 0 then none
  else
    let j := (q / lf).toNat
    if j < openFrames s then some (j, (q % lf).toNat) else none

/-- The slot's line by the plan: entry, frame number, line; none where no committed frame lies (R216). -/
def plannedLine (s : State) (n : Nat) (pos : Int) : Option SlotLine :=
  match lineAtPos s n pos with
  | none => none
  | some (j, line) =>
    (s.frameNo? s.run.job (s.run.first + j)).map fun f => { entry := f.entry, number := s.run.first + j, line := line, late := false, off := none }

/-- Cause of a line that its decoder has not finished in time: that of the re-synchronisation that blanks it, else LATE (R219,
table "Spoil causes"). -/
def lateCause (s : State) (n : Nat) (x : SlotLine) : Nat × Nat :=
  let d := tab s.dec Decoder.reset n
  let held := if d.cur = some (x.entry, x.number) then (d.blankTo.filter fun y => decide (x.line ≤ y.1)).map (·.2) else []
  match lineCode held with
  | some c => codeCause c
  | none => (0x08, 0x182 + 8 * n)

/-- How a planned line stands in the band buffer: late, or its check's cause. -/
def bandState (s : State) (n : Nat) (x : SlotLine) : Bool × Option (Nat × Nat) :=
  match (tab s.dec Decoder.reset n).band.find? fun y => y.number = x.number && y.line = x.line with
  | none => (true, some (lateCause s n x))
  | some y => (false, y.blank)

/-- Slots of a facet before blanking: the planned lines that a facet from position `base` carries at station `n`. -/
def plannedSlots (s : State) (n : Nat) (base : Int) : List (Option SlotLine) :=
  (List.range 32).map fun (b : Nat) => plannedLine s n (base + (b : Int))

/-- First slot that carries line 0 of a frame; 32 for none. -/
def frameSlot (xs : List (Option SlotLine)) : Nat :=
  (xs.findIdx? fun x => x.any fun y => y.line = 0).getD 32

/-- First slot from which the station exposes: 0, the frame start that ends its blank, or none (R173, R250). Whether a
FACET_SLIP ends at the frame start its start of scan settles. -/
def exposeFrom (b : BlankCause) (start : Nat) : Nat :=
  if b.conds.any (fun c => c.kind != .slip) then 32 else if b.held || b.resume then start else 0

/-- One slot: off with the station's cause before `from'`, or with what the band buffer holds. -/
def slotOf (s : State) (n : Nat) (cause : Nat × Nat) (from' b : Nat) (x : Option SlotLine) : Option SlotLine :=
  x.map fun y =>
    let (late, band) := bandState s n y
    { y with late := late, off := if b < from' then some cause else band }

/-- Late lines: EXPOn_LATE, and the station's source (R219). -/
def noteLate (n : Nat) (xs : List SlotLine) (s : State) : State :=
  match xs.getLast? with
  | none => s
  | some y => raise (0x182 + 8 * n)
      (s.atExpo n fun e => { e with lateLine := y.line, lateCount := sat 8 (e.lateCount + xs.length) })

/-- A line that is off is spoiled in its repetition; a late one sets FLAGS.LATE (R219). -/
def Prog.takeSlot (n now : Nat) (y : SlotLine) (p : Prog) : Prog :=
  if y.number != p.number then p
  else
    let p := match y.off with
      | some c => p.spoilAt n y.line y.line (c.1, c.2, now)
      | none => p
    { p with late := p.late || y.late }

/-- A repetition's place at station `n` in a facet from position `base`: lines through the facet's end. -/
def StationProg.carry (n lines : Nat) (base : Int) (x : StationProg) : StationProg :=
  if x.n = n then { x with cur := max x.done (min lines (base + 32 - x.due).toNat) } else x

def Prog.carry (n : Nat) (base : Int) (p : Prog) : Prog :=
  { p with stations := p.stations.map (StationProg.carry n p.lines base) }

/-- The slots of a facet from position `base`, in one repetition. -/
def Prog.expose (n job now : Nat) (base : Int) (xs : List (Option SlotLine)) (p : Prog) : Prog :=
  if p.cut || p.job != job then p
  else (xs.filterMap id).foldl (fun p y => p.takeSlot n now y) (p.carry n base)

/-- The lines of a facet in the repetitions of the run. -/
def exposeSlots (n : Nat) (base : Int) (xs : List (Option SlotLine)) (s : State) : State :=
  s.modJobs fun j => { j with prog := j.prog.map (Prog.expose n s.run.job s.now base xs) }

/-- The lines that the facet carried have passed, in a repetition that no stop has cut (R88). -/
def Prog.pass (p : Prog) : Prog :=
  if p.cut then p else { p with stations := p.stations.map fun x => { x with done := x.cur } }

/-- The facet before has ended: its lines have passed. -/
def passFacet (s : State) : State := s.modJobs fun j => { j with prog := j.prog.map Prog.pass }

/-- A band line of station `n` that stands at position `base` or after it, or, in HALTING, is of a frame that has not started and
waits for the stretch to come (R185, R217). -/
def bandAhead (s : State) (n : Nat) (base : Int) (x : BandLine) : Bool :=
  (s.eng.state = .halting && decide (s.run.first + s.run.started ≤ x.number)) ||
  decide (base ≤ s.run.f0 + ((x.number : Int) - s.run.first) * runLF s + runDelay s n + x.line)

/-- Band lines before position `base` are read no more. -/
def dropBand (n : Nat) (base : Int) (s : State) : State :=
  s.atDec n fun d => { d with band := d.band.filter (bandAhead s n base) }

/-- Offsets and CROSS values in force from a facet whose slot B0 carries line 0 (R177, R212). -/
def takeOffsets (n : Nat) (s : State) : State :=
  let s := s.atReg n fun r => { r with along := r.trimAlong + r.accAlong, cross := r.trimCross + r.accCross }
  s.atScan n fun c => { c with cross := c.crossSet }

/-- XREG_n in force, limited (R175). -/
def xregOf (s : State) (n : Nat) : Int :=
  let lim : Int := s.img.regXLimit
  clampI (-lim) lim (tab s.reg RegStation.reset n).cross

/-- A station's facet results. -/
def facetAt (s : State) (n : Nat) : FacetStation :=
  tab s.facet.st { w := 2, slip := false, peak := 0, res := 0, episode := false } n

/-- A dead emitter of the window carries a line, and EXPOn_MLC or UNCOMP shows it (R225, R246). -/
def noteDead (n : Nat) (f : FacetNow) (s : State) : State :=
  let tones : List ToneLine := f.lines.map fun x => x.bind fun y => if y.off.isSome then none else some []
  let dead := (List.range 32).filter (slotDead f)
  if f.blank || dead.isEmpty then s
  else
    let lost := dead.any fun b => (tones.getD b none).isSome && !usable f tones ((b : Int) - 1) && !usable f tones (b + 1)
    let s := s.atExpo n fun e => { e with mlc := sat 32 (e.mlc + 1), uncomp := e.uncomp || lost }
    if lost then setsBit (0x5000 + 0x100 * n) 5 s else s

/-- FACET_SLIP at the facet in progress begins, goes on, or ends with a facet that starts a frame (R173). A facet that slips is
blank, and its lines are spoiled. -/
def slipCheck (n : Nat) (slip frameStart : Bool) (s : State) : State :=
  let st := facetAt s n
  if slip then
    let s := (blankNow n .slip 0x04 0x00B s).atExpo n fun e => { e with now := e.now.map fun f => { f with blank := true } }
    let s := s.modFacet fun f => { f with st := updAt f.st n fun x => { x with slip := true, episode := true } }
    if st.episode then s else raise 0x00B s
  else if st.slip && frameStart then
    (s.modFacet fun f => { f with st := updAt f.st n fun x => { x with slip := false, episode := false } }).atExpo n fun e =>
      { e with blank := { e.blank with conds := e.blank.conds.filter fun c => c.kind != .slip } }
  else s

/-- Window and residual of station `n` are recorded (R172). -/
def FacetStation.choose (x : Int × Int) (y : FacetStation) : FacetStation :=
  let (w, r) := windowOf y.w x
  { y with w := w, res := r, peak := max y.peak (min 255 r.natAbs) }

def chooseWindow (n : Nat) (x : Int × Int) (s : State) : State :=
  setsBit (0x3060 + 4 * n) 0 <| s.modFacet fun f => { f with st := updAt f.st n (FacetStation.choose x) }

/-- The facet at station `n` is printed by a job: RUN or HALTING, anchored, a station of the job. -/
def printsAt (s : State) (n : Nat) : Bool :=
  s.facet.anchored && (s.eng.state = .run || s.eng.state = .halting) && s.run.stations.getLsbD n

/-- The station's polygon channel has a source other than FACET, so it never counts as locked, and the station cannot print
(R31, R257). -/
def neverLocks (s : State) (n : Nat) : Bool := s.img.has 9 && s.img.spindleEn n && s.img.spMode n = 0 && s.img.spSource n != 0

/-- A facet whose start of scan has not come by the next pulse: FACET with BLANK (R235; log 78). -/
def missFacet (n : Nat) (s : State) : State :=
  match (tab s.expo Expo.reset n).now with
  | none => s
  | some f =>
    if (tab s.scan Scan.reset n).tSos.isSome then s
    else s.atExpo n fun e => e.enqueue [.facet (f.k % 65536) f.w true (slotPeriod (s.img.corH n 0) f.tk)]

/-- t_ref of the last pulse after its tick, in 8 ps (R203). -/
def refPart (s : State) : Int := divNear ((s.facet.frac * 625 : Nat) : Int) 131072

/-- REG_LIMIT for a frame whose line 0 the facet carries, by the offsets in force (R175, R178). -/
def regFrame (n : Nat) (y : Option SlotLine) (s : State) : State :=
  match y with
  | some y =>
    let r := tab s.reg RegStation.reset n
    regCheck n y.number r.along r.cross s
  | none => s

/-- The facet of pulse `k` begins at station `n` with its lines; `base` is floor(P_k ÷ 63,500) and `tk` is T_k. -/
def beginFacet (k tk : Nat) (base : Int) (n : Nat) (s : State) : State :=
  let s := missFacet n (frameTones n s)
  let print := printsAt s n
  let plan := if print then plannedSlots s n base else []
  let start := frameSlot plan
  let s := if start = 0 then takeOffsets n s else s
  let s := if print && neverLocks s n then holdBlank n .spindle 0x04 (Config.freeNat s.freeCtr % 65536) s.useFree else s
  let e := tab s.expo Expo.reset n
  let from' := exposeFrom e.blank start
  let xs := plan.zipIdx.map fun y => slotOf s n e.blank.cause from' y.2 y.1
  let late := (xs.filterMap id).filter (·.late)
  let derate := e.derate && !(e.derateEnd && decide (start < 32))
  let now : FacetNow :=
    { k := k, w := (facetAt s n).w, blank := !print || (decide (32 ≤ from')), anchored := s.facet.anchored, ref := refPart s,
      tk := tk, tick := s.now, lines := xs, split := start, toned := decide (32 ≤ start), tone0 := e.tone, tone1 := e.tone, derate0 := e.derate,
      derate1 := derate, dead := e.dead, xreg := xregOf s n, cross := (tab s.scan Scan.reset n).cross }
  let s := s.atExpo n fun e =>
    { e with now := some now, derate := derate, derateEnd := e.derateEnd && decide (32 ≤ start)
             blank := { e.blank with resume := e.blank.resume && decide (32 ≤ from') } }
  let s := toneTick n s.now (s.atScan n fun c => { c with tSos := none })
  noteLate n late (regFrame n (plan.getD start none) (exposeSlots n base xs s))

/-- What every pulse does: the facet before ends, and its outcomes are final (R11). -/
def endFacet (s : State) : State := endPassed (passFacet s)

/-- The timer expires and is reloaded (R169): interval, t_ref after the pulse's tick, grid and pulse number. -/
def reloadTimer (t : Nat) (limited : Bool) (err : Int) (s : State) : State :=
  let now := s.now
  s.modFacet fun f =>
    { f with interval := t, k := f.k + 1, tick := now, past := (t :: f.past).take 16,
             limited := f.limited || limited, fresh := false, err := err,
             grid := if f.anchored then f.grid + 2032000 else f.grid }

/-- The facet reference runs: the boot has ended, and the state is not DOWN. -/
def facetRuns (s : State) : Bool := s.eng.state != .boot && s.eng.state != .down

/-- FACET_REFERENCE_PULSE (R167 to R173, R216, R219, R235; log 60). -/
def facetPulse (s : State) : State :=
  let s := endFacet s
  let s := s.modFacet fun f => { f with frac := (f.frac + f.interval) % 262144 }
  let s := facetMode (gridError s) s
  let s := if s.facet.anchored && s.facet.fresh then s.modFacet fun f => { f with grid := s.anch.follow } else s
  let tk := facetInterval s
  let k := s.facet.k
  let err := s.anch.follow - s.facet.grid
  let base := s.facet.grid / lineAu
  let (t, lim) := if s.facet.anchored then nextInterval s else (tStby s.img, false)
  let s := if s.facet.anchored && s.run.active then each8 (fun n s => dropBand n base s) s else s
  let s := (stationsEn s.img).foldl (fun s n => beginFacet k tk base n s) s
  let s := if lim then setsBit 0x3040 1 s else s
  reloadTimer t lim (if s.facet.anchored then err else 0) (each8 (fun n s => dmaEvent (16 + n) s) s)

def execFacetReferencePulse (s : State) : Host.Outcome State Fault Refusal :=
  .next (if facetRuns s then facetPulse s else s)

/-- Start position F_j of the stretch's frame `j` (R180). -/
def frameStartLine (s : State) (j : Nat) : Int := s.run.f0 + (j : Int) * runLF s

/-- The repetition that starts now: one entry per station of the job, each at its due position. -/
def newProg (s : State) (f : Frame) (number : Nat) (start : Int) : Prog :=
  { job := f.job, number := number, entry := f.entry, start := start, lines := s.img.lF s.run.last,
    stations := (bitsOf 8 s.run.stations.toNat).map fun n =>
      { n := n, due := start + runDelay s n, done := 0, cur := 0, spoil := none, gap := false },
    tick := s.now, cause := none, late := false, cut := false }

/-- The lines of a frame that the facet in progress carries at station `n` already. -/
def joinFacet (s : State) (p : Prog) (n : Nat) : Prog :=
  let e := tab s.expo Expo.reset n
  match e.now with
  | none => p
  | some f =>
    let mine := f.lines.filterMap fun x => x.bind fun y => if y.number = p.number then some y else none
    let p := { p with stations := p.stations.map fun x => if x.n = n then { x with cur := mine.length } else x }
    mine.foldl (fun p y => p.takeSlot n s.now y) p

/-- Frame `j` of the stretch starts at S0 (R181). -/
def startFrame (f : Frame) (s : State) : State :=
  let j := s.run.started
  let p := newProg s f (s.run.first + j) (frameStartLine s j)
  let p := p.stations.foldl (fun q x => joinFacet s q x.n) p
  let s := s.modJobs fun x => { x with prog := x.prog ++ [p] }
  let s := s.modFrame f.entry fun g => { g with started := g.started + 1 }
  s.modRun fun r => { r with started := r.started + 1 }

/-- Frames start in RUN, and in a run group's halt until its plan applies (R181, R185, R406). -/
def mayStart (s : State) : Bool := s.eng.state = .run || (s.eng.state = .halting && s.run.halt.isNone)

/-- FRAME_START (R181): the follower has reached F_j + D_first, and frame j is committed. -/
def frameStart (s : State) : State :=
  let j := s.run.started
  if !mayStart s || !s.run.active || s.run.stretch ≤ j || s.line < frameStartLine s j + dFirst s then s
  else
    match s.frameNo? s.run.job (s.run.first + j) with
    | some f => startFrame f s
    | none => s

def execFrameStart (s : State) : Host.Outcome State Fault Refusal := .next (frameStart s)

/-- Index in the stretch of its first uncommitted frame; none when every frame is committed (R84). -/
def firstUncommitted (s : State) : Option Nat :=
  let have' := s.run.started + unstarted (s.framesOf s.run.job)
  if have' < s.run.stretch then some have' else none

/-- FRAME_STARVED (R84, R184): 64 lines before the first uncommitted frame would start. -/
def frameStarved (s : State) : State :=
  match firstUncommitted s with
  | none => s
  | some u =>
    if s.eng.state = .run && s.run.active && decide (frameStartLine s u + dFirst s - 64 ≤ s.line) then raise 0x1F4 s else s

def execFrameStarved (s : State) : Host.Outcome State Fault Refusal := .next (frameStarved s)

end Sys2Proof.Machine
end

