-- ==== Sys2Proof/Machine/Ropes.lean ====
section
/-! DEFINITION. Axes and ropes: membership, the stage-link feedback of an axis, and the current limits that the
controller computes (R19, R337, R340, R344, R345, R349). -/

namespace Sys2Proof.Machine

open Sys2Proof.Bits

/-- Rope `r` and the ropes above it. -/
def ropesAbove (l : Img) : Nat → Nat → List Nat
  | 0, _ => []
  | k + 1, r => r :: (match l.ropeParent r with | none => [] | some p => ropesAbove l k p)

/-- The ropes that an axis is a member of, the outermost last (R19). -/
def ropesOfAxis (l : Img) (a : Nat) : List Nat :=
  match l.axParent a with
  | none => []
  | some r => ropesAbove l 32 r

/-- Enabled axes of this controller. -/
def enabledAxes (l : Img) : List Nat := (List.range 16).filter l.axisEn

/-- Local axes of a rope and of the ropes in it. -/
def axesUnder (l : Img) (r : Nat) : List Nat := (enabledAxes l).filter fun a => (ropesOfAxis l a).contains r

/-- No rope has a local axis (log 45). -/
def noRopeAxis (l : Img) : Bool := l.ropes.all fun r => (axesUnder l r).isEmpty

/-- A splice window is open on a rope of axis `a` (R345). -/
def spliceOpen (s : State) (a : Nat) : Bool := (ropesOfAxis s.img a).any fun r => (tab s.rope Rope.reset r).splice

/-- A splice window is open on the outermost rope of axis `a` (R344). -/
def spliceOutermost (s : State) (a : Nat) : Bool :=
  ((ropesOfAxis s.img a).getLast?.map fun r => (tab s.rope Rope.reset r).splice).getD false

/-- Slot `k` of link `i`. -/
def stageSlot (s : State) (i k : Nat) : StageSlot := tab (tab s.stage StageLink.reset i).slot StageSlot.reset k

/-- Slot of an axis, with its link and number. -/
def axisFeed (s : State) (a : Nat) : Option (Nat × Nat × StageSlot) :=
  (s.img.axisSlot a).map fun x => (x.1, x.2, stageSlot s x.1 x.2)

/-- Position change over the last sample, in counts (table "Stage ports", field 4). -/
def StageSlot.move (x : StageSlot) : Int := signed 32 (x.pos + 2 ^ 32 - x.posPrev)

/-- 2π ÷ CPR times a number of counts, as numerator and denominator. -/
def countAngle (n : Int) (cpr : Nat) : Int × Nat := (n * (2 * Fp.pi260), 2 ^ 260 * max 1 cpr)

/-- ω_a in rad/s as numerator and denominator (table "Stage ports", field 6). -/
def axisOmegaRat (s : State) (a : Nat) : Int × Nat :=
  match axisFeed s a with
  | none => (0, 1)
  | some (i, k, x) =>
    let q := countAngle x.move (s.img.slotCpr i k)
    (q.1 * 100000000, q.2 * s.img.tS)

def axisOmega (s : State) (a : Nat) : F32 := let q := axisOmegaRat s a; Fp.ofRat q.1 q.2

/-- |ω_a| is at most AXIS_STILL. -/
def axisStill (s : State) (a : Nat) : Bool :=
  decide (((Fp.exact (axisOmega s a)).natAbs : Int) ≤ Fp.exact (s.img.axStill a))

/-- I_LIM_a (R344): I_MAX_a × (1 − RESERVE_a), or I_MAX_a in a splice window. -/
def iLim (s : State) (a : Nat) : F32 :=
  if spliceOutermost s a then s.img.axIMax a
  else Fp.ofRat (Fp.exact (s.img.axIMax a) * (2 ^ 149 - Fp.exact (s.img.axReserve a))) (2 ^ 298)

/-- Smaller of two values. -/
def minF (x y : F32) : F32 := if Fp.exact y < Fp.exact x then y else x

/-- I_REGEN_a (R349). Each of its two terms is rounded once. -/
def iRegen (s : State) (a : Nat) : F32 :=
  let b := match axisFeed s a with | none => 0 | some x => s.img.linkBus x.1
  let bus := tab s.bus DcBus.reset b
  let band := max 1 (s.img.busBand b)
  let room := min band (s.img.busCeil b - bus.vdc)
  let t1 := Fp.ofRat (Fp.exact (s.img.axIMax a) * (room : Int)) (2 ^ 149 * band)
  let p := if bus.absorbLost then s.img.axPNochop a else s.img.axPRegen a
  let w := axisOmegaRat s a
  let n := max w.1.natAbs w.2
  let t2 := Fp.ofRat (Fp.exact p * (w.2 : Int)) ((Fp.exact (s.img.axKt a)).natAbs * n)
  minF t1 t2

end Sys2Proof.Machine
end

