-- ==== Sys2Proof/Machine/Registration.lean ====
section
/-! DEFINITION. Standstill of the web and of the ropes, and the registration offsets (R165, R174 to R178, R351, R352,
table "State transitions"). -/

namespace Sys2Proof.Machine

open Sys2Proof.Bits

/-- The run ends by row 11: the target distance is travelled, and the web is at standstill (R181; log 98). -/
def runDone (s : State) : State := enterState 0 .armed 0x05 (runAtRest s)

/-- What standstill of the web ends in the present state (rows 11, 13, 19 and 21). In a belay stop the run ends or is
suspended (R12); the stop goes on to the standstill of the ropes, and ends here where no rope has an axis (log 45). -/
def standstillExit (s : State) : State :=
  match s.eng.state with
  | .run => if s.run.active && decide (runTarget s ≤ s.line) then runDone s else s
  | .halting => haltExit s
  | .belay =>
    if s.eng.stop != .belay then hardExit s else if noRopeAxis s.img then belayExit s else runAtRest s
  | _ => runAtRest (stopReached s)

/-- WEB_STANDSTILL (R165, R351): a bus without its chopper leads to SAFE first, as the more severe trigger (R29). -/
def webStandstill (s : State) : State :=
  if !stillLong s then s
  else
    let s := s.modAnch fun a => { a with still := true }
    let s := if s.bus.any (·.absorbLost) then raise 0x0F8 s else s
    standstillExit s

def execWebStandstill (s : State) : Host.Outcome State Fault Refusal := .next (webStandstill s)

/-- Every rope in use is at standstill, as its samples have shown (R352). -/
def ropesStill (s : State) : Bool := s.img.ropes.all fun r => (tab s.rope Rope.reset r).still

/-- ROPE_STANDSTILL (R352): rows 15 to 17. -/
def ropeStandstill (s : State) : State :=
  if s.eng.state = .belay && s.eng.stop = .belay && ropesStill s then belayExit s else s

def execRopeStandstill (s : State) : Host.Outcome State Fault Refusal := .next (ropeStandstill s)

/-- REG_LIMIT for the offsets that a write or a report has left, in the frame that starts next (R178). -/
def regNext (n : Nat) (s : State) : State :=
  let r := tab s.reg RegStation.reset n
  regCheck n (s.run.first + s.run.started) (r.trimAlong + r.accAlong) (r.trimCross + r.accCross) s

/-- A gain in 1/65,536 times an error, rounded to nearest, and limited to ±`lim` (R176, log 30). -/
def regStepOf (gain : Nat) (err : Int) (lim : Nat) : Int := clampI (-(lim : Int)) lim ((2 * gain * err + 65536) / 131072)

/-- The integrators after one report (R176). -/
def RegStation.report (l : Img) (frame : Nat) (along cross : Int) (r : RegStation) : RegStation :=
  { r with accAlong := clampI (-128) 127 (r.accAlong + regStepOf l.gainA along l.regStep),
           accCross := clampI (-32768) 32767 (r.accCross + regStepOf l.gainX cross l.regXStep),
           seen := frame :: r.seen }

/-- The report is for a frame of the running job, and the station's first for it (R176). -/
def reportTaken (s : State) (n frame : Nat) : Bool :=
  s.run.active && ((s.job? s.run.job).any fun j => decide (frame < j.next)) &&
  !(tab s.reg RegStation.reset n).seen.contains frame

/-- NEW of the camera eyelet's status word as delivered (R392). -/
def camStatus (s : State) (n : Nat) : Bool := bit ((tab s.ring.node RingNode.reset (s.img.camNode n)).words.headD 0) 3

/-- NEW has changed since the station's last report. The status word of an aliased camera is not forwarded (R393), and its
reports count as they come (log 111). -/
def camToggled (s : State) (n : Nat) : Bool :=
  s.img.nodeUse (s.img.camNode n) = 3 || camStatus s n != (tab s.reg RegStation.reset n).camNew

/-- Frame number and errors of the camera eyelet's words 1 and 2 as delivered (table "Eyelet kinds"). -/
def camReport (s : State) (n : Nat) : Nat × Int × Int :=
  let w := (tab s.ring.node RingNode.reset (s.img.camNode n)).words
  (w.getD 1 0, signed 16 (w.getD 2 0), signed 16 (w.getD 2 0 / 65536))

/-- CAMERA_MARK_REPORT (R176, R178): it counts on a change of NEW only, and says what the delivered words say (R392;
log 120). -/
def execCameraMarkReport (n : Fin 8) (frame : Nat) (along cross : Int) (s : State) : Host.Outcome State Fault Refusal :=
  .next <|
    if s.img.camNode n = 0 || !camToggled s n || camReport s n != (frame, along, cross) then s
    else
    let new := camStatus s n
    let s := s.atReg n fun r => { r with camNew := new }
    if reportTaken s n frame then regNext n (s.atReg n fun r => r.report s.img frame along cross)
    else s.modFacet fun f => { f with regDropped := sat 16 (f.regDropped + 1) }

/-- A write of REG_Sn_BASE: in IDLE and ARMED, and not −256 (R6, R174). -/
def writeRegBase (n v : Nat) (s : State) : State :=
  let k := signed 9 v
  if (s.eng.state = .idle || s.eng.state = .armed) && k != -256 then s.atReg n fun r => { r with k := k } else s

/-- REG_BASE_WRITE (R6, R174). -/
def execRegBaseWrite (n : Fin 8) (value : Word) (s : State) : Host.Outcome State Fault Refusal :=
  .next (if regOpen 1 s then writeRegBase n.val value.toNat s else s)

/-- ALONG and CROSS of a TRIM or ACC register. -/
def RegStation.write (acc : Bool) (v : Nat) (r : RegStation) : RegStation :=
  if acc then { r with accAlong := signed 8 v, accCross := signed 16 (v / 65536) }
  else { r with trimAlong := signed 8 v, trimCross := signed 16 (v / 65536) }

/-- A write of REG_Sn_TRIM or REG_Sn_ACC. -/
def writeRegOffset (n : Nat) (acc : Bool) (v : Nat) (s : State) : State := regNext n (s.atReg n (RegStation.write acc v))

/-- REG_OFFSET_WRITE (R177, R178): in force from the station's next frame. -/
def execRegOffsetWrite (n : Fin 8) (acc : Bool) (value : Word) (s : State) : Host.Outcome State Fault Refusal :=
  .next (if regOpen 1 s then writeRegOffset n.val acc value.toNat s else s)

end Sys2Proof.Machine
end

