-- ==== Sys2Proof/Machine/Stage.lean ====
section
/-! DEFINITION. Stage links: upstream frames, the in-ports of the law engine, what the output stage sends, DC buses and
brake choppers, tension, splice windows and the stops that other controllers signal (chapter 11). -/

namespace Sys2Proof.Machine

open Sys2Proof.Bits

/-- Sources of link L (table "Web transport fault sources"). -/
def stageSource (L k : Nat) : Nat := 0x070 + 16 * L + k

/-- An upstream frame is valid (R331): its LINK and CRC are correct, and it ends before the input window closes. -/
def frameLink (L : Nat) (f : List Byte) : Bool := f.length = 38 && byteAt f 0 = 0x10 + L
def frameCrc (f : List Byte) : Bool := u16 f 36 = Poly.ccitt.crc (f.take 36)

/-- Fields of an upstream slot into the ports' slot (R331, table "Upstream slot"). -/
def StageSlot.take (f : List Byte) (o : Nat) (x : StageSlot) : StageSlot :=
  { x with iu := s16 f o, iv := s16 f (o + 2), iw := s16 f (o + 4), vdc := u16 f (o + 6), pos := u32 f (o + 8)
           posPrev := if x.alive.isSome then x.pos else u32 f (o + 8), alive := some (bit (byteAt f (o + 12)) 0)
           temp := s8 f (o + 13), flags := u16 f (o + 14), fresh := true, missing := 0, lostEp := false }

/-- ALIVE has toggled since the last fresh frame, or there was none; asked of an axis only (R331). -/
def StageSlot.toggled (kind : Nat) (f : List Byte) (o : Nat) (x : StageSlot) : Bool :=
  kind != 1 || x.alive != some (bit (byteAt f (o + 12)) 0)

/-- One slot of a valid frame: fresh with the right ECHO (R331). -/
def takeSlot (L k : Nat) (f : List Byte) (echo : Bool) (s : State) : State :=
  let o := 4 + 16 * k
  let kind := s.img.slotKind L k
  if kind = 0 then s
  else
    let s := condSet (stageSource L (5 + k)) (u16 f (o + 14) % 64 != 0) s
    if echo && (stageSlot s L k).toggled kind f o then
      s.atStage L fun l => { l with slot := updAt l.slot k (StageSlot.take f o) }
    else s

/-- Highest VDC of the used slots of a frame. -/
def frameVdc (l : Img) (L : Nat) (f : List Byte) : Nat :=
  ((List.range 2).filter fun k => l.slotKind L k != 0).foldl (fun m k => max m (u16 f (10 + 16 * k))) 0

/-- A valid frame (R331): FLAGS, VDC, the ECHO judged, and the slots. -/
def takeFrame (L : Nat) (f : List Byte) (s : State) : State :=
  let echo : Bool := u16 f 1 = (tab s.stage StageLink.reset L).sample
  let v := frameVdc s.img L f
  let s := s.atStage L fun l =>
    { l with valid := true, vdc := v, flags0 := u16 f 18, flags1 := u16 f 34, echoed := true
             echoErr := if echo then l.echoErr else sat 8 (l.echoErr + 1) }
  let s := if echo then s else raise (stageSource L 4) s
  takeSlot L 1 f echo (takeSlot L 0 f echo s)

/-- UPSTREAM_FRAME (R331), of a link in training too, whose pass R332 judges over its 64 frames. -/
def upstreamFrame (L : Nat) (f : List Byte) (arrivalNs : Nat) (s : State) : State :=
  if s.img.linkUse L = 0 || f.length != 38 then s
  else if !frameCrc f then
    raise (stageSource L 3) (s.atStage L fun l => { l with crcErr := sat 8 (l.crcErr + 1) })
  else if !frameLink L f || decide (s.img.tIn ≤ arrivalNs) then s
  else takeFrame L f s

def execUpstreamFrame (L : Fin 8) (frame : List Byte) (arrivalNs : Nat) (s : State) : Host.Outcome State Fault Refusal :=
  .next (upstreamFrame L frame arrivalNs s)

/-- STAGE_LOST (R331): a slot of a link that is up has had no fresh frame for 4 samples. The link is lost, and trains
again by R332. -/
def stageLost (L k : Nat) (s : State) : State :=
  let x := stageSlot s L k
  if !(tab s.stage StageLink.reset L).up || s.img.slotKind L k = 0 || x.missing < 4 || x.lostEp then s
  else
    raise (stageSource L 2)
      (s.atStage L fun l => { l with up := false, slot := updAt l.slot k fun x => { x with lostEp := true } })

def execStageLost (L : Fin 8) (slot : Fin 2) (s : State) : Host.Outcome State Fault Refusal := .next (stageLost L slot s)

/-- Chopper slots of a bus. -/
def chopperSlots (l : Img) (b : Nat) : List (Nat × Nat) :=
  Img.allSlots.filter fun x => l.slotKind x.1 x.2 = 2 && l.linkBus x.1 = b

/-- A chopper of bus `b` has failed (R348). -/
def chopperFailed (s : State) (b : Nat) : Bool :=
  (chopperSlots s.img b).any fun x =>
    let t := stageSlot s x.1 x.2
    let f := if x.2 = 0 then (tab s.stage StageLink.reset x.1).flags0 else (tab s.stage StageLink.reset x.1).flags1
    bit f 0 || bit f 1 || bit f 5 || (tab s.stage StageLink.reset x.1).pair.active || decide (4 ≤ t.lowI)

/-- BUS_ABSORB_LOST (R348, R351): at standstill of the web ABSORB_STANDSTILL follows at once. -/
def busAbsorbLost (b : Nat) (s : State) : State :=
  if !chopperFailed s b || (tab s.bus DcBus.reset b).absorbLost then s
  else
    let s := raise (0x0F0 + b) (s.atBus b fun x => { x with absorbLost := true })
    if s.anch.still then raise 0x0F8 s else s

def execBusAbsorbLost (b : Fin 4) (s : State) : Host.Outcome State Fault Refusal := .next (busAbsorbLost b s)

/-- BUS_TRIP (R350). -/
def execBusTrip (b : Fin 4) (s : State) : Host.Outcome State Fault Refusal :=
  if (tab s.bus DcBus.reset b).ovr < 2 then .next s
  else .next (raise (0x0F4 + b) (setsBit (0x8100 + 4 * b) 17 <| s.atBus b fun x => { x with trip := true, ovr := 0 }))

/-- TENSION_LIMIT (R346), once per episode. -/
def execTensionLimit (r : Fin 32) (s : State) : Host.Outcome State Fault Refusal :=
  let x := tab s.rope Rope.reset r
  if x.tens < 8 || x.tensEp then .next s
  else .next (raise (0x150 + r) (s.atRope r fun x => { x with tensEp := true }))

/-- SHARE_STALE (R343): a channel of a press-domain rope was stale in SHARE_MISS ring cycles in a row. -/
def execShareStale (r : Fin 32) (s : State) : Host.Outcome State Fault Refusal :=
  let x := tab s.rope Rope.reset r
  if x.shareMiss < s.img.shareMiss && x.backMiss < s.img.shareMiss then .next s
  else .next (raise 0x170 (s.atRope r fun x => { x with shareMiss := 0, backMiss := 0 }))

/-- SPLICE_EDGE (R345): the window of every rope that the signal names opens or starts again. -/
def execSpliceEdge (i : Fin 4) (s : State) : Host.Outcome State Fault Refusal :=
  .next ((s.img.ropes.filter fun r => bit (s.img.ropeSplice r) i).foldl
    (fun s r => s.atRope r fun x => { x with splice := true }) s)

/-- SPLICE_WINDOW_EXPIRY (R345). -/
def execSpliceWindowExpiry (r : Fin 32) (s : State) : Host.Outcome State Fault Refusal :=
  .next (s.atRope r fun x => { x with splice := false })

/-- BELAY_SLOW (R353). -/
def execBelaySlow (s : State) : Host.Outcome State Fault Refusal :=
  if s.eng.state = .belay && s.eng.stop = .belay then .next (raise 0x171 s) else .next s

/-- COAST_TIMEOUT (R355, row 21). -/
def execCoastTimeout (s : State) : Host.Outcome State Fault Refusal :=
  if s.eng.state = .belay && s.eng.stop = .coast then .next (enterSafe 8 0x0F 0x000 s) else .next s

/-- Reaction code of a signalled stop (table "Reaction codes"). -/
def RemoteStop.code (k : RemoteStop) : Nat := match k with | .belay => 5 | .ramp => 6 | .coast => 7 | .safe => 8

/-- This controller holds part of a press-domain rope. -/
def inPressRope (l : Img) : Bool := l.ropes.any fun r => l.ropeUse r = 2 || l.ropeUse r = 3

/-- ROPE_REMOTE_STOP (R343). -/
def ropeRemoteStop (k : RemoteStop) (s : State) : State :=
  if inPressRope s.img then raiseWith 0x172 (RemoteStop.code k) 0 s else s

def execRopeRemoteStop (k : RemoteStop) (s : State) : Host.Outcome State Fault Refusal := .next (ropeRemoteStop k s)

/-- GROUP_REMOTE_STOP (R407). -/
def groupRemoteStop (k : RemoteStop) (s : State) : State :=
  if s.img.group.isSome then raiseWith 0x1E7 (RemoteStop.code k) 0 s else s

def execGroupRemoteStop (k : RemoteStop) (s : State) : Host.Outcome State Fault Refusal := .next (groupRemoteStop k s)

/-- RAMP_AXIS_TIMEOUT (R354): the axis goes to MODE OFF, and with the last one the ramp ends. -/
def rampAxisOff (a : Nat) (s : State) : State := s.modRamp fun r => { r with off := updAt r.off a fun _ => true }

/-- Every enabled axis is OFF (table "Ramp stop", step 4). -/
def rampDone (s : State) : Bool := (enabledAxes s.img).all fun a => tab s.ramp.off true a

/-- The ramp ends (row 19). -/
def rampEnd (s : State) : State :=
  if s.ramp.active && s.eng.state = .belay && s.eng.stop = .ramp && rampDone s then
    (if s.anch.still then hardExit s else rampExit s)
  else s

/-- T_RAMP_a in 2⁻¹⁴⁹ s, limited to 0.1 s to 600 s (R354): the value last committed on port 0x1501 + 4a, or RAMP_T. -/
def rampTime (s : State) (a : Nat) : Int :=
  let t := match s.img.axisSlot a with | none => 0 | some x => s.img.slotRampT x.1 x.2
  clampI (Fp.exact (Fp.ofRat 1 10)) (Fp.exact (Fp.ofRat 600 1)) (Fp.xval ((s.law.outPorts.lookup (0x1501 + 4 * a)).getD t))

/-- T_RAMP_a has elapsed since the ramp unit's first boundary (R354, table "Ramp stop", steps 2 and 3). -/
def rampOver (s : State) (a : Nat) : Bool :=
  s.ramp.start.any fun t => decide (rampTime s a * 100000000 ≤ ((s.now : Int) - t) * 2 ^ 149)

def execRampAxisTimeout (a : Fin 16) (s : State) : Host.Outcome State Fault Refusal :=
  if s.ramp.active && rampOver s a then .next (rampEnd (rampAxisOff a s)) else .next s

/-- In-ports of an axis (table "Stage ports"), with freshness; none for fields 0 to 8 of an axis in no slot. Fields 9 and 10
are the controller's own, and never stale (R338). -/
def stagePort (s : State) (a f : Nat) : Option (F32 × Bool) :=
  if f = 9 then some (if (s.img.axisSlot a).isSome then iRegen s a else Config.freePort (16 * a + 9), true)
  else if f = 10 then some (iLim s a, true)
  else (axisFeed s a).map fun (i, k, x) =>
    let amps (n : Int) : F32 := Fp.ofRat (n * Fp.exact (s.img.slotIFs i k)) (32768 * 2 ^ 149)
    let cpr := s.img.slotCpr i k
    match f with
    | 0 => (amps x.iu, x.fresh)
    | 1 => (amps x.iv, x.fresh)
    | 2 => (amps x.iw, x.fresh)
    | 3 => (Fp.ofRat x.vdc 10, x.fresh)
    | 4 => (Fp.ofRat (countAngle x.move cpr).1 (countAngle x.move cpr).2, x.fresh)
    | 5 => (Fp.ofRat (countAngle (x.pos % max 1 cpr : Nat) cpr).1 (countAngle 0 cpr).2, x.fresh)
    | 6 => (axisOmega s a, x.fresh)
    | 7 => (Fp.ofRat x.temp 1, x.fresh)
    | _ => (Fp.ofRat x.flags 1, x.fresh)

/-- A word of an eyelet's in-area: word `j` after word 0, whether binary32 or an integer (table "Eyelet kinds"). -/
def nodeWord (s : State) (i j : Nat) : Nat := (tab s.ring.node RingNode.reset i).words.getD (j + 1) 0
def nodeFresh (s : State) (i : Nat) : Bool := !(tab s.ring.node RingNode.reset i).stale

/-- In-ports of the high-voltage channels (R376). -/
def hvPort (s : State) (c m : Nat) : F32 × Bool :=
  let i := s.img.hvNode c
  let w := nodeWord s i (4 * s.img.hvSlot c + m)
  (if m < 2 then BitVec.ofNat 32 w else Fp.ofRat w 1, nodeFresh s i)

/-- The node and word that a generic in-port names (R392, R393). -/
def genericPort (l : Img) (p : Nat) : Option (Nat × Nat) :=
  ((List.range 128).find? fun i =>
    l.nodeUse i != 0 && l.nodeKind i = 0 && decide (l.nodeInPort i ≤ p) && decide (p < l.nodeInPort i + l.nodeIn i)).map
    fun i => (i, p - l.nodeInPort i)

/-- Level of a splice signal (R345): the splice bit of the eyelet, or the pin, whose level no command carries (log 44). -/
def splicePort (s : State) (i : Nat) : F32 × Bool :=
  let n := s.img.spliceSrc i
  if n = 0 then (if Config.freeBool s.freeCtr then Fp.one else 0, true)
  else (if bit ((tab s.ring.node RingNode.reset n).words.headD 0) 2 then Fp.one else 0, nodeFresh s n)

/-- Ports of web transport besides the ropes' (R345, R347, R348). -/
def transportPort (s : State) (p : Nat) : Option (F32 × Bool) :=
  if inR p 0x580 0x583 then some (splicePort s (p - 0x580))
  else if inR p 0x584 0x587 then
    let b := tab s.bus DcBus.reset (p - 0x584)
    some (Fp.ofRat b.vdc 10, b.fresh)
  else if inR p 0x588 0x58B then some (if (tab s.bus DcBus.reset (p - 0x588)).absorbLost then Fp.one else 0, true)
  else none

/-- What an in-port holds, with freshness; none when nothing feeds it (R303, table "Ports"; log 75). -/
def portValue (s : State) (p : Nat) : Option (F32 × Bool) :=
  match s.law.ports.lookup p with
  | some v => some (v, true)
  | none =>
    if p < 0x100 then stagePort s (p / 16) (p % 16)
    else if p = 0x103 then some (Fp.ofRat (rawAdvance s) (30 * s.img.estWin), true)
    else if p = 0x104 then some (Fp.ofRat (16 * s.eng.state.code + s.eng.stop.code : Nat) 1, true)
    else if inR p 0x200 0x25F then
      let c := (p - 0x200) / 4
      if s.img.has 19 && s.img.hvNode c != 0 then some (hvPort s c (p % 4)) else none
    else if inR p 0x260 0x3FF then
      (genericPort s.img p).map fun x => (BitVec.ofNat 32 (nodeWord s x.1 x.2), nodeFresh s x.1)
    else if inR p 0x400 0x419 then some (tab s.therm.value 0 (p - 0x400), true)
    else if inR p 0x500 0x5FF then transportPort s p
    else none

/-- In-ports that IN instructions read. -/
def portsRead (s : State) : List Nat := ((s.law.prog.take s.img.lawN).filter fun w => lawOp w = 0x50).map lawA

/-- The latch at the close of the input window (R303; log 44; log 75). -/
def latchPorts (s : State) : State :=
  let vs := (portsRead s).map fun p =>
    let x := (portValue s p).getD (Config.freePort p, false)
    { port := p, v := x.1, fresh := x.2 : PortVal }
  (s.modLaw fun l => { l with latched := vs }).useFree

end Sys2Proof.Machine
end

