-- ==== Sys2Proof/Machine/RingOps.lean ====
section
/-! DEFINITION. Ring slots: CRC, words sent, delivery and the latch at the close of the input window (R387 to R394, R402,
table "Controller slot"). -/

namespace Sys2Proof.Machine

open Sys2Proof.Bits

/-- The other port of a ring. -/
def otherPort (p : Nat) : Nat := if p % 2 = 0 then p + 1 else p - 1

def ringPort (s : State) (p : Nat) : RingPort := tab s.ring.port RingPort.reset p
def State.atPort (s : State) (p : Nat) (f : RingPort → RingPort) : State :=
  s.modRing fun r => { r with port := updAt r.port p f }

def ctrlNode (s : State) (i : Nat) : RingNode := tab s.ring.ctrl RingNode.reset i
def eyelet (s : State) (i : Nat) : RingNode := tab s.ring.node RingNode.reset i
def State.atCtrl (s : State) (i : Nat) (f : RingNode → RingNode) : State :=
  s.modRing fun r => { r with ctrl := updAt r.ctrl i f }
def State.atNode (s : State) (i : Nat) (f : RingNode → RingNode) : State :=
  s.modRing fun r => { r with node := updAt r.node i f }

/-- Node address of this controller (R386). -/
def ownAddress (s : State) : Nat := 128 * s.ring.index

/-- Other controllers of the press by the RING section. -/
def otherControllers (s : State) : List Nat := (List.range 32).filter fun i => i != s.ring.index && s.img.ctrlUse i != 0

/-- Nodes on the ring of a port: the controllers, or this controller and its eyelets. -/
def nodeCount (s : State) (p : Nat) : Nat := if p < 2 then s.img.controllers else s.img.eyelets.length + 1

/-- The port belongs to a ring in use (R383). -/
def portUsed (s : State) (p : Nat) : Bool :=
  if p < 2 then decide (1 < s.img.controllers)
  else if p = 2 then s.img.subTopo != 0 else s.img.subTopo = 1

/-- Data blocks of a slot: two words each. -/
def slotBlocks (ws : List Nat) : Nat := (ws.length + 1) / 2

/-- Bytes of the data blocks: two words each, little-endian (R384). -/
def slotData (ws : List Nat) : List Byte := ws.flatMap (toLE 4) ++ (if ws.length % 2 = 1 then [0, 0, 0, 0] else [])

/-- CRC-32C of BEGIN bytes 1 to 3 and 5 to 7 and of every data block byte (table "Ring control blocks"). -/
def slotCheck (src cycle : Nat) (ws : List Nat) : Nat :=
  crc32c (toLE 2 src ++ toLE 1 (slotBlocks ws) ++ toLE 3 cycle ++ slotData ws)

/-- END CRC that a received slot should carry. -/
def slotCrc (x : Slot) : Nat := slotCheck x.src x.cycle x.words

/-- Data in blocks of 8 bytes. -/
def dataBlocks : Nat → List Byte → List RingBlock
  | 0, _ => []
  | _, [] => []
  | k + 1, l => { control := false, bytes := l.take 8 } :: dataBlocks k (l.drop 8)

/-- BEGIN with HOPS 0, the data blocks and END (R387, table "Ring control blocks"). -/
def slotBlocksOut (src cycle : Nat) (ws : List Nat) : List RingBlock :=
  controlBlock 0x78 (toLE 2 src ++ toLE 1 (slotBlocks ws) ++ [0] ++ toLE 3 cycle) ::
    dataBlocks (slotBlocks ws) (slotData ws) ++ [controlBlock 0x87 (toLE 4 (slotCheck src cycle ws))]

/-- HELLO of port `p`: ring kind, ring index, port and serial (R384, R385). -/
def helloBlock (s : State) (p : Nat) : RingBlock :=
  controlBlock 0x2D (toLE 1 (if p < 2 then 0 else 1) ++ toLE 1 s.ring.index ++ toLE 1 p ++ toLE 4 (serial s))

/-- A time stamp block: the low 56 bits of ring time in 1/64 tick. -/
def stampBlock (type t : Nat) : RingBlock := controlBlock type (toLE 7 t)

/-- Control blocks go out of port `p`; the newest are kept. -/
def sendControl (p : Nat) (bs : List RingBlock) (s : State) : State :=
  s.atPort p fun x => { x with control := bs ++ x.control.take 8 }

/-- Ticks from a boundary to the deadline of R389. -/
def slotDeadline (s : State) : Nat := (s.img.tIn - 100) / 10

/-- CYCLE that is due: the boundary whose deadline has not passed (R389). -/
def dueCycle (s : State) : Nat := ceilDiv (s.now - slotDeadline s) s.img.tS % 2 ^ 24

/-- Stop that STATUS signals (table "Controller slot", R343, R407). -/
def signalledStop (s : State) : Nat :=
  match s.eng.state with
  | .safe => 5
  | .belay => (match s.eng.stop with | .belay => 2 | .ramp => 3 | .coast => 4 | _ => 0)
  | _ => 0

/-- Word 0 of this controller's slots. -/
def statusWord (s : State) : Nat := s.eng.state.code + 16 * signalledStop s + 128 * b2n s.eng.estop

def GroupMsg.code (m : GroupMsg) : Nat := match m with | .none => 0 | .ready => 1 | .start => 2 | .halt => 3

/-- A signed 64-bit number as two words, the low one first. -/
def twoWords (i : Int) : List Nat := let n := unsigned 64 i; [n % 2 ^ 32, n / 2 ^ 32]

/-- Groups of 32 channels. -/
def groups32 : Nat → List Nat → List (List Nat)
  | 0, _ => []
  | _, [] => []
  | k + 1, l => l.take 32 :: groups32 k (l.drop 32)

/-- One mask word: bit c stands for the c-th channel of the group. -/
def maskWord (sent : Nat → Bool) (g : List Nat) : Nat :=
  (g.zipIdx.filter fun x => sent x.1).foldl (fun m x => m + 2 ^ x.2) 0

/-- SHARE area of the slot (R391): mask words, then the channel values; the value of a channel on which SHARE did not run
is open (log 76). -/
def shareArea (s : State) : List Nat :=
  let chs := s.img.chansOf s.ring.index
  let sent (c : Nat) := (s.law.shareOut.lookup c).isSome
  (groups32 8 chs).map (maskWord sent) ++
    chs.map fun c => match s.law.shareOut.lookup c with
      | some v => v.toNat
      | none => Config.freeNat (s.freeCtr + c) % 2 ^ 32

/-- In-words of a node after its status word, at the length of its kind. -/
def inWords (s : State) (i : Nat) : List Nat :=
  let n := s.img.nodeInWords i
  (((eyelet s i).words.drop 1) ++ List.replicate n 0).take n

/-- Nodes whose in-words this controller forwards (R393). -/
def forwardedNodes (s : State) : List Nat := s.img.eyelets.filter s.img.nodeFwd

/-- Words of the upper-ring slot (table "Controller slot"). -/
def upperWords (s : State) : List Nat :=
  let g := s.ring.group
  let sp := if s.run.active then s.run.speed else g.speed
  let ac := if s.run.active then s.run.accel else g.accel
  [statusWord s, GroupMsg.code g.msg + 256 * (g.number % 256)] ++ twoWords g.pos ++ twoWords s.ring.anchCount ++
    twoWords s.ring.anchTime ++ [sp % 65536 + 65536 * (ac % 65536)] ++ shareArea s ++
    (forwardedNodes s).flatMap (inWords s)

/-- Enable of an HV channel as the output stage sends it (R378). -/
def hvEnable (s : State) (c : Nat) : Bool :=
  !lawOutputsOff s && !tab s.il.cover true (c / 3) && !s.il.web && !s.il.jam &&
    !(Fp.FNum.of (outPortValue s (0x1202 + 4 * c))).zero

/-- Channel of output `k` of eyelet `i`. -/
def hvChannelOf (l : Img) (i k : Nat) : Option Nat := l.hvUsed.find? fun c => l.hvNode c = i && l.hvSlot c = k

/-- Set-point, current limit and enable of one output of an HV eyelet. -/
def hvOutWords (s : State) (i k : Nat) : List Nat :=
  match hvChannelOf s.img i k with
  | none => [0, 0, 0]
  | some c => [(outPortValue s (0x1200 + 4 * c)).toNat, (outPortValue s (0x1201 + 4 * c)).toNat, b2n (hvEnable s c)]

/-- Out-words of an eyelet (table "Eyelet kinds"). -/
def outWords (s : State) (i : Nat) : List Nat :=
  match s.img.nodeKind i with
  | 0 => (List.range (s.img.nodeOut i)).map fun j => (outPortValue s (s.img.nodeOutPort i + j)).toNat
  | 3 => (List.range 4).flatMap (hvOutWords s i)
  | _ => []

/-- Words of the subordinate slot (R392). -/
def subWords (s : State) : List Nat := statusWord s :: s.img.eyelets.flatMap (outWords s)

/-- HV set-points as sent. -/
def hvSent (s : State) : List (Nat × F32 × F32 × Bool) :=
  s.img.hvUsed.map fun c => (c, outPortValue s (0x1200 + 4 * c), outPortValue s (0x1201 + 4 * c), hvEnable s c)

/-- Anchor count that this controller publishes, latched in the launch tick (R394). -/
def latchAnchor (s : State) : State :=
  match s.img.anchPub with
  | 0 => s
  | n => s.modRing fun r => { r with anchCount := (tab s.anch.inp { a := false, b := false, count := 0, zCount := none } (n - 1)).count
                                     anchTime := s.now }

/-- Aliases of nodes on the ring of controller `i`, by remote local index (R393; log 47). -/
def aliasesOf (s : State) (i : Nat) : List Nat :=
  (((List.range 128).filter fun k => s.img.nodeUse k = 3 && s.img.nodeType k / 128 % 32 = i).foldr
    (fun k l => insertBy (fun a b => decide (s.img.nodeType a % 128 ≤ s.img.nodeType b % 128)) k l) [])
where
  insertBy (le : Nat → Nat → Bool) (k : Nat) : List Nat → List Nat
    | [] => [k]
    | a :: r => if le k a then k :: a :: r else a :: insertBy le k r

/-- The forwarded area of controller `i` holds the words of the eyelets aliased here and no more, so that the place of each
is known (R393; log 47). -/
def placesKnown (s : State) (i : Nat) : Bool :=
  (((aliasesOf s i).filter fun k => s.img.nodeType k % 128 != 0).map s.img.nodeInWords).sum = s.img.fwdWords i

/-- Words of one alias from the forwarded area, or from words 4 to 7 for the controller's own anchor (R393); each alias of
an eyelet follows the one before. Where `known` does not hold, the area holds words that this controller cannot place, and
the alias's words are open (log 47). -/
def deliverAliases (known : Bool) (ws : List Nat) (stale : List Nat) (area : Nat) : List Nat → State → State
  | [], s => s
  | k :: r, s =>
    let addr := s.img.nodeType k
    let n := s.img.nodeInWords k
    if addr % 128 = 0 then
      deliverAliases known ws stale area r (s.atNode k fun x => { x with words := 0 :: (ws.drop 4).take 4, delivered := true })
    else
      let c := s.freeCtr
      let vs := if known then (ws.drop area).take n else (List.range n).map fun j => Config.freeNat (c + 64 * k + j) % 2 ^ 32
      deliverAliases known ws stale (area + n) r
        (s.atNode k fun x => if stale.contains addr then x else { x with words := 0 :: vs, delivered := true })

/-- Where the forwarded area of controller `i`'s slot starts. -/
def forwardedAt (s : State) (i : Nat) : Nat :=
  let n := (s.img.chansOf i).length
  9 + ceilDiv n 32 + n

/-- The leader sees in a member's GROUP word that its READY is withdrawn (R404). -/
def noteReady (i : Nat) (ws : List Nat) (s : State) : State :=
  if ws.getD 1 0 % 8 = 1 then s
  else s.modRing fun r => { r with group := { r.group with ready := r.group.ready &&& ~~~(1#32 <<< i) } }

/-- A controller's slot delivered. -/
def deliverCtrl (i : Nat) (x : Slot) (s : State) : State :=
  if (ctrlNode s i).delivered then s
  else
    let s := noteReady i x.words (s.atCtrl i fun n => { n with words := x.words, delivered := true })
    (deliverAliases (placesKnown s i) x.words x.fwdStale (forwardedAt s i) (aliasesOf s i) s).modFreeCtr (· + 8192)

/-- HV_FAULT and HV_ARC of a channel whose slot has come, once per episode (R380). -/
def hvCheck (c : Nat) (s : State) : State :=
  let w (m : Nat) := nodeWord s (s.img.hvNode c) (4 * s.img.hvSlot c + m)
  let fault := w 2 != 0
  let arc := w 3 != 0
  let newF := fault && !s.hv.faultEp.getLsbD c
  let newA := arc && !s.hv.arcEp.getLsbD c
  let m : BitVec 24 := 1#24 <<< c
  let s := s.modHv fun h =>
    { h with faultEp := if fault then h.faultEp ||| m else h.faultEp &&& ~~~m
             arcEp := if arc then h.arcEp ||| m else h.arcEp &&& ~~~m }
  let s := if newF then raise 0x028 s else s
  if newA then raise 0x029 s else s

/-- An eyelet's slot delivered: EYELET_FAULT once per episode, or the checks of a high-voltage eyelet (R392). -/
def deliverEyelet (i : Nat) (x : Slot) (s : State) : State :=
  if (eyelet s i).delivered then s
  else
    let fault := bit (x.words.headD 0) 1
    let was := (eyelet s i).faultEp
    let s := s.atNode i fun n => { n with words := x.words, delivered := true, faultEp := fault }
    if s.img.nodeKind i = 3 then (s.img.hvUsed.filter fun c => s.img.hvNode c = i).foldl (fun s c => hvCheck c s) s
    else if fault && !was then raise 0x1E8 s
    else s

/-- A slot is used at its first correct copy (R388); of a controller's, the port of each copy is noted (R399). -/
def deliverSlot (p : Nat) (x : Slot) (s : State) : State :=
  if p < 2 then
    let s := s.atCtrl (x.src / 128) fun n => { n with heard := n.heard ||| (1#2 <<< p) }
    if x.src % 128 = 0 && (otherControllers s).contains (x.src / 128) then deliverCtrl (x.src / 128) x s else s
  else if x.src / 128 = s.ring.index && s.img.eyelets.contains (x.src % 128) then deliverEyelet (x.src % 128) x s
  else s

/-- A slot is late, or of another CYCLE (R389). -/
def lateSlot (s : State) : State :=
  let due := dueCycle s
  let new := s.ring.lateCycle != some due
  let s := s.modRing fun r => { r with late := sat 8 (r.late + 1), lateCycle := some due }
  if new then raise 0x1E3 s else s

/-- A node at the close of the input window: delivered or not (R389, R402). -/
def RingNode.close (n : RingNode) : RingNode :=
  { n with stale := !n.delivered, delivered := false, heard := 0, heardLast := n.heard
           missing := if n.delivered then 0 else n.missing + 1
           good := if n.live then 0 else if n.delivered then n.good + 1 else 0 }

/-- A lost node is live again after 16 delivered cycles, with the serial of its enumeration (R402). -/
def RingNode.return (n : RingNode) : RingNode :=
  if n.present && !n.live && !n.wrong && decide (16 ≤ n.good) then { n with live := true, good := 0 } else n

/-- SHARE values of the cycle (R306): the sender's own, and those of the slots delivered; a channel whose slot was not
delivered is marked. -/
def shareDelivered (s : State) (c : Nat) : Option (Nat × F32 × Bool) :=
  match s.img.chanSender c with
  | none => none
  | some i =>
    if i = s.ring.index then (s.law.shareOut.lookup c).map fun v => (c, v, false)
    else if (ctrlNode s i).stale then some (c, 0, true)
    else
      let chs := s.img.chansOf i
      let j := chs.idxOf c
      let ws := (ctrlNode s i).words
      if bit (ws.getD (9 + j / 32) 0) (j % 32) then some (c, BitVec.ofNat 32 (ws.getD (9 + ceilDiv chs.length 32 + j) 0), false)
      else none

/-- A channel of a press-domain rope was stale in this cycle (R343). -/
def chanStale (s : State) (c : Nat) : Bool :=
  match s.img.chanSender c with
  | none => false
  | some i => i != s.ring.index && (ctrlNode s i).stale

/-- Stale cycles of the channels of a press-domain rope. -/
def countShare (r : Nat) (s : State) : State :=
  let a := chanStale s (s.img.ropeShareCh r)
  let b := chanStale s (s.img.ropeBackCh r)
  s.atRope r fun x => { x with shareMiss := if a then x.shareMiss + 1 else 0, backMiss := if b then x.backMiss + 1 else 0 }

/-- Delivery of the HV channels (R380). -/
def hvClose (s : State) : State :=
  let del (c : Nat) : Bool := s.img.hvUsed.contains c && nodeFresh s (s.img.hvNode c)
  s.modHv fun h =>
    { h with live := (List.range 24).foldl (fun m c => if del c then m ||| (1#24 <<< c) else m) 0
             missing := Vector.ofFn fun c => if del c then 0 else h.missing[c] + 1
             lostEp := (List.range 24).foldl (fun m c => if del c then m &&& ~~~(1#24 <<< c) else m) h.lostEp }

/-- The upper time master: the live controller with the lowest index (R399). -/
def electMaster (s : State) : State :=
  let lower := (List.range s.ring.index).any fun i => (ctrlNode s i).present && (ctrlNode s i).live
  s.modRing fun r => { r with timeMaster := r.enumDone && !lower }

/-- Each port that is up sends TS_REQ once per cycle (R398); the stamp lies anywhere in the tick (log 77). -/
def sendTsReq (p : Nat) (s : State) : State :=
  if !(ringPort s p).up then s
  else
    let t := (64 * s.now + Config.freeNat s.freeCtr % 64) % 2 ^ 56
    let s := s.atPort p fun x =>
      { x with noRsp := if x.t1.isSome && x.t4.isNone then x.noRsp + 1 else 0, t1 := some t, t2 := none, t4 := none }
    (sendControl p [stampBlock 0x4B t] s).useFree

/-- Slots run: after enumeration, and in boot step 10 (R396, step 5). -/
def slotsRun (s : State) : Bool := s.ring.enumDone || (s.eng.state = .boot && s.boot.step = 10)

/-- What the close of the input window does on the ring (R303, R306, R389, R398, R402). -/
def ringClose (s : State) : State :=
  let s := s.modRing fun r => { r with timeSet := r.timeSet.map fun n => min 64 (n + 1) }
  if !s.ring.enumDone then
    (if slotsRun s then
      let s := s.modRing fun r => { r with ctrl := r.ctrl.map (·.close), node := r.node.map (·.close) }
      [0, 1, 2, 3].foldl (fun s p => sendTsReq p s) s
    else s)
  else
    let s := s.modRing fun r => { r with ctrl := r.ctrl.map (fun n => n.close.return), node := r.node.map (fun n => n.close.return) }
    let s := s.modLaw fun l => { l with shareIn := (List.range 256).filterMap (shareDelivered s), shareOut := [] }
    let s := (s.img.ropes.filter fun r => s.img.ropeUse r = 2 || s.img.ropeUse r = 3).foldl (fun s r => countShare r s) s
    [0, 1, 2, 3].foldl (fun s p => sendTsReq p s) (electMaster (hvClose s))

end Sys2Proof.Machine
end

