-- ==== Sys2Proof/Machine/Ring.lean ====
section
/-! DEFINITION. The Utmos ring: ports, slots, lost nodes, ring time, SEQ blocks and run groups (R384 to R410). -/

namespace Sys2Proof.Machine

open Sys2Proof.Bits

/-- The ring part of PD6 operates: it stands in its load state at least, and the RING PLL is locked. -/
def ringOn (s : State) : Bool := domainOn 10 s && (s.clk.pll[5]).locked

/-- The HELLO agrees with the RING section on ring kind and neighbour (R383, R385). -/
def helloAgrees (s : State) (p kind index port : Nat) : Bool :=
  portUsed s p &&
    (if p < 2 then kind = 0 && index != s.ring.index && s.img.ctrlUse index != 0 && port = otherPort p
     else kind = 1 && index = 0xFF)

/-- A retrained neighbour shows another serial than at enumeration: lost, it stays so until the next boot (R402). -/
def noteNeighbour (p index serial : Nat) (s : State) : State :=
  let check (n : RingNode) : RingNode :=
    if n.present then { n with wrong := n.wrong || n.serial % 2 ^ 32 != serial % 2 ^ 32 } else n
  if !s.ring.enumDone then s
  else if p < 2 then s.atCtrl index check
  else if p = 2 then s.atNode 1 check
  else s.atNode (((List.range 128).filter fun i => (eyelet s i).present && s.img.nodeUse i != 3).getLastD 1) check

/-- WRAP of the ring of a port: one of its two ports is up alone (R401). -/
def setWrap (p : Nat) (b : Bool) (s : State) : State :=
  s.modRing fun r => if p < 2 then { r with upperWrap := b } else { r with subWrap := b }

/-- The port has trained (R385). It forwards from the next slot launch. -/
def portUp (p serial : Nat) (s : State) : State :=
  let hello := helloBlock s p
  let s := s.atPort p fun x => { x with lock := true, up := true, training := false, forwards := false, serial := serial
                                        noRsp := 0, t1 := none, t2 := none, t4 := none }
  let s := sendControl p [hello] s
  if (ringPort s (otherPort p)).up then setWrap p false s else s

/-- A port in use may train: in the boot the upper ports from step 8 on, the subordinate ports from step 10 on (R383, R385,
R396). -/
def portTrains (s : State) (p : Nat) : Bool :=
  ringOn s && portUsed s p && !(ringPort s p).up && (s.eng.state != .boot || decide ((if p < 2 then 8 else 10) ≤ s.boot.step))

/-- RING_PORT_TRAINING (R384, R385): HELLO goes out while the port exchanges it. -/
def ringPortTraining (p kind index port serial : Nat) (s : State) : State :=
  if !portTrains s p then s
  else if helloAgrees s p kind index port then noteNeighbour p index serial (portUp p serial s)
  else
    let hello := helloBlock s p
    sendControl p [hello] (s.atPort p fun x => { x with lock := true, training := false, serial := serial })

def execRingPortTraining (p : Fin 4) (kind index port serial : Nat) (s : State) : Host.Outcome State Fault Refusal :=
  .next (ringPortTraining p kind index port serial s)

/-- The port is down; block lock stays where only TS_RSP was missing in 8 cycles (R385; log 111). -/
def RingPort.drop (lock : Bool) (x : RingPort) : RingPort :=
  { x with lock := lock, up := false, forwards := false, downSeen := true, t1 := none, t2 := none, t4 := none, noRsp := 0 }

/-- Every port goes down at once with the RING PLL (table "Consequences of an unlock"): no port of a ring stays up, so none
wraps (R401). -/
def ringPortsOff (s : State) : State :=
  let s := (List.range 4).foldl (fun s p =>
    if (ringPort s p).up then setsBit (0xA020 + 4 * p) 2 (s.atPort p (RingPort.drop false)) else s) s
  setWrap 0 false (setWrap 2 false s)

/-- A port goes down (R385, R401): with the other port up the ring wraps, which the lifetime counter counts (R493). -/
def ringPortDown (p : Nat) (s : State) : State :=
  if !(ringPort s p).up then s
  else
    let s := setsBit (0xA020 + 4 * p) 2 (s.atPort p fun x => x.drop (decide (8 ≤ x.noRsp)))
    let wrap := (ringPort s (otherPort p)).up
    let s := setWrap p wrap s
    if wrap then raise (if p < 2 then 0x1E0 else 0x1E1) (countLife 10 1 s) else s

def execRingPortDown (p : Fin 4) (s : State) : Host.Outcome State Fault Refusal := .next (ringPortDown p s)

/-- RING_PORT_RETRAIN_TIMER (R385). -/
def execRingPortRetrainTimer (p : Fin 4) (s : State) : Host.Outcome State Fault Refusal :=
  if portTrains s p then
    let hello := helloBlock s p
    .next (sendControl p [hello] (s.atPort p fun x => { x with training := true }))
  else .next s

/-- A slot of this controller's, in both directions (R387). -/
def launchSlot (s : State) (sub : Bool) (stale : List Nat) (ws : List Nat) : SlotSent :=
  let k := (s.boundary + 1) % 2 ^ 24
  { sub := sub, ports := (if sub then [2, 3] else [0, 1]).filter fun p => (ringPort s p).up, src := ownAddress s, cycle := k,
    words := ws, blocks := slotBlocksOut (ownAddress s) k ws, fwdStale := stale }

/-- Forwarded eyelets whose slot was undelivered here, by address (R393). -/
def undeliveredHere (s : State) : List Nat :=
  ((forwardedNodes s).filter fun i => (eyelet s i).stale).map fun i => ownAddress s + i

/-- Slots that this controller sends in the cycle (R387). -/
def launchSlots (s : State) : List SlotSent :=
  (if 1 < s.img.controllers then [launchSlot s false (undeliveredHere s) (upperWords s)] else []) ++
  (if s.img.subTopo != 0 then [launchSlot s true [] (subWords s)] else [])

/-- SLOT_LAUNCH (R387, R391 to R394). -/
def slotLaunch (s : State) : State :=
  if !slotsRun s || !ringOn s then s
  else
    let s := latchAnchor s
    let out := launchSlots s
    let hv := hvSent s
    let s := s.modRing fun r => { r with sent := out, forwarded := [], port := r.port.map fun x => { x with forwards := x.up } }
    (s.modHv fun h => { h with sent := hv }).modFreeCtr (· + 256)

def execSlotLaunch (s : State) : Host.Outcome State Fault Refusal := .next (slotLaunch s)

/-- A slot goes out of the opposite port with 1 added to HOPS, unless it is stripped (R388). -/
def forwardSlot (p : Nat) (x : Slot) (s : State) : State :=
  let q := otherPort p
  let own : Bool := x.src = ownAddress s
  if own || decide (nodeCount s p ≤ x.hops + 1) || !(ringPort s q).up || !(ringPort s q).forwards then s
  else s.modRing fun r => { r with forwarded := r.forwarded ++ [(q, x.src, x.hops + 1)] }

/-- SLOT_RECEIVE (R388, R389): forwarded or stripped, then used, late, or counted as a CRC error. -/
def slotReceive (p : Nat) (x : Slot) (s : State) : State :=
  if !(ringPort s p).up then s
  else
    let s := forwardSlot p x s
    if x.src = ownAddress s then s
    else if slotCrc x != x.crc then s.atPort p fun q => { q with crcErr := sat 8 (q.crcErr + 1), endBad := q.endBad + 1 }
    else if x.cycle != dueCycle s then lateSlot s
    else deliverSlot p x s

def execSlotReceive (p : Fin 4) (slot : Slot) (s : State) : Host.Outcome State Fault Refusal := .next (slotReceive p slot s)

/-- Aliases of the node of address `addr` that it leaves undelivered are not live here (R402). -/
def aliasLost (addr : Nat) (s : State) : State :=
  ((List.range 128).filter fun k => s.img.nodeUse k = 3 && s.img.nodeType k = addr).foldl (fun s k =>
    s.atNode k fun n => if decide (s.img.lostCyc ≤ n.missing) then { n with live := false, good := 0 } else n) s

/-- NODE_LOST (R402): controllers, and the eyelets of this controller's ring; of an alias only the live bit clears. -/
def nodeLost (addr : Nat) (s : State) : State :=
  let i := addr / 128
  let k := addr % 128
  let lost (n : RingNode) : Bool := n.live && decide (s.img.lostCyc ≤ n.missing)
  if k = 0 then
    if i != s.ring.index && lost (ctrlNode s i) then raise 0x1E4 (s.atCtrl i fun n => { n with live := false, good := 0 }) else s
  else if i = s.ring.index && s.img.eyelets.contains k && lost (eyelet s k) then
    raise (if s.img.nodeUse k = 1 then 0x1E5 else 0x1E6) (s.atNode k fun n => { n with live := false, good := 0 })
  else if i != s.ring.index then aliasLost addr s
  else s

def execNodeLost (addr : BitVec 12) (s : State) : Host.Outcome State Fault Refusal := .next (nodeLost addr.toNat s)

/-- TS_REQ (R398): answered with t2, the arrival, and t3, the departure of TS_RSP. -/
def execTsReq (p : Fin 4) (_t1 arrival departure : Nat) (s : State) : Host.Outcome State Fault Refusal :=
  if (ringPort s p).up then
    .next (sendControl p [stampBlock 0x4C arrival, stampBlock 0x4D departure] <|
      s.atPort p fun x => { x with answer := some (arrival % 2 ^ 56, departure % 2 ^ 56) })
  else .next s

/-- TS_RSP (R398): t4 is taken at its arrival. -/
def execTsRsp (p : Fin 4) (t2 arrival : Nat) (s : State) : Host.Outcome State Fault Refusal :=
  if (ringPort s p).t1.isSome then .next (s.atPort p fun x => { x with t2 := some t2, t4 := some arrival, noRsp := 0 })
  else .next s

/-- Place of a controller among those of the ring, in the order of their indices. -/
def ringPlace (s : State) (i : Nat) : Nat := ((s.ring.index :: otherControllers s).filter fun j => decide (j < i)).length

/-- Index of the time master (R399). -/
def masterIndex (s : State) : Nat :=
  ((List.range 32).find? fun i => i = s.ring.index || ((ctrlNode s i).present && (ctrlNode s i).live)).getD s.ring.index

/-- A copy of the master's slot came by port `p` in the cycle before: the path through it is intact. -/
def pathHeard (s : State) (p : Nat) : Bool := (ctrlNode s (masterIndex s)).heardLast.getLsbD p

/-- The path through upper port `p` to the master is intact as far as this controller sees: the port is up, and the master's
slot came by it, unless it came by neither port (log 111). -/
def pathIntact (s : State) (p : Nat) : Bool :=
  (ringPort s p).up && (pathHeard s p || !pathHeard s (otherPort p))

/-- Port of the steering neighbour: the shorter intact path towards the master, west on a tie (R399). -/
def steeringPort (s : State) : Nat :=
  let n := max 1 s.img.controllers
  let west := (ringPlace s s.ring.index + n - ringPlace s (masterIndex s)) % n
  if !pathIntact s 0 then 1
  else if !pathIntact s 1 then 0
  else if west ≤ n - west then 0
  else 1

/-- Difference of two stamps of 56 bits (table "Ring control blocks"). -/
def stampDiff (a b : Int) : Int := signed 56 (unsigned 56 (a - b))

/-- Link delay of a completed exchange, in 1/64 tick (R398). -/
def linkDelay (t1 t2 t3 t4 : Int) : Int := (stampDiff t4 t1 - stampDiff t3 t2) / 2

/-- The offset to the steering neighbour: synchronised within ±20 ns for 64 cycles, out of range beyond 100 ns; ring time
is steered against it (R399, R400). -/
def Ring.offset (o : Int) (r : Ring) : Ring :=
  let near := if o.natAbs ≤ 128 then r.within + 1 else 0
  { r with err := o, within := near, synced := decide (64 ≤ near), beyond := if 640 < o.natAbs then r.beyond + 1 else 0
           steer := if 0 < o then -1 else if o < 0 then 1 else 0 }

/-- TS_FUP (R398 to R400): DELAY, and at the steering port the offset. -/
def tsFup (p t3 : Nat) (s : State) : State :=
  let x := ringPort s p
  match x.t1, x.t2, x.t4 with
  | some t1, some t2, some t4 =>
    let d := linkDelay t1 t2 t3 t4
    let s := s.atPort p fun x => { x with delay := sat 16 d.toNat, t1 := none, t2 := none, t4 := none }
    if p < 2 && !s.ring.timeMaster && p = steeringPort s then s.modRing (Ring.offset (stampDiff t4 (t3 + d))) else s
  | _, _, _ => s

def execTsFup (p : Fin 4) (t3 : Nat) (s : State) : Host.Outcome State Fault Refusal := .next (tsFup p t3 s)

/-- RING_TIME (R400): beyond 100 ns for 16 cycles; steering goes on at the full rate (log 81). -/
def execRingTime (s : State) : Host.Outcome State Fault Refusal :=
  if s.ring.beyond < 16 then .next s else .next (raise 0x1E2 (s.modRing fun r => { r with beyond := 0 }))

/-- A power-up step on a slave in step 8 (R442): its rails of the slot, and the acknowledgement once they are good. Until step 1 of
the table "Power-up in step 8" has ended the step waits (R48, R431). -/
def seqPowerUp (slot : Nat) (s : State) : State :=
  if isSlave s && s.eng.state = .boot && s.boot.step = 8 && tab s.pwr.domain 0 4 != 2 then
    if slotsReady s then takeStep slot s
    else
      let u : PowerUp := s.pwr.up.getD { slot := slot, compared := false, enabled := false, acks := 0, owed := none }
      s.modPwr fun p => { p with up := some { u with owed := some slot } }
  else s

/-- A slave that follows its master runs off-slot `slot`, and acknowledges after it (R443). -/
def followSlot (slot : Nat) (s : State) : State :=
  match s.pwr.down with
  | some d => if d.cause = .masterStep && !d.done then ackDown (disableSlot slot { d with owed := some slot } s) else s
  | none => s

/-- A shut-down step on a slave (R410, R443): the first one starts the sequence in IDLE and SAFE, where that of a boot failure goes
on by the master's steps (log 48). -/
def seqShutDown (slot : Nat) (s : State) : State :=
  if !isSlave s then s
  else if (s.eng.state = .idle || s.eng.state = .safe) && !s.pwr.down.any (fun d => !d.done && d.cause != .bootFail) then
    followSlot slot (shutDown 0 .masterStep 0x01 0x10 0 s)
  else followSlot slot s

/-- An abort (R409, R437, R443): in BOOT it fails step 8, elsewhere the controller runs its own shut-down sequence,
and one that runs goes on without waiting for the others (log 48). -/
def seqAbort (s : State) : State :=
  match s.eng.state with
  | .boot => bootFail .powerSeq 0 s
  | .down => s.modPwr fun p => { p with down := p.down.map fun d => if d.done then d else { d with cause := .abort, owed := none } }
  | _ => shutDown 0 .abort 0x01 0x10 0 s

/-- An acknowledgement of the slot in progress (R442, R443). -/
def seqAck (slot source : Nat) (s : State) : State :=
  let m : BitVec 32 := 1#32 <<< source
  s.modPwr fun p =>
    { p with up := p.up.map fun u => if u.slot = slot then { u with acks := u.acks ||| m } else u
             down := p.down.map fun d => if d.slot = slot then { d with acks := d.acks ||| m } else d }

/-- What a SEQ block asks of this controller (table "Ring control blocks", R408). -/
def seqAct (b : SeqBlock) (s : State) : State :=
  if b.target != 0xFF && b.target != s.ring.index then s
  else
    match b.command with
    | 0x01 => seqPowerUp b.railSlot s
    | 0x02 => seqShutDown b.railSlot s
    | 0x03 => seqAbort s
    | 0x81 => if isMaster s then seqAck b.railSlot b.source s else s
    | _ => s

/-- SEQ (R408): a block not yet seen is forwarded out of the other upper port and acted on; a repeat is dropped. -/
def seqBlock (p : Nat) (b : SeqBlock) (s : State) : State :=
  if !ringOn s || !(ringPort s p).up || b.source = s.ring.index || s.ring.seqSeen.contains (b.source, b.number) then s
  else
    let q := otherPort p
    let fwd := (ringPort s q).up
    let s := s.modRing fun r => { r with seqSeen := r.seqSeen ++ [(b.source, b.number)]
                                         seqOut := if fwd then r.seqOut ++ [(q, seqRingBlock b)] else r.seqOut }
    seqAct b s

def execSeq (p : Fin 2) (b : SeqBlock) (s : State) : Host.Outcome State Fault Refusal := .next (seqBlock p b s)

/-- Required slaves without an acknowledgement. -/
def unacked (s : State) (acks : BitVec 32) : List Nat := (requiredSlaves s).filter fun i => !acks.getLsbD i

/-- SEQ_STEP_TIMEOUT (R409, R443): the master aborts a power-up, and goes on with a shut-down; a slave without a step
fails. -/
def seqStepTimeout (s : State) : State :=
  if s.eng.state = .boot && s.boot.step = 8 then
    if isSlave s then (if s.pwr.up.any (fun u => u.enabled || u.owed.isSome) then s else bootFail .powerSeq 0 s)
    else
      match s.pwr.up with
      | none => s
      | some u =>
        match unacked s u.acks with
        | [] => s
        | i :: _ => if isMaster s then bootFail .powerSeq i (sendSeq 0x03 u.slot 0xFF s) else s
  else
    match s.pwr.down with
    | some d =>
      if isMaster s && d.cause = .host && d.begun && !d.done then
        let late := (shutSlaves s).filter fun i => !d.acks.getLsbD i
        s.modPwr fun p =>
          { p with slaveNoack := late.foldl (fun m i => m ||| (1#32 <<< i)) p.slaveNoack
                   down := some { d with acks := late.foldl (fun m i => m ||| (1#32 <<< i)) d.acks } }
      else s
    | none => s

def execSeqStepTimeout (s : State) : Host.Outcome State Fault Refusal := .next (seqStepTimeout s)

/-- GROUP_READY (R404): a member's READY is delivered to the leader. -/
def execGroupReady (i : Fin 32) (s : State) : Host.Outcome State Fault Refusal :=
  if groupLeader s then
    .next (s.modRing fun r => { r with group := { r.group with ready := r.group.ready ||| (1#32 <<< i.val) } })
  else .next s

/-- START is delivered to a member whose READY stands (R404): it enters RUN with the leader's F_0. -/
def groupStart (f0 : Int) (s : State) : State :=
  match s.host.runWait with
  | none => s
  | some w =>
    if !groupMember s || s.ring.group.msg != .ready then s
    else
      match s.job? w.job with
      | none => dropWait w (if waitStale w s then .state else .notReady) s
      | some j =>
        if waitStale w s then dropWait w .state s
        else if !entryReady w j s then dropWait w .notReady s
        else
          let s := enterRun w j (some f0) s
          s.modRing fun r => { r with group := { r.group with msg := .none, halts := [] } }

def execGroupStart (f0 : Int) (s : State) : Host.Outcome State Fault Refusal := .next (groupStart f0 s)

/-- A halt of the group waits for its position (R406). -/
def haltPending (s : State) : Bool :=
  !s.ring.group.halts.isEmpty && (s.eng.state = .run || (s.eng.state = .halting && s.run.halt.isNone))

/-- The smallest H held. -/
def haltPosition (s : State) : Int := minI (s.ring.group.halts.headD 0) s.ring.group.halts

/-- R185 with X_h = H, on every controller of the group (R406). -/
def applyGroupHalt (s : State) : State :=
  let h := haltPosition s
  let s := unstartNow s
  let z := haltStopAt s (h * lineAu)
  let s := s.modRun fun r => { r with halt := some z }
  let s := s.modRing fun r => { r with group := { r.group with halts := [] } }
  if s.eng.state = .run then enterState 0 .halting 0x04 (setStop .halt s)
  else if s.anch.still then haltExit s
  else s

/-- GROUP_HALT_POSITION (R406): the follower has reached H. -/
def groupHaltPosition (s : State) : State :=
  if haltPending s && decide (haltPosition s ≤ s.line) then applyGroupHalt s else s

def execGroupHaltPosition (s : State) : Host.Outcome State Fault Refusal := .next (groupHaltPosition s)

/-- GROUP_HALT (R406): H is held until the follower reaches it, at once if it has; after a plan it has no effect. -/
def groupHalt (h : Int) (s : State) : State :=
  if s.img.group.isNone || !(s.eng.state = .run || (s.eng.state = .halting && s.run.halt.isNone)) then s
  else groupHaltPosition (s.modRing fun r => { r with group := { r.group with halts := h :: r.group.halts } })

def execGroupHalt (h : Int) (s : State) : Host.Outcome State Fault Refusal := .next (groupHalt h s)

/-- GROUP_TIMEOUT (R404): the waiting message completes TIMEOUT, and READY is withdrawn. -/
def execGroupTimeout (s : State) : Host.Outcome State Fault Refusal :=
  match s.host.runWait with
  | none => .next s
  | some w => if s.img.group.isSome then .next (dropWait w .timeout s) else .next s

end Sys2Proof.Machine
end

