-- ==== Sys2Proof/Machine/Clocks.lean ====
section
/-! DEFINITION. The loss and return of REF, the backup oscillator, unlocked PLLs and temperature compensation (R196 to R200,
R213, R214). -/

namespace Sys2Proof.Machine

open Sys2Proof.Bits

/-- The PLLs that use REF change to BACKUP ÷ 4, unless BACKUP has failed (R198, R200). -/
def Clock.toBackup (now : Nat) (c : Clock) : Clock :=
  if c.onBackup || !c.backupOk then c else { c with onBackup := true, returnReady := false, changed := some now }

def toBackup (s : State) : State := s.modClk (Clock.toBackup s.eng.sincePor)

/-- For 100 µs after a change of the reference no PLL that uses it counts as unlocked (R198). -/
def unlockOff (s : State) (i : Nat) : Bool := i != 6 && s.clk.changed.any fun t => decide (s.eng.sincePor < t + 10000)

/-- REF is lost (R197); in BOOT the boot ends. -/
def refGone (s : State) : State :=
  if !s.clk.refOk then s
  else
    let s := toBackup (setsBit 0x4000 24 <| s.modClk fun c => { c with refOk := false, refLostSeen := true, returnReady := false })
    let boot := s.eng.state = .boot
    let s := condOn 0x030 s
    if boot then bootFail .xtal 0 s else s

/-- REF_LOST (R197, R198). -/
def execRefLost (s : State) : Host.Outcome State Fault Refusal := .next (refGone s)

/-- BACKUP fails its check (R200; log 63). -/
def backupGone (s : State) : State := condOn 0x031 (s.modClk fun c => { c with backupOk := false })

/-- CLOCK_MONITOR_WINDOW (R197, R200): REF edges in 40 µs of BACKUP against 1,000 (log 63). -/
def clockWindow (n : Nat) (s : State) : State :=
  let d := ((n : Int) - 1000).natAbs
  let s := if 20 < d then backupGone s else s
  if 10 < d then refGone s
  else if s.eng.state = .boot && decide (s.boot.step ≤ 3) && !s.clk.refOk then s
  else condOff 0x030 (s.modClk fun c => { c with refOk := true })

def execClockMonitorWindow (refCount : Nat) (s : State) : Host.Outcome State Fault Refusal := .next (clockWindow refCount s)

/-- The PLLs that use REF change back, and declare lock again (R193, R199). -/
def Clock.fromBackup (now : Nat) (c : Clock) : Clock :=
  { c with onBackup := false, returnReady := false, changed := some now
           pll := Vector.ofFn fun i => if i = 6 then c.pll[i] else { c.pll[i] with locked := false } }

/-- REF_RETURN (R199): REF has met its tolerance for 10 ms. -/
def refReturns (s : State) : State :=
  if !s.clk.onBackup || !s.clk.refOk then s
  else if (s.eng.state = .idle || s.eng.state = .safe || s.eng.state = .service) && s.img.refReturn then
    s.modClk (Clock.fromBackup s.eng.sincePor)
  else s.modClk fun c => { c with returnReady := true }

def execRefReturn (s : State) : Host.Outcome State Fault Refusal := .next (refReturns s)

/-- What an unlocked PLL does (table "Consequences of an unlock"). -/
def unlockEffect (i : Nat) (s : State) : State :=
  if i = 0 then toBackup s
  else if i ≤ 4 then
    [2 * (i - 1), 2 * (i - 1) + 1].foldl (fun s n => darkNow n .pll 0x06 (0x032 + i) s) s
  else if i = 5 then ringPortsOff s
  else if i = 6 then hostLinkReset s
  else s

/-- PLL_UNLOCK (R196, R198). -/
def pllUnlocks (i : Nat) (s : State) : State :=
  if !(pll s i).locked || unlockOff s i then s
  else
    let s := s.modClk fun c => { c with pll := updAt c.pll i fun p => { p with locked := false, unlockSeen := true } }
    condOn (0x032 + i) (unlockEffect i (setsBit 0x4000 (16 + i) s))

def execPllUnlock (i : Fin 8) (s : State) : Host.Outcome State Fault Refusal := .next (pllUnlocks i.val s)

/-- A trim code moves by at most 1 LSB (R213). -/
def stepCode (w : Nat) (target : Int) (n : Nat) : Nat := (clampI 0 (2 ^ w - 1) (n + clampI (-1) 1 (target - n))).toNat

/-- Linear interpolation in the 12 points of an item's table, at −40 °C to +125 °C in steps of 15 °C, rounded to nearest
(R213; log 15). -/
def tempTable (item : Nat) (x : Int) (t : List (Nat × Word)) : Int :=
  let i := min 10 ((x + 400) / 150).toNat
  let p := Config.tempPoint item i t
  p + divNear ((Config.tempPoint item (i + 1) t - p) * (x + 400 - 150 * i)) 150

/-- Corrections at the temperatures of the sensors next to PD0 and PD8, held at the table's ends (R213, R214). -/
def compensate (a b : Int) (t : List (Nat × Word)) (c : Clock) : Clock :=
  let a := clampI (-400) 1250 a
  let b := clampI (-400) 1250 b
  { c with backupTrim := stepCode 12 (tempTable 0 a t) c.backupTrim
           aonTrim := stepCode 10 (tempTable 1 a t) c.aonTrim
           thermGain := c.thermGain + clampI (-1) 1 (tempTable 2 b t - c.thermGain)
           diodeGain := c.diodeGain + clampI (-1) 1 (tempTable 3 b t - c.diodeGain) }

/-- Outside −40 °C to +125 °C (R214). -/
def tempOutside (t : Int) : Bool := decide (t < -400) || decide (1250 < t)

/-- Reading of on-die sensor `k` in 0.1 °C: a broken one reads 500.0 °C (R368). -/
def dieReading (s : State) (k : Nat) (t : Int) : Int := if tab s.therm.broken false (20 + k) then 5000 else t

/-- TEMPERATURE_COMPENSATION_UPDATE (R213, R214, R368); with TRIM_DEFAULT none runs. -/
def tempUpdate (pd0 pd8 : Int) (s : State) : State :=
  if s.boot.trimDefault then s.modClk fun c => { c with tempActive := false }
  else
    let a := dieReading s 0 pd0
    let b := dieReading s 1 pd8
    let out := tempOutside a || tempOutside b
    let t := s.otp.shadow.filter fun x => decide (x.1 < 256)
    let s := s.modClk fun c => { compensate a b t c with tempActive := true, clamped := c.clamped || out }
    condSet 0x03A out (if out then setsBit 0x4004 30 s else s)

def execTemperatureCompensationUpdate (pd0 pd8 : Int) (s : State) : Host.Outcome State Fault Refusal :=
  .next (tempUpdate pd0 pd8 s)

end Sys2Proof.Machine
end

