-- ==== Sys2Proof/Machine/Consumables.lean ====
section
/-! DEFINITION. Consumable tags: synchronisation, polling, the mirrors and the lifetime counters (R461 to R468, R493). -/

namespace Sys2Proof.Machine

open Sys2Proof.Bits

def tagOf (s : State) (i : Nat) : Tag := tab s.cons.tag Tag.reset i

def State.atTag (s : State) (i : Nat) (f : Tag → Tag) : State := s.modCons fun c => { c with tag := updAt c.tag i f }

/-- The states in which tags are synchronised (R466). -/
def syncState (s : State) : Bool :=
  match s.eng.state with | .idle | .armed | .run | .halting | .service => true | _ => false

/-- The exchange in progress, or the next one, is of the periodic round: a CONSUMABLE_SYNC starts after the
synchronisation in progress ends (R467; log 40). -/
def periodicNow (s : State) : Bool :=
  match s.cons.cur with | some x => x.periodic | none => s.host.syncReq.isNone

/-- Tags still to synchronise: those of CONSUMABLE_SYNC, else those of the periodic round (log 40). -/
def syncList (s : State) : List Nat :=
  if periodicNow s then s.cons.queue else match s.host.syncReq with | some (_, l, _) => l | none => []

/-- A CONSUMABLE_SYNC with no tag left completes (R467). -/
def syncDone (s : State) : State :=
  match s.host.syncReq with
  | some (r, [], n) => complete r .ok n (s.modHost fun h => { h with syncReq := none })
  | _ => s

/-- The synchronisation of tag `i` has ended. -/
def endTag (i : Nat) (authed : Bool) (s : State) : State :=
  if periodicNow s then s.modCons fun c => { c with cur := none, queue := c.queue.filter (· != i) }
  else
    syncDone ((s.modCons fun c => { c with cur := none }).modHost fun h =>
      { h with syncReq := h.syncReq.map fun x => (x.1, x.2.1.filter (· != i), x.2.2 + b2n authed) })

/-- Tags that the mask names; 0 names every tag present (table "Message payloads", log 40). -/
def maskTags (s : State) (m : BitVec 32) : List Nat :=
  (List.range 32).filter fun i => if m = 0 then (tagOf s i).present else m.getLsbD i

/-- CONSUMABLE_SYNC (R467). -/
def consumableSync (h : MsgHdr) (tags : BitVec 32) (s : State) : State :=
  message h (jobZero h) syncState anyRange (fun r s =>
    if s.host.syncReq.isSome then reject r .busy s
    else syncDone (s.modHost fun x => { x with syncReq := some (r, maskTags s tags, 0) })) s

def execConsumableSync (h : MsgHdr) (tags : BitVec 32) (s : State) : Host.Outcome State Fault Refusal :=
  .next (consumableSync h tags s)

/-- CONSUMABLE_SYNC_TIMER (R466). -/
def execConsumableSyncTimer (s : State) : Host.Outcome State Fault Refusal :=
  .next (if syncState s && s.cons.queue.isEmpty then s.modCons fun c => { c with queue := s.img.tagsUsed } else s)

/-- Region 6 permits authentication (R461). -/
def rootUsable (s : State) : Bool := regionValid s 6 && s.otp.wlock.getLsbD 6 && s.otp.rlock.getLsbD 6

/-- CONSUMABLE_AUTH of R461, once per boot. -/
def rootRefused (s : State) : State :=
  if s.cons.rootRaised then s else raise 0x1F8 (s.modCons fun c => { c with rootRaised := true })

/-- K_tag (R461). -/
def tagKey (s : State) (id : List Byte) (kind : Nat) : List Byte :=
  Crypto.aes128 (regionBytes s 6 0 16) (id ++ toLE 1 kind ++ List.replicate 7 0)

/-- N (R462). -/
def tagNonce (key : List Byte) (now counter : Nat) : List Byte := Crypto.aes128 key (toLE 8 now ++ toLE 8 counter)

/-- WRITER (R462). -/
def tagWriter (s : State) : Nat := serial s % 2 ^ 32

/-- A try that did not complete: the tag is tried up to 3 times, and then counts as absent when `bus` (R467). -/
def tryFailed (i tries : Nat) (bus : Bool) (s : State) : State :=
  if tries < 3 then
    let per := periodicNow s
    s.modCons fun c =>
      { c with cur := some { tag := Fin.ofNat 32 i, tries := tries, header := [], nonce := [], key := [], polls := 0, periodic := per } }
  else if bus then endTag i false (raise 0x1F9 (s.atTag i fun t => { t with present := false }))
  else endTag i false s

/-- Another tag stands at the address: its pending usage is discarded, and its count becomes the confirmed count (R465). -/
def newTag (id : List Byte) (kind count : Nat) (t : Tag) : Tag :=
  { t with id := id, kind := kind, confirmed := count, pending := 0, flight := none, frac := 0, stored := count }

/-- Pending usage of another tag than the one that answered is discarded and logged (R465; log 127). -/
def logDiscarded (i : Nat) (id : List Byte) (s : State) : State :=
  let t := tagOf s i
  if t.id = id || t.pending = 0 then s
  else s.modCons fun c => { c with discarded := c.discarded ++ [(i, t.id, t.pending)] }

/-- Steps 2 and 3 of R462: N, the command, and TXN and DELTA in flight. -/
def sendCommand (i tries : Nat) (h : List Byte) (s : State) : State :=
  let id := h.take 8
  let key := tagKey s id (byteAt h 8)
  let n := tagNonce key s.now s.cons.counter
  let t := tagOf s i
  let f := t.flight.getD ((t.txn + 1) % 2 ^ 32, t.pending)
  let per := periodicNow s
  let s := s.atTag i fun t => { t with txn := f.1, flight := some f }
  s.modCons fun c =>
    { c with counter := (c.counter + 1) % 2 ^ 64,
             cur := some { tag := Fin.ofNat 32 i, tries := tries, header := h, nonce := n, key := key, polls := 0, periodic := per },
             out := c.out ++ [(i, n ++ toLE 4 f.1 ++ toLE 4 (tagWriter s) ++ toLE 4 f.2 ++ toLE 4 0)] }

/-- The header of tag `i` (R461, R462, R465, table "Tag entry"). -/
def takeHeader (i tries : Nat) (h : List Byte) (s : State) : State :=
  let kind := byteAt h 8
  let s := (logDiscarded i (h.take 8) s).atTag i fun t =>
    let t := if t.id = h.take 8 then t else newTag (h.take 8) kind (u32 h 12) t
    { t with present := true, first := false, kind := kind }
  let s := if s.img.tagKind i != 0 && s.img.tagKind i != kind then raise 0x1F8 s else s
  if rootUsable s then sendCommand i tries h s
  else endTag i false (rootRefused (s.atTag i fun t => { t with auth := false }))

/-- Tries used by the exchange that goes on with tag `i`; none while another exchange is in progress. -/
def triesOf (s : State) (i : Nat) : Option Nat :=
  match s.cons.cur with
  | none => some 0
  | some x => if x.tag.val = i && x.header.isEmpty then some x.tries else none

/-- TAG_SYNCHRONISATION (R462, R466, R467): the header that the tag answered, none for a NACK or a held bus. -/
def tagSync (i : Nat) (answer : Option (List Byte)) (s : State) : State :=
  match triesOf s i with
  | none => s
  | some k =>
    if !syncState s || (syncList s).head? != some i then s
    else
      let s := (chargeHeaters s).modCons fun c => { c with tagShown := i }
      match answer with
      | some h => takeHeader i (k + 1) h s
      | none => tryFailed i (k + 1) true s

def execTagSynchronisation (i : Fin 32) (answer : Option (List Byte)) (s : State) : Host.Outcome State Fault Refusal :=
  .next (tagSync i.val answer s)

/-- The message that the MAC covers (R462). -/
def macInput (s : State) (x : Exchange) (txn delta count : Nat) : List Byte :=
  x.nonce ++ x.header.take 8 ++ (x.header.drop 8).take 1 ++ toLE 4 txn ++ toLE 4 (tagWriter s) ++ toLE 4 delta ++ toLE 4 count

/-- A match: the count is confirmed, and its usage no longer pends (R462, R464, R465). -/
def Tag.confirm (delta count : Nat) (t : Tag) : Tag :=
  let t := { t with auth := true, confirmed := count, pending := t.pending - delta, flight := none }
  { t with stored := t.mirror }

/-- A response with STATUS 0x00 (R462). -/
def takeResponse (x : Exchange) (a : List Byte) (s : State) : State :=
  let i := x.tag.val
  let f := (tagOf s i).flight.getD (0, 0)
  let count := u32 a 4
  if Crypto.cmac x.key (macInput s x f.1 f.2 count) = (a.drop 8).take 16 && decide (u32 x.header 12 ≤ count) then
    endTag i true (s.atTag i (Tag.confirm f.2 count))
  else endTag i false (raise 0x1F8 (s.atTag i fun t => { t with auth := false }))

/-- TAG_POLL (R462, R467): every 1 ms, for at most 10 ms. -/
def tagPoll (answer : Option (List Byte)) (s : State) : State :=
  match s.cons.cur with
  | none => s
  | some x =>
    if x.header.isEmpty then s
    else
      match answer with
      | none => tryFailed x.tag.val x.tries true s
      | some a =>
        if byteAt a 0 = 0 then takeResponse x a s
        else if 10 ≤ x.polls + 1 then tryFailed x.tag.val x.tries false s
        else s.modCons fun c => { c with cur := some { x with polls := x.polls + 1 } }

def execTagPoll (answer : Option (List Byte)) (s : State) : Host.Outcome State Fault Refusal := .next (tagPoll answer s)

/-- USAGE_MIRROR_PERSIST (R465). -/
def execUsageMirrorPersist (s : State) : Host.Outcome State Fault Refusal :=
  .next ((chargeHeaters s).modCons fun c => { c with tag := c.tag.map fun t => { t with stored := t.mirror } })

/-- LIFETIME_COUNTER_PERSIST (R493). -/
def execLifetimeCounterPersist (s : State) : Host.Outcome State Fault Refusal := .next (persistLife s)

end Sys2Proof.Machine
end

