-- ==== Sys2Proof/Machine/Dma.lean ====
section
/-! DEFINITION. Commands of the DMA engine and of the check units (R473 to R485). -/

namespace Sys2Proof.Machine

open Sys2Proof.Bits

/-- START (R479). -/
def dmaStart (k : Nat) (s : State) : State :=
  if (s.ch k).state != .idle then s
  else s.atCh k fun c => { c.rest with state := .running, pc := c.entry, loops := [], dbPend := false }

/-- STOP (R479): a WAIT is abandoned at once; another instruction in progress ends first (log 58). -/
def dmaStop (k : Nat) (s : State) : State :=
  let c := s.ch k
  match c.state with
  | .waiting => s.atCh k fun c => { c.rest with state := .stopped }
  | .running => s.atCh k fun c => if c.cur.isSome then { c with stopReq := true } else { c.rest with state := .stopped }
  | _ => s

/-- RESUME (R479). -/
def dmaResume (k : Nat) (s : State) : State :=
  match (s.ch k).state with
  | .stopped | .halted => s.atCh k fun c => { c.rest with state := .running }
  | _ => s

/-- RESET (R479). -/
def dmaReset (k : Nat) (s : State) : State :=
  match (s.ch k).state with
  | .ended | .stopped | .halted => s.atCh k fun c => { c.rest with state := .idle, loops := [] }
  | _ => s

/-- A BAR0 write reaches the DMA block: PD1 operates (R503). -/
def dmaWritable (s : State) : Bool := barOpen s && collectorOn s

def execDmaStart (ch : Fin 16) (s : State) : Host.Outcome State Fault Refusal :=
  .next (if dmaWritable s then dmaStart ch.val s else s)

def execDmaStop (ch : Fin 16) (s : State) : Host.Outcome State Fault Refusal :=
  .next (if dmaWritable s then dmaServe (dmaStop ch.val s) else s)

def execDmaResume (ch : Fin 16) (s : State) : Host.Outcome State Fault Refusal :=
  .next (if dmaWritable s then dmaResume ch.val s else s)

def execDmaReset (ch : Fin 16) (s : State) : Host.Outcome State Fault Refusal :=
  .next (if dmaWritable s then dmaReset ch.val s else s)

/-- A write of CHn_TAIL (R482). -/
def writeChanTail (k v : Nat) (s : State) : State :=
  s.atCh k fun c =>
    let c := { c with tail := v % 16384, dbPend := true }
    if c.state = .ended then { c.rest with state := .running, pc := c.endAt } else c

/-- DMA_TAIL_WRITE (R482). -/
def execDmaTailWrite (ch : Fin 16) (value : Word) (s : State) : Host.Outcome State Fault Refusal :=
  .next (if dmaWritable s then writeChanTail ch.val value.toNat s else s)

/-- A write of CHn_CFG. -/
def writeChanCfg (k v : Nat) (s : State) : State :=
  s.atCh k fun c =>
    if c.state = .running || c.state = .waiting then c
    else { c with vector := field v 5 0, irqEn := bit v 6, poison := bit v 7 }

/-- DMA_CONFIG_WRITE (R6). -/
def execDmaConfigWrite (ch : Fin 16) (value : Word) (s : State) : Host.Outcome State Fault Refusal :=
  .next (if dmaWritable s then writeChanCfg ch.val value.toNat s else s)

/-- MOVE (R475, R478). -/
def execMove (ch : Fin 16) (h : DmaHost) (ecc : List (Nat × EccRead)) (s : State) : Host.Outcome State Fault Refusal :=
  .next (dmaExec ch.val 0x01 (fun o s => match o with
    | .move _ _ _ _ _ _ _ => dmaBegin ch.val h ecc s
    | _ => s) s)

/-- LOOP (R475). -/
def execLoop (ch : Fin 16) (s : State) : Host.Outcome State Fault Refusal :=
  .next (dmaExec ch.val 0x02 (fun o s => match o with | .loop n b => dmaLoop ch.val n b s | _ => s) s)

/-- WAIT (R476). -/
def execWait (ch : Fin 16) (s : State) : Host.Outcome State Fault Refusal :=
  .next (dmaExec ch.val 0x03 (fun o s => match o with
    | .wait _ _ _ => s.atCh ch.val fun c => { c with state := .waiting, waitStart := s.eng.sincePor, seen := false }
    | _ => s) s)

/-- WAIT_COMPLETE (R476). -/
def execWaitComplete (ch : Fin 16) (s : State) : Host.Outcome State Fault Refusal :=
  let c := s.ch ch.val
  if !dmaOn s || c.state != .waiting then .next s
  else match c.cur.bind decodeDma with
    | some (.wait kind event ticks) =>
      .next (match waitDone ch.val kind event ticks s with
        | some s => dmaBoundary ch.val (c.pc + 1 : Nat) s
        | none => s)
    | _ => .next s

/-- SIGNAL (R477). -/
def execSignal (ch : Fin 16) (s : State) : Host.Outcome State Fault Refusal :=
  .next (dmaExec ch.val 0x04 (fun o s => match o with
    | .signal irq half full ev e => dmaSignal ch.val irq half full ev e s
    | _ => s) s)

/-- SCAN (R484). -/
def execScan (ch : Fin 16) (h : DmaHost) (ecc : List (Nat × EccRead)) (s : State) : Host.Outcome State Fault Refusal :=
  .next (dmaExec ch.val 0x05 (fun o s => match o with
    | .scan init _ _ u _ _ _ => dmaScan ch.val h ecc init u s
    | _ => s) s)

/-- JUMP (R475). -/
def execJump (ch : Fin 16) (s : State) : Host.Outcome State Fault Refusal :=
  .next (dmaExec ch.val 0x06 (fun o s => match o with
    | .jump t => dmaBoundary ch.val (t : Nat) (s.atCh ch.val fun c => { c with loops := [] })
    | _ => s) s)

/-- END (table "Channel state codes"). -/
def execDmaEnd (ch : Fin 16) (s : State) : Host.Outcome State Fault Refusal :=
  .next (dmaExec ch.val 0x07 (fun o s => match o with
    | .done => s.atCh ch.val fun c => { c.rest with state := .ended, endAt := c.pc }
    | _ => s) s)

/-- NOP. -/
def execNop (ch : Fin 16) (s : State) : Host.Outcome State Fault Refusal :=
  .next (dmaExec ch.val 0x0F (fun o s => match o with
    | .nop => dmaBoundary ch.val ((s.ch ch.val).pc + 1 : Nat) s
    | _ => s) s)

/-- The instruction at hand is none of the table's, or cannot be read (R473, R481). -/
def slotIllegal (s : State) (c : Chan) : Bool :=
  (c.cur.isNone && slotBad s c.pc) || (decodeDma (chanWords s c)).isNone

/-- The instruction in progress writes the store. -/
def writesStore (c : Chan) : Bool := match c.cur.bind decodeDma with | some (.move _ _ _ 1 _ _ _) => true | _ => false

/-- The last bursts of an issued instruction are answered (R474, R480). -/
def dmaAnswered (k : Nat) (x : DmaAnswer) (s : State) : State :=
  let c := s.ch k
  match x with
  | .ok => if c.hostOut.isSome && c.failed.isNone then s else dmaFinish k c.failed s
  | .readError a => if c.hostOut.isSome then dmaFinish k (c.failed.or (some (.readError, a, 0))) s else s
  | .timeout a => if c.hostOut.isSome then dmaFinish k (c.failed.or (some (.timeout, a, 0))) s else s
  | .writeRefused a => if writesStore c then dmaFinish k (c.failed.or (some (.refusedWrite, a, 1))) s else s

/-- A burst of an instruction with more to serve fails (R480): no further one is served. -/
def dmaBurstFails (k : Nat) (x : DmaAnswer) (s : State) : State :=
  let c := s.ch k
  let fail (e : DmaErr) (a sp : Nat) := s.atCh k fun c => { c with failed := c.failed.or (some (e, a, sp)) }
  match x with
  | .ok => s
  | .readError a => if c.hostOut.isSome then fail .readError a 0 else s
  | .timeout a => if c.hostOut.isSome then fail .timeout a 0 else s
  | .writeRefused a => if writesStore c then fail .refusedWrite a 1 else s

/-- DMA_INSTRUCTION_COMPLETE (R474, R480); with bursts still to serve, the round goes on; where the channel stands before an illegal instruction, that fails. -/
def execDmaInstructionComplete (ch : Fin 16) (x : DmaAnswer) (s : State) : Host.Outcome State Fault Refusal :=
  let c := s.ch ch.val
  if !dmaOn s || c.state != .running then .next s
  else if c.issued then .next (dmaAnswered ch.val x s)
  else if c.work.isSome then .next (dmaServe (dmaBurstFails ch.val x s))
  else .next (if slotIllegal s c then dmaHaltOpen ch.val .illegal s else s)

/-- A write of CUu_RUN (R485). -/
def writeCuRun (u v : Nat) (s : State) : State :=
  s.atCu u fun x => if x.busy then x else { x with run := v % 2 ^ (polyOf x.poly).width, done := false }

/-- CHECK_UNIT_RUN_WRITE (R485). -/
def execCheckUnitRunWrite (u : Fin 4) (value : Word) (s : State) : Host.Outcome State Fault Refusal :=
  .next (if dmaWritable s then writeCuRun u.val value.toNat s else s)

end Sys2Proof.Machine
end

