-- ==== Sys2Proof/Machine/SpOps.lean ====
section
/-! DEFINITION. Spindle channels: run commands, channel states, the speed loop and field weakening (R257 to R281). -/

namespace Sys2Proof.Machine

open Sys2Proof.Bits

/-- A channel by its number. -/
def chan (s : State) (n : Nat) : Spindle := tab s.sp Spindle.reset n

/-- 2²⁴: the unit of speeds and currents of the loop. -/
def q24 : Nat := 16777216

/-- A binary32 field of channel `n` in 2⁻²⁴ of its unit. -/
def spQ (l : Img) (n i : Nat) : Int := Fp.floorTimes (l.spF n i) q24

/-- SPEED_MAX limits a command of a pin (R259). -/
def limitCmd (l : Img) (n : Nat) (v : Int) : Int := min v (spQ l n 64)

/-- The speed command of channel `n` with another source than FACET, in 2⁻²⁴ rpm; negative only from PARAM_SET. -/
def speedCmd (s : State) (n : Nat) : Int :=
  let c := chan s n
  if s.img.spSource n = 4 then Fp.floorTimes c.param q24 else limitCmd s.img n c.cmd

/-- The command of channel `n` is not 0, however small (table "Run command"). -/
def cmdGiven (s : State) (n : Nat) : Bool :=
  if s.img.spSource n = 4 then decide (Fp.exact (chan s n).param ≠ 0) else decide (speedCmd s n ≠ 0)

/-- Run command of channel `n` (table "Run command"). -/
def runWanted (s : State) (n : Nat) : Bool :=
  s.img.spindleEn n && s.img.has 9 &&
  match s.eng.state with
  | .idle => if s.img.spSource n = 0 then decide (s.eng.target = some .armed) else cmdGiven s n
  | .armed | .run | .halting | .belay => decide (s.img.spSource n = 0) || cmdGiven s n
  | .service => decide (s.img.spSource n ≠ 0) && cmdGiven s n
  | _ => false

/-- Direction of the command: the sign of PARAM_SET's value for an auxiliary channel, DIR else (R259, R277). -/
def dirWanted (s : State) (n : Nat) : Bool :=
  if s.img.spMode n = 1 && s.img.spSource n = 4 then decide (speedCmd s n < 0) else decide (s.img.spB n 15 = 1)

/-- Gates in ALIGN: U to V and W (R268). -/
def gatesAlign : BitVec 6 := 0b101001
/-- Gates in SHORT: UL, VL and WL (table "Channel state codes"). -/
def gatesShort : BitVec 6 := 0b101010

/-- High and low leg of each sector (log 38). -/
def sectorLegs (k : Nat) : Nat × Nat :=
  match k % 6 with | 0 => (0, 1) | 1 => (0, 2) | 2 => (1, 2) | 3 => (1, 0) | 4 => (2, 0) | _ => (2, 1)

/-- Gates of a six-step sector: the modulated high gate and the held low gate. -/
def gatesSector (k : Nat) : BitVec 6 := (1#6 <<< (2 * (sectorLegs k).1)) ||| (1#6 <<< (2 * (sectorLegs k).2 + 1))

/-- High gates that R289 holds low. -/
def heldHigh (h : BitVec 3) : BitVec 6 :=
  (if h.getLsbD 0 then 1 else 0) ||| (if h.getLsbD 1 then 4 else 0) ||| (if h.getLsbD 2 then 16 else 0)

/-- The sector after one, and the sector before it, in the channel's direction. -/
def Spindle.nextSector (c : Spindle) : Nat := (c.sector + if c.reverse then 5 else 1) % 6
def Spindle.prevSector (c : Spindle) : Nat := (c.sector + if c.reverse then 1 else 5) % 6

/-- Sectors between which the commutation lies that is `x` away: before θ_c the present one and the next, then the one before
and the present one. -/
def Spindle.across (x : Int) (c : Spindle) : Nat × Nat :=
  if 0 < x then (c.sector, c.nextSector) else (c.prevSector, c.sector)

/-- Gates of a driven channel: those of its sector, and within a softening ramp those of both sectors (R266). -/
def Spindle.gatesDriven (c : Spindle) : BitVec 6 :=
  match c.comm with
  | some x =>
    if 0 < c.outDuty && 0 < c.inDuty then gatesSector (c.across x).1 ||| gatesSector (c.across x).2 else gatesSector c.sector
  | none => gatesSector c.sector

/-- Gates of a channel by its state, with the holds of R288 and R289. -/
def Spindle.gatesNow (vcpUv : Bool) (c : Spindle) : BitVec 6 :=
  let g : BitVec 6 := match c.state with
    | .align => gatesAlign
    | .ramp | .closed | .brake => c.gatesDriven
    | .short => gatesShort
    | _ => 0
  (g &&& ~~~(heldHigh c.bsHold)) &&& (if vcpUv then 0b010101 else 0b111111)

/-- The gate outputs of channel `n`: none on in BOOT and SAFE (R258). -/
def setGates (n : Nat) (s : State) : State :=
  s.atSp n fun c => { c with gates := if s.eng.state = .boot || s.eng.state = .safe then 0 else c.gatesNow s.spBus.vcpUv }

/-- A commutation under way goes on between CLOSED and BRAKE, and ends with either state. -/
def Spindle.keepComm (toV : SpState) (c : Spindle) : Option Int :=
  if (c.state = .closed || c.state = .brake) && (toV = .closed || toV = .brake) then c.comm else none

/-- Channel `n` enters a state by a row of the table "Channel transitions", `f` adjusting it. -/
def enterSp (n : Nat) (toV : SpState) (f : Spindle → Spindle) (s : State) : State :=
  setGates n (s.atSp n fun c => f { c.mark with state := toV, agree := 0, comm := c.keepComm toV })

/-- Row 1: SENSE with a new start. -/
def startSense (n : Nat) (s : State) : State :=
  enterSp n .sense (fun c => { c with tries := 0, fresh := false, duty := 0, lastInterval := none, resting := false, braking := false }) s

/-- Row 17 from SENSE while the gates are inhibited. -/
def senseOrCoast (n : Nat) (s : State) : State :=
  let s := startSense n s
  if gatesInhibited s then dropChannel n .coast 0 s else s

/-- OFF: the rotor is still. A run command that holds starts it again; STATE_SET IDLE may wait for it, at the tick's end
(R25, R264). -/
def enterOff (n : Nat) (s : State) : State :=
  let s := enterSp n .off (fun c => { c with fresh := false, speed := 0, duty := 0, setPoint := 0, catching := false,
                                             resting := false, braking := false, lastInterval := none }) s
  if runWanted s n && !(chan s n).barred then senseOrCoast n s else s.atSp n (Spindle.owe .off)

/-- Rows 2 and 14: ALIGN in the commanded direction at I_ALIGN (R268), with fresh start tries where a start begins here
(R281; log 99). -/
def enterAlign (n : Nat) (s : State) : State :=
  let d := dirWanted s n
  let i := spQ s.img n 40
  enterSp n .align (fun c =>
    { c with reverse := d, tries := if c.fresh then 0 else c.tries, fresh := false, speed := 0, iCmd := i, braking := false }) s

/-- 60° electrical in 2⁻²⁴ degree. -/
def deg60 : Int := 60 * q24

/-- Row 4: RAMP at I_RAMP, from standstill, 60° from the first commutation (R268). -/
def enterRamp (n : Nat) (s : State) : State :=
  let i := spQ s.img n 44
  enterSp n .ramp (fun c =>
    { c with sector := 0, lastInterval := none, iCmd := i, rampRate := 0, comm := some deg60, outDuty := 0, inDuty := 0 }) s

/-- Speed in the channel's direction in 2⁻²⁴ rpm. -/
def Spindle.forward (c : Spindle) : Int := (if c.reverse then -c.speed else c.speed) * 1048576

/-- Rows 5, 10 and 11: CLOSED; the loop starts with its integral at 0 and its set-point at the present speed. -/
def enterClosed (n : Nat) (s : State) : State :=
  enterSp n .closed (fun c => { c with integ := 0, setPoint := c.forward, catching := false, resting := false, braking := false }) s

/-- Rows 6, 9, 12 and 16: SHORT. -/
def enterShort (n : Nat) (s : State) : State := enterSp n .short (fun c => { c with duty := 0, catching := false }) s

/-- Row 7: BRAKE. -/
def enterBrake (n : Nat) (s : State) : State := enterSp n .brake (fun c => { c with braking := true }) (leaveLock n 0 s)

/-- Speed at or below W_LOW, which is RAMP_END ÷ 2. -/
def atLow (s : State) (n : Nat) : Bool := decide (2 * ((chan s n).speed.natAbs : Int) * 1048576 ≤ spQ s.img n 52)

/-- Speed at or above RAMP_END. -/
def atRampEnd (s : State) (n : Nat) : Bool := decide (spQ s.img n 52 ≤ ((chan s n).speed.natAbs : Int) * 1048576)

/-- Speed at or above CATCH_MIN. -/
def aboveCatch (s : State) (n : Nat) : Bool := decide (spQ s.img n 68 ≤ ((chan s n).speed.natAbs : Int) * 1048576)

/-- SP_DRIVE of channel `n`. -/
def spDrive (n : Nat) (s : State) : State := raise (0x044 + 5 * n) s

/-- Row 6: one start try is used (R269). -/
def rampFailed (n : Nat) (s : State) : State := enterShort n (s.atSp n fun c => { c.mark with tries := c.tries + 1 })

/-- The start tries are used up (R269): START_FAIL, and no start until the run command has been absent. -/
def startFailed (n : Nat) (s : State) : State :=
  let w := runWanted s n
  let s := setsBit (0x6000 + 0x20 * n) 11 <| s.atSp n fun c => { c.mark with startFail := true, barred := w }
  (enterOff n s).atSp n (Spindle.owe .drive)

/-- T_SHORT has elapsed (rows 14 and 15, R269, R277). -/
def shortOver (n : Nat) (s : State) : State :=
  let c := chan s n
  if c.barred then enterOff n s
  else if !c.fresh && decide (s.img.spB n 13 ≤ c.tries) then startFailed n s
  else if runWanted s n then enterAlign n s
  else enterOff n s

/-- The rotor is not caught: the channel coasts to W_LOW (R281). -/
def catchFailed (n : Nat) (s : State) : State :=
  setsBit (0x6000 + 0x20 * n) 10 <| s.atSp n fun c => { c with catching := false, catchFail := true, agree := 0 }

/-- What the observed speed decides in COAST: CATCH_MIN and row 12 (R262, R263, R281). -/
def coastSpeed (n : Nat) (s : State) : State :=
  if gatesInhibited s || (chan s n).resting then s
  else
    let s := if (chan s n).catching && runWanted s n && !aboveCatch s n then catchFailed n s else s
    if atLow s n then enterShort n (s.atSp n fun c => { c with fresh := true }) else s

/-- What the observed speed decides (rows 6, 9 and 12). -/
def speedRows (n : Nat) (s : State) : State :=
  match (chan s n).state with
  | .ramp => if atRampEnd s n then rampFailed n s else s
  | .brake => if atLow s n then enterShort n (s.atSp n fun c => { c with fresh := true }) else s
  | .coast => coastSpeed n s
  | _ => s

/-- Loss of synchronism (R279): every gate is off at once, and SP_SYNC_LOSS is raised as the tick ends (R264). -/
def syncLoss (n : Nat) (s : State) : State :=
  let s := s.atSp n fun c => { (c.owe .syncLoss) with syncLosses := sat 8 (c.syncLosses + 1) }
  dropChannel n .coast (0x043 + 5 * n) s

/-- What a row that stands owes as its tick ends (R25, R269, R279). -/
def settleOwed (n : Nat) (x : SpOwed) (s : State) : State :=
  match x with
  | .off => idleCheck s
  | .syncLoss => raise (0x043 + 5 * n) (countLife 6 1 s)
  | .drive => spDrive n s

/-- The rows of the tick stand (R264). -/
def settleChannel (n : Nat) (s : State) : State :=
  match (chan s n).turn with
  | none => s
  | some u => u.owed.foldl (fun s x => settleOwed n x s) (s.atSp n fun c => { c with turn := none })

/-- The run command is present or absent; one that has been absent permits a start again (R269). -/
def noteRun (n : Nat) (s : State) : State :=
  let w := runWanted s n
  s.atSp n fun c => { c with runCmd := w, barred := c.barred && w }

/-- SPINDLE_RUN_COMMAND: the rows that a run or stop command triggers (rows 1, 7, 10 and 16, R277). -/
def runCommand (n : Nat) (s : State) : State :=
  let s := noteRun n s
  let c := chan s n
  let run := c.runCmd
  let same := decide (dirWanted s n = c.reverse)
  match c.state with
  | .off => if run && !c.barred then senseOrCoast n s else s
  | .closed => if !run || !same then enterBrake n s else s
  | .brake => if run && same then enterClosed n s else s
  | .align | .ramp => if run then s else enterShort n s
  | _ => s

/-- w_ref for an interval of `t` in 1/65,536 SYS cycle, in 2⁻²⁴ rpm: 60 ÷ (F × t). -/
def refRpm (l : Img) (t : Nat) : Int := divNear (60 * 65536 * 400000000 * q24) ((l.facets * t : Nat) : Int)

/-- The facet part of the loop (R271); `em` is e_k − m_f in 1/256 of 8 ps (log 37). -/
def Spindle.facetLoop (l : Img) (n tNext tk : Nat) (em : Int) (c : Spindle) : Spindle :=
  let w := refRpm l tNext
  let a := divNear ((w - c.wRef) * (65536 * 400000000)) tk
  let ph := divNear (em * (2 * 65536 * q24)) (256 * 625 * tk : Nat)
  { c with wRef := w, aRef := a, phase := ph, wCmd := w + divNear (w * (spQ l n 88 * ph / q24)) q24 }

/-- The facet part runs for a FACET channel in CLOSED. -/
def facetPart (n : Nat) (em : Int) (s : State) : State :=
  if (chan s n).state = .closed && s.img.spSource n = 0 then
    let tNext := facetInterval s
    s.atSp n fun c => c.facetLoop s.img n tNext (s.facet.past.getD 1 tNext) em
  else s

/-- PWM periods per second. -/
def pwmHz (l : Img) (n : Nat) : Nat := 100 * l.spH n 4

/-- i_brk of R276 in 2⁻²⁴ A, for a bridge supply of `v` in 0.1 V. -/
def brakeLimit (l : Img) (n v : Nat) : Int :=
  spQ l n 36 * ((min l.regenBand (l.vbusCeil - v) : Nat) : Int) / (max 1 l.regenBand : Nat)

/-- Set-point after one period of R261, towards `to`. -/
def slewTo (l : Img) (n : Nat) (toV v : Int) : Int :=
  let f : Int := max 1 (pwmHz l n)
  if v ≤ toV then min toV (v + spQ l n 56 / f) else max toV (v - spQ l n 60 / f)

/-- J × a_ref × 2π ÷ 60 ÷ KE, in 2⁻²⁴ A: the torque feed-forward (R271). -/
def feedForward (l : Img) (n : Nat) (a : Int) : Int :=
  divNear (Fp.exact (l.spF n 16) * a * 104719755119660) (Fp.exact (l.spF n 20) * 1000000000000000)

/-- The part of the loop that runs each PWM period, towards set-point `to` in the channel's direction (R271; log 37). -/
def Spindle.currentLoop (l : Img) (n v : Nat) (toV a : Int) (c : Spindle) : Spindle :=
  let w := slewTo l n toV c.setPoint
  let err := w - c.forward
  let lo := -(brakeLimit l n v)
  let hi := spQ l n 36
  let ki := Fp.exact (l.spF n 84) * err / ((2 ^ 149 * max 1 (pwmHz l n) : Nat) : Int)
  let integ := clampI lo hi (c.integ + ki)
  { c with setPoint := w, integ := integ,
           iCmd := clampI lo hi (Fp.exact (l.spF n 80) * err / ((2 ^ 149 : Nat) : Int) + integ + feedForward l n a) }

/-- Set-point that channel `n` is to reach: 0 in BRAKE, from the reference for FACET, else the command's magnitude. -/
def loopTarget (s : State) (n : Nat) : Int :=
  if (chan s n).state = .brake then 0
  else if s.img.spSource n = 0 then (chan s n).wCmd else (speedCmd s n).natAbs

/-- The duty is at or above FW_DUTY (R274). -/
def dutyHigh (l : Img) (n d : Nat) : Bool := decide (Fp.exact (l.spF n 92) * 4096 ≤ (d * 2 ^ 149 : Nat))

/-- The duty is below FW_DUTY − 0.05. -/
def dutyLow (l : Img) (n d : Nat) : Bool :=
  decide (((20 * d * 2 ^ 149 : Nat) : Int) < 4096 * (20 * Fp.exact (l.spF n 92) - ((2 ^ 149 : Nat) : Int)))

/-- Field weakening: i_d* after one period with duty `d` (R274). -/
def Spindle.weaken (l : Img) (n d : Nat) (c : Spindle) : Spindle :=
  let step := spQ l n 96 * 100 / (max 1 (pwmHz l n) : Nat)
  let k := if dutyHigh l n d then min 8 (c.fwCount + 1) else 0
  { c with fwCount := k,
           idRef := if k = 8 then max (-(spQ l n 96)) (c.idRef - step)
                    else if dutyLow l n d then min 0 (c.idRef + step) else c.idRef }

/-- One leg's count of full periods, and whether the next period refreshes it (R290). -/
def refreshLeg (l : Img) (n : Nat) (full : BitVec 3) (c : Spindle) (i : Nat) : Spindle :=
  let k := if full.getLsbD i && !c.refresh.getLsbD i then tab c.fullOn 0 i + 1 else 0
  let due := decide (0 < l.spB n 10 ∧ l.spB n 10 ≤ k)
  { c with fullOn := updAt c.fullOn i fun _ => if due then 0 else k,
           refresh := if due then c.refresh ||| (1#3 <<< i) else c.refresh &&& ~~~(1#3 <<< i) }

/-- The commutation: the next sector in the channel's direction. -/
def Spindle.commutate (c : Spindle) : Spindle := { c with sector := c.nextSector }

/-- Electrical angle of one PWM period at `w` in 2⁻²⁴ rpm, in 2⁻²⁴ degree: 6 × POLES degrees a second for each rpm. -/
def periodAngle (l : Img) (n : Nat) (w : Int) : Int := w * (6 * l.spB n 2 : Nat) / (max 1 (pwmHz l n) : Nat)

/-- Legs that a commutation from sector `a` to sector `b` turns off and on. -/
def legsChanged (a b : Nat) : Nat × Nat :=
  let x := sectorLegs a
  let y := sectorLegs b
  if x.1 = y.1 then (x.2, y.2) else (x.1, y.1)

/-- Duties of the outgoing and the incoming leg at angle `x` to go to θ_c: linear over the softening angle, a step without it
(R266; log 97). -/
def softDuties (l : Img) (n d : Nat) (x : Int) : Nat × Nat :=
  let half : Int := (l.spB n 3 * 8388608 : Nat)
  if half = 0 then (if 0 < x then (d, 0) else (0, d))
  else
    let k := clampI 0 (2 * half) (half - x)
    let i := (d * k.toNat / (2 * half).toNat)
    (d - i, i)

/-- Legs and duties with the commutation `x` away (R266). -/
def Spindle.soften (l : Img) (n : Nat) (x : Int) (c : Spindle) : Spindle :=
  let legs := legsChanged (c.across x).1 (c.across x).2
  let d := softDuties l n c.duty x
  { c with outLeg := legs.1, inLeg := legs.2, outDuty := d.1, inDuty := d.2 }

/-- One PWM period at `w` in 2⁻²⁴ rpm of a commutation to come or under way: the angle runs down, the sector changes at θ_c, and
the legs' duties follow the softening ramp until it has ended; in RAMP the next commutation is 60° on (R266 to R268; log 97). -/
def Spindle.commStep (l : Img) (n : Nat) (w : Int) (c : Spindle) : Spindle :=
  match c.comm with
  | none => c
  | some x =>
    let y := x - periodAngle l n w
    let c := (if decide (0 < x) && decide (y ≤ 0) then c.commutate else c).soften l n y
    let half : Int := (l.spB n 3 * 8388608 : Nat)
    let ended := decide (y ≤ 0) && decide (half ≤ -y)
    { c with comm := if !ended then some y else if c.state = .ramp then some (y + deg60) else none }

/-- One PWM period of RAMP: the open-loop rate rises at RAMP_ACC, and each 60° commutates (R268). -/
def Spindle.rampStep (l : Img) (n : Nat) (c : Spindle) : Spindle :=
  let w := c.rampRate + spQ l n 48 / (max 1 (pwmHz l n) : Nat)
  { c.commStep l n w with rampRate := w }

/-- The zero crossing fixes the next commutation: 30° minus the advance after it (R267). One still to come takes place now. -/
def Spindle.crossAt (l : Img) (n : Nat) (c : Spindle) : Spindle :=
  let c := if c.comm.any fun x => decide (0 < x) then c.commutate else c
  let x : Int := (30 * 8 - (c.adv : Int)) * 2097152
  { c.soften l n x with comm := some x }

/-- What every period measures: speed, i_d, bootstrap supplies and full periods (R289, R290). -/
def Spindle.measure (l : Img) (n : Nat) (m : PwmMeas) (c : Spindle) : Spindle :=
  let c := { c with speed := m.speed, id := m.id, bsHold := c.bsHold &&& ~~~m.bootGood,
                    regenLim := decide (l.vbusCeil < m.vbus + l.regenBand) }
  (List.range 3).foldl (refreshLeg l n m.fullOn) c

/-- The loop and field weakening in CLOSED and BRAKE. -/
def drive (n : Nat) (m : PwmMeas) (s : State) : State :=
  let toV := loopTarget s n
  let a := if s.img.spSource n = 0 && (chan s n).state = .closed then (chan s n).aRef else 0
  s.atSp n fun c =>
    let c := c.currentLoop s.img n m.vbus toV a
    { c.weaken s.img n m.duty with duty := min 4095 m.duty, adv := min (8 * s.img.spB n 110) m.adv }

end Sys2Proof.Machine
end

