-- ==== Sys2Proof/Machine/Scan.lean ====
section
/-! DEFINITION. Start-of-scan timing, the facet model and what a facet's start of scan sets going: slot words, the blocks of
the exposure link and the spindle's phase error (R201 to R212, R221, R226, R235, R243, R272). -/

namespace Sys2Proof.Machine

open Sys2Proof.Bits

/-- Scan unit of a station by its number. -/
def scanOf (s : State) (n : Nat) : Scan := tab s.scan Scan.reset n

/-- Width in 0.01 ps of selected cell `k` of station `n` (table "TDC entry"). -/
def cellW (s : State) (n k : Nat) : Nat := u16 (calibItem s.boot.calib n) (24 + 2 * k)

/-- Twice the fine time in 0.01 ps before the scale: `cell` selected cells passed, and half of the one it stands in (R201). -/
def fineTwice (s : State) (n cell : Nat) : Nat :=
  2 * ((List.range cell).map (cellW s n)).foldl (· + ·) 0 + cellW s n cell

/-- Sum of test fine times in 0.1 ps and their number: the last 16, fewer before, and an open S_now before the first
(log 34). -/
def spanNow (s : State) (n : Nat) : Nat × Nat :=
  let xs := (scanOf s n).fines
  if xs.isEmpty then (45000 + Config.freeNat s.freeCtr % 10001, 1) else (xs.foldl (· + ·) 0, xs.length)

/-- S_now within 4,500 to 5,500 ps (R202; log 34). -/
def spanHeld (x : Nat × Nat) : Nat × Nat :=
  if x.1 < 45000 * x.2 then (45000, 1) else if 55000 * x.2 < x.1 then (55000, 1) else x

/-- t_SOS − t_ref in 8 ps (R201, R203): the coarse count less the scaled fine time, from t_ref. -/
def sosTime (s : State) (n coarse cell : Nat) : Int :=
  (if 128 ≤ cell then
    let span := ((List.range 128).map (cellW s n)).foldl (· + ·) 0
    divNear ((coarse * 2000000 : Nat) - ((span + 1000000 : Nat) : Int)) 1600
  else
    let x := spanHeld (spanNow s n)
    divNear (((coarse * 10000 * x.1 : Nat) : Int) - ((fineTwice s n cell * 250 * x.2 : Nat) : Int)) ((8 * x.1 : Nat) : Int))
    - refPart s

/-- The test edge after an accepted pulse (R202). -/
def Scan.testEdge (fine : Nat) (c : Scan) : Scan :=
  let xs := (fine :: c.fines).take 16
  let t := xs.foldl (· + ·) 0
  { c with fines := xs, spanOut := decide (t < 45000 * xs.length ∨ 55000 * xs.length < t) }

/-- Facets of a revolution. -/
def facetsOf (s : State) : Nat := max 1 s.img.facets

/-- Entry f of the model in 1/256 of 8 ps. -/
def modelAt (c : Scan) (f : Nat) : Int := tab c.model 0 f

/-- m_f in 1/256 of 8 ps: the entry of the model, or in history mode the word of the history (R205, R206). -/
def offsetAt (l : Img) (c : Scan) (f : Nat) : Int := if 9 ≤ l.facets then tab c.history 0 f else modelAt c f

/-- p_k − t_ref in 1/256 of 8 ps, for facet index `f` (R207). -/
def predict (s : State) (n f : Nat) : Int := 256 * s.img.sosPhase n + (scanOf s n).eMean + offsetAt s.img (scanOf s n) f

/-- Index of the next facet: from the last one once learned, from the pulses of learning before (R204). -/
def nextFacet (s : State) (n : Nat) : Nat :=
  let c := scanOf s n
  if c.learned then (c.facet + 1) % facetsOf s else if c.learning then c.pulses % facetsOf s else c.facet

/-- Entry `f` after an accepted facet (R205, R206; log 35). -/
def Scan.learnEntry (l : Img) (f : Nat) (e : Int) (c : Scan) : Scan :=
  let g := 256 * e - c.eMean
  let c := { c with eHist := e :: c.eHist }
  if 9 ≤ l.facets then { c with history := updAt c.history f fun _ => g }
  else { c with model := updAt c.model f fun m => m + divNear (g - m) ((2 ^ l.fmShift : Nat) : Int) }

/-- Sum of the entries of a revolution. -/
def modelSum (k : Nat) (c : Scan) : Int := ((List.range k).map (modelAt c)).foldl (· + ·) 0

/-- The entries with their mean subtracted. -/
def centred (k : Nat) (c : Scan) : Vector Int 12 :=
  let mean := divNear (modelSum k c) k
  Vector.ofFn fun i => if i.val < k then c.model[i] - mean else c.model[i]

/-- The end of a revolution: ē, and in model mode the entries' mean is subtracted (R205). -/
def Scan.endRev (l : Img) (c : Scan) : Scan :=
  let k := max 1 l.facets
  let mean := if c.eHist.isEmpty then c.eMean else divNear (256 * c.eHist.foldl (· + ·) 0) c.eHist.length
  { c with eMean := mean, eHist := [], model := if 9 ≤ l.facets then c.model else centred k c }

/-- Σ over f of (new entry f − saved entry (f + r) mod F)² (R211). -/
def rotErr (k r : Nat) (new old : Vector Int 12) : Nat :=
  ((List.range k).map fun f => ((tab new 0 f - tab old 0 ((f + r) % k)).natAbs) ^ 2).foldl (· + ·) 0

/-- The rotation with the smallest RMS difference. -/
def bestRot (k : Nat) (new old : Vector Int 12) : Nat :=
  (List.range k).foldl (fun b r => if rotErr k r new old < rotErr k b new old then r else b) 0

/-- The best rotation is at most 200 ps RMS, and every other one at least twice it. -/
def rotClear (k : Nat) (new old : Vector Int 12) : Bool :=
  let b := bestRot k new old
  let d := rotErr k b new old
  decide (d ≤ k * 6400 ^ 2) && (List.range k).all fun r => r = b || decide (4 * d ≤ rotErr k r new old)

/-- Entries with facets renumbered by `r`. -/
def rotated (k r : Nat) (v : Vector Int 12) : Vector Int 12 :=
  Vector.ofFn fun i => if i.val < k then tab v 0 ((i.val + k - r % k) % k) else v[i]

/-- Facet renumbering at the end of learning (R211). With no model of a previous learning nothing is compared (log 36). -/
def Scan.renumber (l : Img) (c : Scan) : Scan :=
  let k := max 1 l.facets
  if 9 ≤ l.facets then c
  else
    match c.saved with
    | none => { c with saved := some c.model }
    | some old =>
      if rotClear k c.model old then
        let r := bestRot k c.model old
        let m := rotated k r c.model
        { c with model := m, facet := (c.facet + r) % k, saved := some m }
      else { c with renum := true, saved := some c.model }

/-- Learning ends after LEARN revolutions (R204). -/
def Scan.endLearn (l : Img) (c : Scan) : Scan :=
  if c.learning && decide (l.learn * max 1 l.facets ≤ c.pulses) then
    ({ c with learned := true, learning := false }).renumber l
  else c

/-- What the last facet of a revolution ends. -/
def Scan.lastFacet (l : Img) (f : Nat) (c : Scan) : Scan := if f + 1 = max 1 l.facets then c.endRev l else c

/-- The model after an accepted facet of index `f` with error `e`. -/
def Scan.accept (l : Img) (f : Nat) (e : Int) (c : Scan) : Scan :=
  let c := { c with facet := f, pulses := if c.learning then c.pulses + 1 else c.pulses }
  ((c.learnEntry l f e).lastFacet l f).endLearn l

/-- The station exposes again from line 0 once its channel is locked again (R273). -/
def noteLock (n : Nat) (s : State) : State :=
  if channelLocked s n then unblank n .spindle s else s

/-- Sum of the last F reference intervals that start-of-scan intervals have answered, in 1/65,536 SYS cycle. -/
def refSum (s : State) : Nat := ((s.facet.past.drop 1).take (facetsOf s)).foldl (· + ·) 0

/-- The revolution satisfies the frequency condition: within 0.01 % (R272). Start-of-scan intervals are in 8 ps. -/
def revOk (sum ref : Nat) : Bool := decide (((sum * 131072 : Nat) - (ref * 625 : Nat) : Int).natAbs * 10000 ≤ ref * 625)

/-- A revolution that satisfies the condition: it holds, learning starts at its first, lock after 64 in a row
(R204, R272; log 35). -/
def goodRev (n : Nat) (s : State) : State :=
  let first := !(chan s n).freqOk
  let s := s.atSp n fun c =>
    { c with freqOk := true, badRevs := 0, lockRevs := sat 8 (c.lockRevs + 1), locked := c.locked || decide (64 ≤ c.lockRevs + 1) }
  let s := if first then s.atScan n fun c => { c with learning := true, learned := false, pulses := 0, eHist := [] } else s
  noteLock n s

/-- A revolution that does not; LOSE_REVS in a row leave the condition. No rule names the source of a loss of lock by
frequency (log 39). -/
def badRev (n : Nat) (s : State) : State :=
  let s := s.atSp n fun c => { c with lockRevs := 0, badRevs := c.badRevs + 1 }
  if (chan s n).freqOk && decide (s.img.spB n 14 ≤ (chan s n).badRevs) then
    leaveLock n (Config.freeNat s.freeCtr % 65536) s.useFree
  else s

/-- A start-of-scan interval is complete (R272). -/
def scanInterval (n : Nat) (t : Nat) (s : State) : State :=
  let c := scanOf s n
  let xs := match c.lastPulse with
    | some t0 => if (chan s n).state = .closed then (t - t0) :: c.past else []
    | none => []
  if facetsOf s ≤ xs.length then
    let s := s.atScan n fun c => { c with lastPulse := some t, past := [] }
    if revOk (xs.foldl (· + ·) 0) (refSum s) then goodRev n s else badRev n s
  else s.atScan n fun c => { c with lastPulse := some t, past := xs }

/-- t_0 − t_ref in 8 ps (R226). -/
def slotZero (s : State) (n : Nat) (f : FacetNow) (tSos : Int) : Int := tSos + partOf (s.img.corH n 2) f.tk

/-- What the start of scan settles for the facet in progress: its start-of-scan error enters δ_n, and with it the window and
FACET_SLIP (R171 to R173); then the compensation of dead emitters (R246). -/
def settleFacet (n : Nat) (s : State) : State :=
  match (tab s.expo Expo.reset n).now with
  | none => s
  | some f =>
    let s :=
      if f.anchored then
        let x := alongOffset s n s.facet.err
        chooseWindow n x (slipCheck n (slips x) (decide (f.split < 32)) s)
      else s
    let s := s.atExpo n fun e => { e with now := e.now.map fun f => { f with w := (facetAt s n).w } }
    match (tab s.expo Expo.reset n).now with
    | some f => noteDead n f s
    | none => s

/-- The facet goes out: its words (R221), FACET, then START, and from then on the words slot by slot, a free time of 1.5 µs or more
before their slots; no block leaves more than 1,750 × 8 ps before the end of its tick, so that none is more than 8 µs early
(R235; log 78). -/
def transmit (n i : Nat) (tSos : Int) (s : State) : State :=
  match (tab s.expo Expo.reset n).now with
  | none => s
  | some f =>
    let t0 := ((1250 * f.tick : Nat) : Int) + f.ref + slotZero s n f tSos
    let ws := facetWords s.img n s.run.last f (crossOf s f i) (tab s.dec Decoder.reset n).band
    let x : SentFacet := { k := f.k % 65536, job := s.run.job, spans := each 4 none
                           lines := f.lines.filterMap fun x => x.map fun y => (y.number, y.line) }
    let o : FacetOut := { t0 := t0, tk := f.tk, lead := 187500 + Config.freeNat s.freeCtr % 810751, blank := f.blank
                          started := false, next := 0, retraced := false }
    s.useFree.atExpo n fun e =>
      ({ e with words := ws, sent := (x :: e.sent).take 512, out := some o }).enqueue
        [.facet (f.k % 65536) f.w f.blank (slotPeriod (s.img.corH n 0) f.tk)]

/-- The results of R210 for a facet of index `i` at `t` in 8 ps from t_ref, accepted or substituted. -/
def deliverScan (n i : Nat) (t : Int) (s : State) : State :=
  let first := (scanOf s n).tSos.isNone
  let e := t - s.img.sosPhase n
  let m := offsetAt s.img (scanOf s n) i
  let s := s.atScan n fun c => { c with facet := i, tSos := some t, e := e }
  let s := scanInterval n ((s.facet.tick * 1250 : Nat) + refPart s + t).toNat s
  let s := facetPart n (256 * e - m) s
  if first then transmit n i t (settleFacet n s) else s

/-- q_k, QPEAK and the SOS_PRED episode at an accepted facet with prediction error `q256` in 1/256 of 8 ps (R207, R209). -/
def judgePrediction (n : Nat) (q256 : Int) (s : State) : State :=
  let q := divNear q256 256
  let far := decide (256 * s.img.predLim < q256.natAbs)
  let was := (scanOf s n).predEp
  let good := if far then 0 else (scanOf s n).predGood + 1
  let s := s.atScan n fun c =>
    { c with q := clampI (-32768) 32767 q, qAbs := min 65535 q.natAbs, qPeak := max c.qPeak (min 65535 q.natAbs), predGood := good,
             predEp := far || (was && decide (good < facetsOf s)) }
  let s := setsBit (0x410C + 0x40 * n) 0 s
  if far && !was then raise (0x187 + 8 * n) s else s

/-- The model takes an accepted pulse while it learns or is learned, before this pulse and after it. -/
def modelPulse (n i : Nat) (e : Int) (was : Bool) (s : State) : State :=
  let l := s.img
  let c := scanOf s n
  if was && (c.learned || c.learning) then
    let s := s.atScan n fun c => c.accept l i e
    if (({ c with renum := false } : Scan).accept l i e).renum then setsBit (0x4104 + 0x40 * n) 2 s else s
  else s

/-- An accepted pulse (R202, R205, R207, R209, R210). -/
def acceptPulse (n : Nat) (t : Int) (fine : Nat) (s : State) : State :=
  let i := nextFacet s n
  let e := t - s.img.sosPhase n
  let learned := (scanOf s n).learned
  let was := learned || (scanOf s n).learning
  let p := predict s n i
  let s := if learned then judgePrediction n (256 * t - p) s else s
  let s := deliverScan n i t s
  let s := modelPulse n i e was (s.atScan n (Scan.testEdge fine))
  noteLock n (s.atScan n fun c => { c with subst := false, subRow := 0 })

/-- The pulse lies within p_k ± SOS_WIN (R207). -/
def inWindow (s : State) (n : Nat) (t : Int) : Bool :=
  decide ((256 * t - predict s n (nextFacet s n)).natAbs ≤ (256 * s.img.sosWin).natAbs)

/-- SOS_PULSE (R201, R204, R207): `cell` selected cells passed, and the fine time of the test edge in 0.1 ps. Once learned,
the first pulse of a facet within the window is accepted; before, every pulse. -/
def sosPulse (n coarse cell fine : Nat) (s : State) : State :=
  let t := sosTime s n coarse cell
  let s := if (scanOf s n).fines.isEmpty then s.useFree else s
  if (scanOf s n).learned && ((scanOf s n).tSos.isSome || !inWindow s n t) then s else acceptPulse n t fine s

def execSosPulse (n : Fin 8) (coarse cell testFine : Nat) (s : State) : Host.Outcome State Fault Refusal :=
  .next (if s.img.stationEn n && facetRuns s then sosPulse n coarse cell testFine s else s)

/-- A substituted facet (R208); it may be the last of its revolution (R205). -/
def substitute (n : Nat) (s : State) : State :=
  let i := nextFacet s n
  let t := divNear (predict s n i) 256
  let s := deliverScan n i t s
  let s := s.atScan n fun c =>
    ({ c with subst := true, missed := sat 16 (c.missed + 1), subRow := c.subRow + 1 }).lastFacet s.img i
  if (scanOf s n).subRow = s.img.missMax then raise (0x186 + 8 * n) s else s

/-- SOS_WINDOW_EXPIRY (R208). -/
def execSosWindowExpiry (n : Fin 8) (s : State) : Host.Outcome State Fault Refusal :=
  .next (if (scanOf s n).learned && (scanOf s n).tSos.isNone then substitute n s else s)

/-- A write of SCANn_FMf. -/
def writeCross (n f v : Nat) (s : State) : State :=
  s.atScan n fun c => { c with crossSet := updAt c.crossSet f fun _ => signed 16 (v / 65536) }

/-- SCAN_CROSS_WRITE (R212): in force from the station's next frame. -/
def execScanCrossWrite (n : Fin 8) (f : Fin 8) (value : Word) (s : State) : Host.Outcome State Fault Refusal :=
  .next (if regOpen 8 s then writeCross n.val f.val value.toNat s else s)

end Sys2Proof.Machine
end

