-- ==== Sys2Proof/Machine/Exposure.lean ====
section
/-! DEFINITION. The exposure link: back-lane frames, link state, emitter health and temperature, and the writes of the
exposure registers (R231, R238 to R246, R251 to R253, R501). -/

namespace Sys2Proof.Machine

open Sys2Proof.Bits

def expoOf (s : State) (n : Nat) : Expo := tab s.expo Expo.reset n

/-- The newest span of lane `i` with number `k` modulo 65,536 (R236, R241). -/
def Expo.spanOf (i k : Nat) (e : Expo) : Option Nat :=
  let cur := (tab e.lanes Lane.reset i).span
  let back := (cur + 65536 - k % 65536) % 65536
  if back ≤ cur then some (cur - back) else none

/-- Span `k` of lane `i` carried data blocks of the facet. -/
def SentFacet.inSpan (i k : Nat) (x : SentFacet) : Bool := (tab x.spans none i).any fun r => decide (r.1 ≤ k) && decide (k ≤ r.2)

/-- A line of a facet spoiled with cause LINE_CHECK in its repetition. -/
def Prog.linkSpoil (n now : Nat) (x : SentFacet) (p : Prog) : Prog :=
  if p.job != x.job || p.cut then p
  else x.lines.foldl (fun p y => if y.1 = p.number then p.spoilAt n y.2 y.2 (0x02, 0x181 + 8 * n, now) else p) p

/-- LINK_CRC (R241): the lines of the facets that the failing span carried are spoiled, in repetitions that have ended and wait for
their record too. -/
def linkCrc (n lane span : Nat) (s : State) : State :=
  let e := expoOf s n
  let hit := e.sent.filter fun x => (e.spanOf lane span).any fun k => x.inSpan lane k
  let spoil (p : Prog) : Prog := hit.foldl (fun p x => p.linkSpoil n s.now x) p
  let s := s.modJobs fun j => { j with prog := j.prog.map spoil, outcome := j.outcome.map spoil }
  raise (0x181 + 8 * n) s

/-- CRC_ERR of a good frame (R241). -/
def noteCrc (n crc lane span : Nat) (s : State) : State :=
  let d := (crc + 256 - (expoOf s n).lastCrc) % 256
  let s := s.atExpo n fun e => { e with lastCrc := crc, crcErr := sat 8 (e.crcErr + d) }
  if d = 0 then s else linkCrc n lane span s

/-- The station is at its temperature limit: later facets are blank (R252). -/
def tempLimitOn (n : Nat) (s : State) : State :=
  holdBlank n .temp 0x03 (0x183 + 8 * n) (s.atExpo n fun e => { e with tempLimit := true })

/-- The limit condition clears. -/
def tempLimitOff (n : Nat) (s : State) : State :=
  unblank n .temp (s.atExpo n fun e => { e with tempLimit := false })

/-- Derating begins, or ends from line 0 of the next frame (R251). -/
def derateBy (warn hyst t : Int) (e : Expo) : Expo :=
  if warn < t then { e with derate := true, derateEnd := false }
  else if t < warn - hyst then { e with derateEnd := e.derate } else e

/-- A valid array temperature in 1/16 °C (R251, R252). EMITTER_TEMP is raised as a level is reached. -/
def noteTemp (n : Nat) (t : Int) (s : State) : State :=
  let warn := s.img.corS n 8
  let lim := s.img.corS n 10
  let hyst : Int := (s.img.corH n 12 : Nat)
  let e := expoOf s n
  let newWarn := decide (warn < t) && (!e.derate || e.derateEnd)
  let newLim := decide (lim ≤ t) && !e.tempLimit
  let s := s.atExpo n fun e => { derateBy warn hyst t e with temp := t }
  let s := if newLim then tempLimitOn n s else if e.tempLimit && decide (t < lim - hyst) then tempLimitOff n s else s
  if newWarn || newLim then raise (0x183 + 8 * n) s else s

/-- R_d in mΩ as a numerator and denominator (section "Emitter health"). -/
def emitterRd (l : Img) (n v1 v2 : Nat) : Int × Int :=
  ((((v2 : Int) - v1) * 1000), ((l.corH n 18 : Int) - (l.corH n 16 : Int)))

/-- Eight times the baseline in mΩ: BASE, or what the first 8 valid readings give (R244). -/
def baseline8 (l : Img) (n e : Nat) (x : Emitter) : Option Int :=
  if l.corH n (304 + 2 * e) != 0 then some (80 * (l.corH n (304 + 2 * e) : Int)) else if x.count < 8 then none else some x.sum

/-- |R_d − baseline| exceeds HEALTH_WIN percent of the baseline. -/
def outsideWin (l : Img) (n : Nat) (b8 : Int) (rd : Int × Int) : Bool :=
  decide ((l.corB n 15 : Int) * b8 * rd.2 < 100 * ((8 * rd.1 - b8 * rd.2).natAbs : Int))

/-- An emitter after a valid reading (R244, R245). -/
def Emitter.take (l : Img) (n e : Nat) (rd : Int × Int) (x : Emitter) : Emitter :=
  match baseline8 l n e x with
  | some b => { x with strikes := if outsideWin l n b rd then min 3 (x.strikes + 1) else 0 }
  | none => { x with sum := x.sum + divNear rd.1 rd.2, count := x.count + 1 }

/-- A valid reading of emitter `e` (R243 to R245). -/
def noteHealth (n e v1 v2 : Nat) (s : State) : State :=
  let rd := emitterRd s.img n v1 v2
  let x := (tab (expoOf s n).emit { sum := 0, count := 0, strikes := 0 } e).take s.img n e rd
  let dead := decide (x.strikes = 3) && !(expoOf s n).dead.getLsbD e
  let s := s.atExpo n fun p =>
    { p with emit := updAt p.emit e fun _ => x, hEmitter := e, hStrikes := x.strikes, hRd := (max 0 (divNear rd.1 rd.2)).toNat,
             test := none, dead := if dead then p.dead ||| (1#36 <<< e) else p.dead }
  if dead then raise (0x184 + 8 * n) s else s

/-- The reading answers the test in progress, in time (R243). -/
def healthTaken (s : State) (n e : Nat) : Bool := (expoOf s n).test.any fun x => x.1 = e && decide (s.now ≤ x.2)

/-- The link goes down (R240): EXPO_PATH. -/
def expoDown (n : Nat) (s : State) : State :=
  if (expoOf s n).linkUp then raise (0x180 + 8 * n) (s.atExpo n fun e => { e with linkUp := false, bad := 0, queue := [] }) else s

/-- A good frame (table "Back-lane status frame"). -/
def goodFrame (n : Nat) (f : List Byte) (s : State) : State :=
  let fl := byteAt f 1
  let s := s.atExpo n fun e => { e with bad := 0, echo := bit fl 0 }
  let s := noteCrc n (byteAt f 4) (byteAt f 7 / 64) (u16 f 5) s
  let s := if bit fl 3 then noteTemp n (s16 f 2) s else s
  let e := byteAt f 7 % 64
  let s := endPassed s
  let s := if bit fl 2 && healthTaken s n e then noteHealth n e (le f 8 3) (le f 11 3) s else s
  if bit fl 1 then s else expoDown n s

/-- A discarded frame: the sixteenth in a row takes the link down (R238, R240). -/
def badFrame (n : Nat) (s : State) : State :=
  let s := s.atExpo n fun e => { e with bad := e.bad + 1 }
  if 16 ≤ (expoOf s n).bad then expoDown n s else s

/-- BACK_LANE_STATUS_FRAME (R238): a frame whose CRC fails is discarded and counted. -/
def backFrame (n : Nat) (f : List Byte) (s : State) : State :=
  if f.length = 16 && u16 f 14 = Poly.ccitt.crc (f.take 14) then goodFrame n f s
  else badFrame n s

def execBackLaneStatusFrame (n : Fin 8) (frame : List Byte) (s : State) : Host.Outcome State Fault Refusal :=
  .next (if s.img.stationEn n then backFrame n frame s else s)

/-- EXPO_LINK_LOST (R240). -/
def execExpoLinkLost (n : Fin 8) (s : State) : Host.Outcome State Fault Refusal := .next (expoDown n s)

/-- LASER_ECHO_MISMATCH (R242). -/
def execLaserEchoMismatch (n : Fin 8) (s : State) : Host.Outcome State Fault Refusal := .next (raise (0x180 + 8 * n) s)

/-- EMITTER_TEMP_STALE (R253): as at TEMP_LIM. -/
def execEmitterTempStale (n : Fin 8) (s : State) : Host.Outcome State Fault Refusal :=
  .next (if (expoOf s n).tempLimit then s else raise (0x183 + 8 * n) (tempLimitOn n s))

/-- When a link that is down trains: in boot step 8 once PD5 operates, and in IDLE and ARMED (R239). -/
def expoTrains (s : State) (n : Nat) : Bool :=
  s.img.stationEn n && !(expoOf s n).linkUp && tab s.pwr.domain 0 5 = 2 &&
  (s.eng.state = .boot || s.eng.state = .idle || s.eng.state = .armed)

/-- EXPO_LINK_TRAINING (R239): a link that trains starts its lanes at span 0; one that fails raises EXPO_PATH. -/
def execExpoLinkTraining (n : Fin 8) (ok : Bool) (s : State) : Host.Outcome State Fault Refusal :=
  .next <|
    if !expoTrains s n then s
    else if ok then s.atExpo n fun e => { e with linkUp := true, lastCrc := 0, bad := 0, sent := [], out := none, queue := [],
                                                  lanes := each 4 Lane.reset, phase := 0 }
    else raise (0x180 + 8 * n) s

/-- A write to a tone entry that R231 takes: of entries 1 to 15, with bit [15] clear (log 88). -/
def toneTaken (t v : Nat) : Bool := t != 0 && v % 65536 < 32768

/-- A staged value joins those of its entry: of the values of earlier ticks only the newest may still take effect (R231). -/
def stageTone (v now : Nat) (x : List (Nat × Nat)) : List (Nat × Nat) := (v, now) :: (x.filter fun y => y.2 != now).take 1

/-- A write of EXPOn_TONEt: staged (R231). -/
def writeTone (n t v : Nat) (s : State) : State :=
  if toneTaken t v then s.atExpo n fun e => { e with toneSet := updAt e.toneSet t (stageTone (v % 65536) s.now) } else s

/-- TONE_ENTRY_WRITE (R231). -/
def execToneEntryWrite (n : Fin 8) (t : Fin 16) (value : Word) (s : State) : Host.Outcome State Fault Refusal :=
  .next (if regOpen 5 s then writeTone n.val t.val value.toNat s else s)

/-- A write of EXPOn_CTRL: clearing HOLD releases the staged entries together (R231). -/
def writeHold (n v : Nat) (s : State) : State :=
  let h := bit v 0
  let freed := (expoOf s n).hold && !h
  s.atExpo n fun e =>
    { e with hold := h, toneSet := if freed then e.toneSet.map fun x => (x.take 1).map fun y => (y.1, s.now) else e.toneSet }

/-- TONE_HOLD_WRITE (R231). -/
def execToneHoldWrite (n : Fin 8) (value : Word) (s : State) : Host.Outcome State Fault Refusal :=
  .next (if regOpen 5 s then writeHold n.val value.toNat s else s)

/-- One word of the dead mask written (R501). -/
def deadWord (upper : Bool) (v : Nat) (d : BitVec 36) : BitVec 36 :=
  if upper then BitVec.ofNat 36 (d.toNat % 2 ^ 32 + (v % 16) * 2 ^ 32) else BitVec.ofNat 36 (d.toNat / 2 ^ 32 * 2 ^ 32 + v)

/-- A write of EXPOn_DEAD: in IDLE and ARMED (R245). -/
def writeDead (n : Nat) (upper : Bool) (v : Nat) (s : State) : State :=
  if s.eng.state = .idle || s.eng.state = .armed then s.atExpo n fun e => { e with dead := deadWord upper v e.dead } else s

/-- DEAD_MASK_WRITE (R245). -/
def execDeadMaskWrite (n : Fin 8) (upper : Bool) (value : Word) (s : State) : Host.Outcome State Fault Refusal :=
  .next (if regOpen 5 s then writeDead n.val upper value.toNat s else s)

/-- The lower word of EXPOn_CFG: ADDR and the lower half of DATA; discarded while PEND is 1. -/
def cfgLower (v : Nat) (e : Expo) : Expo :=
  if e.cfgPend then e else { e with cfgAddr := v % 65536, cfgData := e.cfgData / 65536 * 65536 + v / 65536 }

/-- The upper word: the upper half of DATA, and one CFG block is queued. -/
def cfgUpper (v : Nat) (e : Expo) : Expo :=
  if e.cfgPend then e else { e with cfgData := e.cfgData % 65536 + (v % 65536) * 65536, cfgPend := true }

/-- PARTNER_CONFIG_WRITE (R501): a write of the upper word of EXPOn_CFG. -/
def execPartnerConfigWrite (n : Fin 8) (value : Word) (s : State) : Host.Outcome State Fault Refusal :=
  .next (if regOpen 5 s then s.atExpo n (cfgUpper value.toNat) else s)

end Sys2Proof.Machine
end

