-- ==== Sys2Proof/Machine/Ist.lean ====
section
/-! DEFINITION. The in-service test and the TAP (R486 to R491, R494, R495). -/

namespace Sys2Proof.Machine

open Sys2Proof.Bits

/-- Update of test `t`. -/
def State.atIst (s : State) (t : Nat) (f : IstTest → IstTest) : State :=
  s.modIst fun i => { i with test := updAt i.test t f }

/-- The test controller runs: PD1 operates, in every engine state except DOWN and BOOT (R486). -/
def istOn (s : State) : Bool := collectorOn s && s.eng.state != .down && s.eng.state != .boot

/-- The test that a step belongs to (table "Tests"). -/
def istTestOf (x : IstStep) : Nat :=
  match x with
  | .lane _ _ _ => 0 | .march _ _ _ _ => 1 | .word _ _ _ _ => 2 | .cell _ => 3 | .tdc _ _ _ _ => 4 | .gate _ _ _ => 5
  | .port _ _ => 6

/-- ITEM of a step (table "IST report entry"; log 65). -/
def istItem (s : State) (x : IstStep) : Nat :=
  match x with
  | .lane n _ _ => n.val
  | .march p _ _ _ => p
  | .word _ i _ _ => i
  | .cell _ => byteAt (calibItem s.boot.calib 16) 0
  | .tdc n _ _ _ => n.val
  | .gate c g _ => 8 * c.val + g.val
  | .port p _ => p.val

/-- The part of the lap that a step passes: lane and polarity, line of a page, word (data words after the 65,536 program
words), cell, station, gate or port. -/
def istPart (x : IstStep) : Nat :=
  match x with
  | .lane n pol _ => 2 * n.val + b2n pol
  | .march p l _ _ => 16384 * p + l
  | .word data i _ _ => if data then 65536 + i else i
  | .cell _ => 0
  | .tdc n _ _ _ => n.val
  | .gate c g _ => 8 * c.val + g.val
  | .port p _ => p.val

/-- The sample leaves 64 cycles or more between its last END and the output reserve (table "Tests", tests 0 and 2). -/
def spareCycles (s : State) : Bool := s.law.due.isEmpty && decide (s.law.cycles + 64 ≤ s.law.budget)

/-- Data words that an instruction of the program RAM names, from its fields: single words, tables and blocks. -/
def lawNames (w : Nat) : List Nat :=
  let run (i n : Nat) : List Nat := (List.range n).map (i + ·)
  let a := lawA w
  let b := lawB w
  let y := if lawFlags w = 1 then 1 else 0
  lawWrites w ++
    match lawOp w with
    | 0x01 => b :: run a 256
    | 0x03 => if y = 1 then [] else [a]
    | 0x07 => [lawDst w, a, b]
    | 0x08 | 0x0D | 0x33 | 0x42 | 0x51 => [a]
    | 0x20 => a :: run b (2 + y)
    | 0x21 => a :: run b (3 + y)
    | 0x22 | 0x26 => a :: run b (2 + y)
    | 0x23 => a :: run b (7 + y)
    | 0x24 => a :: run b (5 + y)
    | 0x25 => a :: run b (4 + y)
    | 0x30 => run a (2 + y)
    | 0x31 | 0x32 => run a 2 ++ run b 2
    | 0x34 => b :: run a 2
    | 0x40 => run a 2 ++ run b 12
    | 0x41 => a :: run b 12
    | 0x50 | 0x7F => []
    | _ => [a, b]

/-- Instructions that the program RAM holds: N, or none without LAW_PROGRAMS. -/
def lawUsed (s : State) : Nat := if s.img.has 7 then s.img.lawN else 0

/-- An instruction, a link or a LAW_DATA record names data word `i` (table "Tests", test 2). -/
def dataNamed (s : State) (i : Nat) : Bool :=
  ((List.range (lawUsed s)).any fun k => (lawNames (progWord s k)).contains i) ||
  (s.img.lawLinks.any fun k => s.img.lkSrc k = i || s.img.lkDst k = i) ||
  (((dataRecords (s.img.sec 8).length (s.img.sec 8)).getD []).any fun r => decide (r.1 ≤ i ∧ i < r.1 + r.2.length))

/-- Test 2 may take the word. -/
def wordSpare (s : State) (data : Bool) (i : Nat) : Bool :=
  if data then decide (i < dataWords) && !dataNamed s i else decide (lawUsed s ≤ i ∧ i < 65536)

/-- The scan unit of station `n` may see a start of scan within this tick: its window is open, or it is not learned and takes
every pulse (R207). -/
def sosOpen (s : State) (n : Nat) : Bool :=
  let c := scanOf s n
  let t : Int := (1250 * (s.now - s.facet.tick) : Nat)
  facetRuns s && (!c.learned ||
    (c.tSos.isNone && decide ((256 * t - predict s n (nextFacet s n)).natAbs ≤ (256 * s.img.sosWin).natAbs + 256 * 1250)))

/-- Hits that station `n`'s facet in progress still takes. -/
def hitsLeft (s : State) (n : Nat) : Nat :=
  let x := tab s.ist.hits (0, 0) n
  if x.1 = s.facet.k then 4096 - x.2 else 4096

/-- The spindle channel is off, halted or inhibited (R486, table "Tests", tests 4 and 5). -/
def spindleOff (s : State) (n : Nat) : Bool := (tab s.sp Spindle.reset n).state = .off

/-- The owning unit leaves the step its resource, and the test's own pace allows it (R486, R488, R490, table "Tests";
log 129). -/
def istFree (s : State) (x : IstStep) : Bool :=
  match x with
  | .lane _ _ _ => spareCycles s && s.ist.injected != some s.law.sample
  | .march p l _ _ =>
    storeOn s && decide (p < 8192 ∧ l < 16384) && s.pageFree p &&
      s.ist.marched.all fun t => decide (t + 400 * 2 ^ s.therm.level ≤ s.eng.sincePor)
  | .word data i _ _ => spareCycles s && wordSpare s data i && decide (s.ist.words.1 ≠ s.law.sample ∨ s.ist.words.2 < 256)
  | .cell _ => s.ist.converted.all fun t => decide (t + 100000000 ≤ s.eng.sincePor)
  | .tdc n hits _ _ => spindleOff s n || (!sosOpen s n && decide (hits ≤ hitsLeft s n))
  | .gate c _ _ => spindleOff s c || (tab s.sp Spindle.reset c).state = .halted || gatesInhibited s
  | .port p _ => (tab s.ring.port RingPort.reset p).up

/-- Every byte of a line takes one pattern, and is read back: whether the read delivers it (table "Tests", test 1; log 129). -/
def marchPass (l : Nat) (b : Byte) (e : EccRead) (s : State) : State × Bool :=
  readLine .scrubber l e (storeWrite (64 * l) (List.replicate 64 b) s)

/-- The four passes of the march over a line: whether both reads deliver what was written. -/
def marchLine (p l : Nat) (low high : EccRead) (s : State) : State × Bool :=
  let (s, bad) := marchPass (16384 * p + l) 0x55 low s
  let (s, worse) := marchPass (16384 * p + l) 0xAA high s
  (s, !bad && !worse)

/-- A port counts: invalid sync headers as the step reports them, and failing END CRCs as the port has met them. -/
def portCount (p headers : Nat) (s : State) : State :=
  let bad := (tab s.ring.port RingPort.reset p).endBad
  s.modIst fun i => { i with ring := updAt i.ring p fun x =>
    match x with
    | some (t, base, h) => some (t, base, h + headers)
    | none => some (s.eng.sincePor, bad, headers) }

/-- Errors of a port's count so far. -/
def portErrors (s : State) (p : Nat) : Nat :=
  match tab s.ist.ring none p with
  | some (_, base, h) => h + ((tab s.ring.port RingPort.reset p).endBad - base)
  | none => 0

/-- A port's count has taken 10¹² bits at 103.125 bits in a tick. -/
def portFull (s : State) (p : Nat) : Bool :=
  match tab s.ist.ring none p with
  | some (t, _, _) => decide (8 * 10 ^ 12 ≤ 825 * (s.eng.sincePor - t))
  | none => false

/-- A step takes its resource, and passes, fails, or goes on counting (table "Tests"; log 129). -/
def istTake (x : IstStep) (s : State) : State × Option Bool :=
  match x with
  | .lane _ _ seen => (s.modIst fun i => { i with injected := some s.law.sample }, some seen)
  | .march p l low high =>
    let (s, ok) := marchLine p l low high s
    (s.modIst fun i => { i with marched := some s.eng.sincePor }, some ok)
  | .word data _ ecc ue =>
    let n := if s.ist.words.1 = s.law.sample then s.ist.words.2 + 1 else 1
    let s := s.modIst fun i => { i with words := (s.law.sample, n) }
    (if ue && !data then s.modLaw fun l => { l with prgBad := true } else s, some (!ecc && !ue))
  | .cell ppm =>
    (s.modIst fun i => { i with converted := some s.eng.sincePor },
     some (trefNear (byteAt (calibItem s.boot.calib 16) 0) ppm))
  | .tdc n hits dnl span =>
    let k := s.facet.k
    let used := 4096 - hitsLeft s n + hits
    let s := s.modIst fun i => { i with hits := updAt i.hits n fun _ => (k, used), tdc := updAt i.tdc n fun h => h + hits }
    if tab s.ist.tdc 0 n < 65536 then (s, none)
    else (s.modIst fun i => { i with tdc := updAt i.tdc n fun _ => 0 }, some (decide (dnl < 512) && inR span 9500 10500))
  | .gate _ _ after => (s, some (after.any fun t => decide (t ≤ 2000)))
  | .port p headers =>
    let s := portCount p headers s
    if s.ist.berLim < portErrors s p then (s.modIst fun i => { i with ring := updAt i.ring p fun _ => none }, some false)
    else (s, if portFull s p then some true else none)

/-- A failed step: IST_FAIL once per test and lap (R487); laps count from 0 (log 65). -/
def istFails (t item : Nat) (s : State) : State :=
  let x := tab s.ist.test IstTest.fresh t
  let s := s.atIst t fun x => { x with item := item % 65536, failed := true, failLap := some (x.laps % 2 ^ 32) }
  if x.failed then s
  else
    let s := s.modIst fun i => { i with seen := i.seen ||| (1#7 <<< t), fails := sat 16 (i.fails + 1) }
    raise 0x1FA (countLife 11 1 (setsBit 0xF004 t s))

/-- Ticks of the lap in progress. -/
def lapTicks (s : State) (t : Nat) : Nat := s.eng.sincePor - (tab s.ist.test IstTest.fresh t).start

/-- The lap of test `t` exceeds LAP_LIM, and IST_LAP has not been raised for it (R491). -/
def lapLate (s : State) (t : Nat) : Bool :=
  let x := tab s.ist.test IstTest.fresh t
  x.running && !x.lapRaised && decide (s.ist.lapLim * 100000000 < lapTicks s t)

/-- IST_LAP, once per lap (R491). -/
def istLate (t : Nat) (s : State) : State :=
  if lapLate s t then raise 0x1FB (s.atIst t fun x => { x with lapRaised := true }) else s

/-- Every test's lap is held to LAP_LIM at each tick (R491). -/
def lapWatch (s : State) : State := if istOn s then (List.range 7).foldl (fun s t => istLate t s) s else s

/-- A lap begins with the first step that is tried. -/
def istBegin (t : Nat) (s : State) : State :=
  s.atIst t fun x => if x.running then x else { x with running := true, start := s.eng.sincePor }

/-- A part of the lap still counts: its page is in service, its word still spare, its port still up. -/
def partLive (s : State) (t k : Nat) : Bool :=
  match t with
  | 1 => !s.store.retired.contains (k / 16384)
  | 2 => if k < 65536 then wordSpare s false k else wordSpare s true (k - 65536)
  | 6 => (tab s.ring.port RingPort.reset k).up
  | _ => true

/-- Parts of a lap that have passed. -/
def partsPassed (s : State) (t : Nat) : Nat := ((tab s.ist.test IstTest.fresh t).passed.filter (partLive s t)).length

/-- Data words that test 2 takes. -/
def spareWords (s : State) : Nat := ((List.range dataWords).filter (wordSpare s true)).length

/-- Every item of test `t` has passed once (R491, table "Tests"; log 129): lanes in both polarities, lines of the pages in
service, spare words, the reference cell, stations, gates with the shunt comparator of each channel, ports that are up. -/
def lapDone (s : State) (t : Nat) : Bool :=
  let n := partsPassed s t
  match t with
  | 0 => decide (64 ≤ n)
  | 1 => decide (16384 * (8192 - s.store.retired.length) ≤ n)
  | 2 => decide (65536 - lawUsed s ≤ n) && decide (65536 - lawUsed s + spareWords s ≤ n)
  | 3 => decide (1 ≤ n)
  | 4 => decide (8 ≤ n)
  | 5 => decide (56 ≤ n)
  | _ => decide (((List.range 4).filter (partLive s 6)).length ≤ n)

/-- A lap ends, `ms` after its start (R491; log 65). -/
def IstTest.endLap (ms : Nat) (x : IstTest) : IstTest :=
  { x with lap := sat 32 ms, laps := x.laps + 1, lastFailed := x.failed, failed := false, running := false, start := 0
           lapRaised := false, passed := [] }

/-- Counts that belong to the lap of test `t` start again. -/
def Ist.clearCounts (t : Nat) (i : Ist) : Ist :=
  match t with | 4 => { i with tdc := each 8 0 } | 6 => { i with ring := each 4 none } | _ => i

/-- A part of the lap passes; with the last one the lap ends (R491). -/
def istPasses (t part : Nat) (s : State) : State :=
  let s := s.atIst t fun x => { x with passed := insertNat part x.passed }
  if lapDone s t then
    let ms := lapTicks s t / 100000
    (s.atIst t (IstTest.endLap ms)).modIst (Ist.clearCounts t)
  else s

/-- A step that finds its resource free. -/
def istRun (t : Nat) (x : IstStep) (s : State) : State :=
  let item := istItem s x
  match istTake x s with
  | (s, some true) => istPasses t (istPart x) s
  | (s, some false) => istFails t item s
  | (s, none) => s

/-- IST_TEST_STEP (R486 to R491): the lap goes on; the step is dropped while its owner claims the resource. -/
def istStep (t : Nat) (x : IstStep) (s : State) : State :=
  if !istOn s || !s.ist.en.getLsbD t || istTestOf x != t then s
  else
    let s := istLate t (istBegin t s)
    if istFree s x then istRun t x s else s

def execIstTestStep (t : Fin 7) (st : IstStep) (s : State) : Host.Outcome State Fault Refusal := .next (istStep t.val st s)

/-- The TAP loads an instruction; those of R494 take the pins in SAFE and SERVICE only, and elsewhere the register behaves as under
SAMPLE/PRELOAD. -/
def loadTap (x : TapInstr) (pins : Bool) (s : State) : State :=
  let free := s.eng.state = .safe || s.eng.state = .service
  s.modTap fun _ => { ir := x, cells := if pins && !free then .samplePreload else x, holds := pins && free }

def execBypass (s : State) : Host.Outcome State Fault Refusal := .next (loadTap .bypass false s)

def execIdcode (s : State) : Host.Outcome State Fault Refusal := .next (loadTap .idcode false s)

def execSamplePreload (s : State) : Host.Outcome State Fault Refusal := .next (loadTap .samplePreload false s)

def execExtest (s : State) : Host.Outcome State Fault Refusal := .next (loadTap .extest true s)

def execExtestPulse (s : State) : Host.Outcome State Fault Refusal := .next (loadTap .extestPulse true s)

def execExtestTrain (s : State) : Host.Outcome State Fault Refusal := .next (loadTap .extestTrain true s)

def execClamp (s : State) : Host.Outcome State Fault Refusal := .next (loadTap .clamp true s)

def execHighz (s : State) : Host.Outcome State Fault Refusal := .next (loadTap .highz true s)

end Sys2Proof.Machine
end

