-- ==== Sys2Proof/Machine/LawInstr.lean ====
section
/-! DEFINITION. The instructions of the law engine (table "Instruction set", R299 to R306, R319). -/

namespace Sys2Proof.Machine

open Sys2Proof.Bits
open Sys2Proof.Fp (FNum)

/-- Results whose one word `d` takes `v`, with the STALE bits of the operands. -/
def toWord (s : State) (d : Nat) (operands : List Nat) (v : FNum) : LawResult :=
  { reads := operands, puts := [(d, v, anyStale s operands)] }

/-- idx(b): truncated and limited to 0 to 255, and whether a limit acts (R300; log 74). -/
def idx (b : FNum) : Nat × Bool :=
  if Fp.isNan b.v then (Config.lawIndex b.v % 256, false)
  else if Fp.isInf b.v then (if Fp.negBit b.v then (0, true) else (255, true))
  else
    let i := Fp.trunc b.v
    if i < 0 then (0, true) else if 255 < i then (255, true) else (i.toNat, false)

def ldResult (d a b : Nat) (s : State) : LawResult :=
  let i := idx (opd s b)
  { reads := [b, a + i.1], puts := [(d, opd s (a + i.1), opdStale s (a + i.1))], clamp := i.2 }

def execLd (x : LawExec) (dst a b : Nat) (s : State) : Host.Outcome State Fault Refusal :=
  .next (lawStep x (.ld LawExec.clean dst a b) (ldResult dst a b) s)

def stResult (d a b : Nat) (s : State) : LawResult :=
  let i := idx (opd s b)
  { reads := [a, b], puts := [(d + i.1, opd s a, opdStale s a)], clamp := i.2 }

def execSt (x : LawExec) (dst a b : Nat) (s : State) : Host.Outcome State Fault Refusal :=
  .next (lawStep x (.st LawExec.clean dst a b) (stResult dst a b) s)

/-- The immediate pattern: SRC_A above SRC_B. -/
def immediate (a b : Nat) : F32 := BitVec.ofNat 32 (a % 2 ^ 16 * 2 ^ 16 + b % 2 ^ 16)

def movResult (imm : Bool) (d a b : Nat) (s : State) : LawResult :=
  if imm then { reads := [], puts := [(d, FNum.of (immediate a b), false)] } else toWord s d [a] (opd s a)

def execMov (x : LawExec) (imm : Bool) (dst a b : Nat) (s : State) : Host.Outcome State Fault Refusal :=
  .next (lawStep x (.mov LawExec.clean imm dst a b) (movResult imm dst a b) s)

def addResult (d a b : Nat) (s : State) : LawResult := toWord s d [a, b] ((opd s a).add (opd s b))

def execAdd (x : LawExec) (dst a b : Nat) (s : State) : Host.Outcome State Fault Refusal :=
  .next (lawStep x (.add LawExec.clean dst a b) (addResult dst a b) s)

def subResult (d a b : Nat) (s : State) : LawResult := toWord s d [a, b] ((opd s a).sub (opd s b))

def execSub (x : LawExec) (dst a b : Nat) (s : State) : Host.Outcome State Fault Refusal :=
  .next (lawStep x (.sub LawExec.clean dst a b) (subResult dst a b) s)

def mulResult (d a b : Nat) (s : State) : LawResult := toWord s d [a, b] ((opd s a).mul (opd s b))

def execMul (x : LawExec) (dst a b : Nat) (s : State) : Host.Outcome State Fault Refusal :=
  .next (lawStep x (.mul LawExec.clean dst a b) (mulResult dst a b) s)

def macResult (d a b : Nat) (s : State) : LawResult := toWord s d [d, a, b] ((opd s d).mac (opd s a) (opd s b))

def execMac (x : LawExec) (dst a b : Nat) (s : State) : Host.Outcome State Fault Refusal :=
  .next (lawStep x (.mac LawExec.clean dst a b) (macResult dst a b) s)

def absResult (d a : Nat) (s : State) : LawResult := toWord s d [a] (opd s a).abs

def execAbs (x : LawExec) (dst a : Nat) (s : State) : Host.Outcome State Fault Refusal :=
  .next (lawStep x (.abs LawExec.clean dst a) (absResult dst a) s)

def minResult (d a b : Nat) (s : State) : LawResult := toWord s d [a, b] ((opd s a).min (opd s b))

def execMin (x : LawExec) (dst a b : Nat) (s : State) : Host.Outcome State Fault Refusal :=
  .next (lawStep x (.min LawExec.clean dst a b) (minResult dst a b) s)

def maxResult (d a b : Nat) (s : State) : LawResult := toWord s d [a, b] ((opd s a).max (opd s b))

def execMax (x : LawExec) (dst a b : Nat) (s : State) : Host.Outcome State Fault Refusal :=
  .next (lawStep x (.max LawExec.clean dst a b) (maxResult dst a b) s)

def selResult (d a b : Nat) (s : State) : LawResult := toWord s d [a, b] (if s.law.c then opd s a else opd s b)

def execSel (x : LawExec) (dst a b : Nat) (s : State) : Host.Outcome State Fault Refusal :=
  .next (lawStep x (.sel LawExec.clean dst a b) (selResult dst a b) s)

/-- COND: 0 GT, 1 GE, 2 EQ, 3 NE, 4 LT, 5 LE. -/
def compareNum (cond : Fin 6) (a b : FNum) : Bool :=
  match cond with
  | 0 => b.lt a | 1 => b.le a | 2 => a.eq b | 3 => !a.eq b | 4 => a.lt b | 5 => a.le b

def cmpResult (cond : Fin 6) (d a b : Nat) (s : State) : LawResult :=
  let h := compareNum cond (opd s a) (opd s b)
  { toWord s d [a, b] (if h then FNum.one else FNum.of 0) with cond := some h }

def execCmp (x : LawExec) (cond : Fin 6) (dst a b : Nat) (s : State) : Host.Outcome State Fault Refusal :=
  .next (lawStep x (.cmp LawExec.clean cond dst a b) (cmpResult cond dst a b) s)

def brfResult (inv : Bool) (a skip : Nat) (s : State) : LawResult :=
  { reads := [a], puts := [], skip := if !(opd s a).zero != inv then skip else 0 }

def execBrf (x : LawExec) (inv : Bool) (a skip : Nat) (s : State) : Host.Outcome State Fault Refusal :=
  .next (lawStep x (.brf LawExec.clean inv a skip) (brfResult inv a skip) s)

/-- First word of the parameter block (R298). -/
def blockAt (byp : Bool) (b : Nat) : Nat := if byp then b + 1 else b

/-- The bypass word is not 0 (R302). -/
def bypassed (s : State) (byp : Bool) (b : Nat) : Bool := byp && !(opd s b).zero

/-- A block instruction with `n` block words: its writes while bypassed, and in operation, given a's STALE bit (R302,
R304). -/
def blockResult (s : State) (byp : Bool) (a b n : Nat) (pass run : Bool → List (Nat × FNum × Bool)) : LawResult :=
  let st := opdStale s a
  { reads := a :: (List.range (if byp then n + 1 else n)).map (b + ·)
    puts := if bypassed s byp b then pass st else run st }

def limResult (byp : Bool) (d a b : Nat) (s : State) : LawResult :=
  let k := blockAt byp b
  blockResult s byp a b 2 (fun st => [(d, opd s a, st)])
    (fun st => [(d, FNum.limit (opd s k) (opd s (k + 1)) (opd s a), st)])

def execLim (x : LawExec) (byp : Bool) (dst a b : Nat) (s : State) : Host.Outcome State Fault Refusal :=
  .next (lawStep x (.lim LawExec.clean byp dst a b) (limResult byp dst a b) s)

def slewResult (byp : Bool) (d a b : Nat) (s : State) : LawResult :=
  let k := blockAt byp b
  let v := opd s (k + 2)
  let r := v.add (FNum.limit (opd s (k + 1)).neg (opd s k) ((opd s a).sub v))
  blockResult s byp a b 3 (fun st => [(k + 2, opd s a, st), (d, opd s a, st)]) (fun st => [(k + 2, r, st), (d, r, st)])

def execSlew (x : LawExec) (byp : Bool) (dst a b : Nat) (s : State) : Host.Outcome State Fault Refusal :=
  .next (lawStep x (.slew LawExec.clean byp dst a b) (slewResult byp dst a b) s)

def lpfResult (byp : Bool) (d a b : Nat) (s : State) : LawResult :=
  let k := blockAt byp b
  let v := opd s (k + 1)
  let r := v.add ((opd s k).mul ((opd s a).sub v))
  blockResult s byp a b 2 (fun st => [(k + 1, opd s a, st), (d, opd s a, st)]) (fun st => [(k + 1, r, st), (d, r, st)])

def execLpf (x : LawExec) (byp : Bool) (dst a b : Nat) (s : State) : Host.Outcome State Fault Refusal :=
  .next (lawStep x (.lpf LawExec.clean byp dst a b) (lpfResult byp dst a b) s)

/-- State words of a bypassed BIQ: its steady state under the present coefficients (table "Bypass behaviour"); a NaN on the way to
1 + a1 + a2 stays noted (R296). -/
def biqPreload (b0 b1 b2 a1 a2 a : FNum) : FNum × FNum :=
  let den := (FNum.one.add a1).add a2
  if den.norm.zero then ({ v := 0, nan := den.norm.nan }, { v := 0, nan := den.norm.nan })
  else
    let g := ((b0.add b1).add b2).quot den
    let s2 := (b2.sub (a2.mul g)).mul a
    ((b1.sub (a1.mul g)).mul a |>.add s2, s2)

def biqResult (byp : Bool) (d a b : Nat) (s : State) : LawResult :=
  let k := blockAt byp b
  let w := opd s a
  let b0 := opd s k
  let b1 := opd s (k + 1)
  let b2 := opd s (k + 2)
  let a1 := opd s (k + 3)
  let a2 := opd s (k + 4)
  let y := (b0.mul w).add (opd s (k + 5))
  let s1 := ((b1.mul w).sub (a1.mul y)).add (opd s (k + 6))
  let s2 := (b2.mul w).sub (a2.mul y)
  let p := biqPreload b0 b1 b2 a1 a2 w
  blockResult s byp a b 7 (fun st => [(d, w, st), (k + 5, p.1, st), (k + 6, p.2, st)])
    (fun st => [(d, y, st), (k + 5, s1, st), (k + 6, s2, st)])

def execBiq (x : LawExec) (byp : Bool) (dst a b : Nat) (s : State) : Host.Outcome State Fault Refusal :=
  .next (lawStep x (.biq LawExec.clean byp dst a b) (biqResult byp dst a b) s)

def piResult (byp : Bool) (d a b : Nat) (s : State) : LawResult :=
  let k := blockAt byp b
  let lo := opd s (k + 2)
  let hi := opd s (k + 3)
  let i := FNum.limit lo hi ((opd s (k + 4)).add ((opd s (k + 1)).mul (opd s a)))
  let y := FNum.limit lo hi (((opd s k).mul (opd s a)).add i)
  blockResult s byp a b 5 (fun st => [(d, opd s a, st)]) (fun st => [(k + 4, i, st), (d, y, st)])

def execPi (x : LawExec) (byp : Bool) (dst a b : Nat) (s : State) : Host.Outcome State Fault Refusal :=
  .next (lawStep x (.pi LawExec.clean byp dst a b) (piResult byp dst a b) s)

def intgResult (byp : Bool) (d a b : Nat) (s : State) : LawResult :=
  let k := blockAt byp b
  let r := FNum.limit (opd s (k + 1)) (opd s (k + 2)) ((opd s (k + 3)).add ((opd s k).mul (opd s a)))
  blockResult s byp a b 4 (fun st => [(k + 3, opd s a, st), (d, opd s a, st)]) (fun st => [(k + 3, r, st), (d, r, st)])

def execIntg (x : LawExec) (byp : Bool) (dst a b : Nat) (s : State) : Host.Outcome State Fault Refusal :=
  .next (lawStep x (.intg LawExec.clean byp dst a b) (intgResult byp dst a b) s)

def diffResult (byp : Bool) (d a b : Nat) (s : State) : LawResult :=
  let k := blockAt byp b
  let r := (opd s k).mul ((opd s a).sub (opd s (k + 1)))
  blockResult s byp a b 2 (fun st => [(d, opd s a, st), (k + 1, opd s a, st)])
    (fun st => [(d, r, st), (k + 1, opd s a, st)])

def execDiff (x : LawExec) (byp : Bool) (dst a b : Nat) (s : State) : Host.Outcome State Fault Refusal :=
  .next (lawStep x (.diff LawExec.clean byp dst a b) (diffResult byp dst a b) s)

/-- Results in the words d and d + 1. -/
def toPair (s : State) (d : Nat) (operands : List Nat) (v w : FNum) : LawResult :=
  let st := anyStale s operands
  { reads := operands, puts := [(d, v, st), (d + 1, w, st)] }

def clarkeResult (three : Bool) (d a : Nat) (s : State) : LawResult :=
  let u := opd s a
  let v := opd s (a + 1)
  let w := opd s (a + 2)
  if three then
    toPair s d [a, a + 1, a + 2] ((((FNum.two.mul u).sub v).sub w).mul FNum.third) ((v.sub w).mul FNum.invSqrt3)
  else toPair s d [a, a + 1] u ((u.add (FNum.two.mul v)).mul FNum.invSqrt3)

def execClarke (x : LawExec) (three : Bool) (dst a : Nat) (s : State) : Host.Outcome State Fault Refusal :=
  .next (lawStep x (.clarke LawExec.clean three dst a) (clarkeResult three dst a) s)

def parkResult (d a b : Nat) (s : State) : LawResult :=
  let al := opd s a
  let be := opd s (a + 1)
  let sn := opd s b
  let cs := opd s (b + 1)
  toPair s d [a, a + 1, b, b + 1] ((al.mul cs).add (be.mul sn)) ((al.neg.mul sn).add (be.mul cs))

def execPark (x : LawExec) (dst a b : Nat) (s : State) : Host.Outcome State Fault Refusal :=
  .next (lawStep x (.park LawExec.clean dst a b) (parkResult dst a b) s)

def iparkResult (d a b : Nat) (s : State) : LawResult :=
  let vd := opd s a
  let vq := opd s (a + 1)
  let sn := opd s b
  let cs := opd s (b + 1)
  toPair s d [a, a + 1, b, b + 1] ((vd.mul cs).sub (vq.mul sn)) ((vd.mul sn).add (vq.mul cs))

def execIpark (x : LawExec) (dst a b : Nat) (s : State) : Host.Outcome State Fault Refusal :=
  .next (lawStep x (.ipark LawExec.clean dst a b) (iparkResult dst a b) s)

def sincosResult (d a : Nat) (s : State) : LawResult := toPair s d [a] (opd s a).sin (opd s a).cos

def execSincos (x : LawExec) (dst a : Nat) (s : State) : Host.Outcome State Fault Refusal :=
  .next (lawStep x (.sincos LawExec.clean dst a) (sincosResult dst a) s)

/-- The three duties of SVM: the phase voltages are formed whatever the bus voltage, and a NaN among them stays noted (R296). -/
def svmDuties (al be bus : FNum) : FNum × FNum × FNum :=
  let h := al.neg.mul FNum.half
  let k := be.mul FNum.sqrt3Half
  let v := h.add k
  let w := h.sub k
  let mean := (((al.max v).max w).add ((al.min v).min w)).mul FNum.half
  let duty (p : FNum) :=
    let d := p.sub mean
    if bus.le (FNum.of 0) then { FNum.half with nan := d.nan }
    else FNum.limit (FNum.of 0) FNum.one (FNum.half.add (d.quot bus))
  (duty al, duty v, duty w)

def svmResult (d a b : Nat) (s : State) : LawResult :=
  let u := svmDuties (opd s a) (opd s (a + 1)) (opd s b)
  let st := anyStale s [a, a + 1, b]
  { reads := [a, a + 1, b], puts := [(d, u.1, st), (d + 1, u.2.1, st), (d + 2, u.2.2, st)] }

def execSvm (x : LawExec) (dst a b : Nat) (s : State) : Host.Outcome State Fault Refusal :=
  .next (lawStep x (.svm LawExec.clean dst a b) (svmResult dst a b) s)

/-- rlim, widened while a splice window is open on a rope of the axis (R345). -/
def residualLimit (s : State) (q : Nat) (rlim : FNum) : FNum :=
  if decide (q < 16) && s.img.axisEn q && spliceOpen s q then rlim.mul (FNum.of (s.img.axWiden q)) else rlim

/-- OBS (R319). -/
def obsResult (d a b : Nat) (s : State) : LawResult :=
  let w := opd s (b + 7)
  let rf := opd s (b + 8)
  let n := opd s (b + 9)
  let h := opd s (b + 10)
  let m := opd s (a + 1)
  let nlim := opd s (b + 4)
  let q := quantity (opd s (b + 5))
  let rlim := residualLimit s q (opd s (b + 3))
  let pred := w.add ((opd s b).mul (opd s a))
  let r := m.sub pred
  let reads := [a, a + 1] ++ (List.range 12).map (b + ·)
  if !opdStale s (a + 1) && (h.zero || r.abs.le rlim) then
    let rf' := rf.add ((opd s (b + 2)).mul (r.sub rf))
    let w' := pred.add ((opd s (b + 1)).mul r)
    let n' := if h.zero then (if rlim.lt rf'.abs then n.add FNum.one else FNum.of 0) else n
    { reads := reads
      puts := [(b + 8, rf', false), (b + 7, w', false), (b + 11, FNum.one, false), (b + 9, n', false), (d, w', false),
               (d + 1, rf', false)]
      effect := .plaus q (h.zero && n'.eq nlim) (nlim.le n') n'.zero }
  else
    { reads := reads
      puts := [(b + 7, pred, false), (b + 11, FNum.of 0, false), (d, pred, false), (d + 1, rf, false)]
      met := !opdStale s (a + 1) && r.nan
      effect := .plaus q false (nlim.le n) n.zero }

def execObs (x : LawExec) (dst a b : Nat) (s : State) : Host.Outcome State Fault Refusal :=
  .next (lawStep x (.obs LawExec.clean dst a b) (obsResult dst a b) s)

/-- HOLD (R319): h saturates at 65. -/
def holdResult (d a b : Nat) (s : State) : LawResult :=
  let h := opd s (b + 10)
  let q := quantity (opd s (b + 5))
  let reads := [a, b + 5, b + 6, b + 7, b + 10, b + 11]
  if !opdStale s a && (h.zero || !(opd s (b + 11)).zero) then
    { reads := reads, puts := [(d, opd s a, false), (b + 10, FNum.of 0, false)], effect := .held q false true false }
  else
    let h' := (h.add FNum.one).min (FNum.of 0x42820000)
    let last := (opd s (b + 6)).add FNum.one
    { reads := reads
      puts := [(d, opd s (b + 7), false), (b + 10, h', false)]
      met := last.nan
      effect := .held q ((FNum.of 0).lt h') h'.zero (h'.eq last) }

def execHold (x : LawExec) (dst a b : Nat) (s : State) : Host.Outcome State Fault Refusal :=
  .next (lawStep x (.hold LawExec.clean dst a b) (holdResult dst a b) s)

/-- SHARE (R304, R306): the value of the last ring cycle, with the STALE bit of the operand; a channel on which the sender did not execute SHARE, or whose value
was not delivered, leaves the word's value. -/
def shareResult (d a ch : Nat) (s : State) : LawResult :=
  let p := match s.law.shareIn.lookup ch with
    | some (v, false) => (FNum.of v, opdStale s a)
    | some (_, true) => (opd s d, true)
    | none => (opd s d, false)
  { reads := [a], puts := [(d, p.1, p.2)], effect := .share ch (opd s a) }

def execShare (x : LawExec) (dst a ch : Nat) (s : State) : Host.Outcome State Fault Refusal :=
  .next (lawStep x (.share LawExec.clean dst a ch) (shareResult dst a ch) s)

/-- IN (R303): the latched value, with its freshness. -/
def inpResult (d port : Nat) (s : State) : LawResult :=
  let p := (s.law.latched.find? fun x => x.port = port).getD { port := port, v := Config.freePort port, fresh := false }
  { reads := [], puts := [(d, FNum.of p.v, !p.fresh)] }

def execInp (x : LawExec) (dst port : Nat) (s : State) : Host.Outcome State Fault Refusal :=
  .next (lawStep x (.inp LawExec.clean dst port) (inpResult dst port) s)

/-- OUT (R305): committed at the last END of the sample. -/
def outResult (a port : Nat) (s : State) : LawResult := { reads := [a], puts := [], effect := .out port (opd s a) }

def execOut (x : LawExec) (a port : Nat) (s : State) : Host.Outcome State Fault Refusal :=
  .next (lawStep x (.out LawExec.clean a port) (outResult a port) s)

def endResult (_ : State) : LawResult := { reads := [], puts := [], effect := .endp }

def execEndp (x : LawExec) (s : State) : Host.Outcome State Fault Refusal :=
  .next (lawStep x (.endp LawExec.clean) endResult s)

end Sys2Proof.Machine
end

