-- ==== Sys2Proof/Machine/LawTime.lean ====
section
/-! DEFINITION. The base sample: what the boundary writes and sends, the close of the input window, the output reserve, and
LAW_CTRL (R182, R308 to R315, R326, R327, R339, R341, R347, R351 to R354, R377). -/

namespace Sys2Proof.Machine

open Sys2Proof.Bits

/-- Per-sample change of a speed in au per second at `a` au per second squared. -/
def perSample (s : State) (a : Int) : Int := a * s.img.tS / 100000000

/-- A value moved towards another by at most a step. -/
def towards (toV step v : Int) : Int := if v < toV then min toV (v + step) else max toV (v - step)

/-- SPEED and ACCEL that the leader's GROUP_RUN gives a member (R405). -/
def groupSpeed (s : State) : State :=
  match s.img.group with
  | none => s
  | some i =>
    let n := ctrlNode s i
    let w := n.words.getD 8 0
    if groupLeader s || n.stale || w % 65536 = 0 || w / 65536 = 0 || s.eng.state != .run then s
    else s.modRun fun r => { r with speed := w % 65536, accel := w / 65536 }

/-- The run planner at a boundary (R182, R183): v_ramp moves towards SPEED, and v_ref follows the plan. -/
def planStep (s : State) : State :=
  if s.run.active && (s.eng.state = .run || s.eng.state = .halting) then
    let s := s.modRun fun r => { r with vRamp := towards (speedAu r.speed) (perSample s (accelAu r.accel)) r.vRamp }
    let v := refSpeed s
    s.modRun fun r => { r with vRef := v, delayed := r.halt.isSome && v = r.vRamp }
  else s.modRun fun r => { r with vRef := 0, delayed := false }

/-- BELAY_DEC × T_S in m/s, as numerator over 10¹¹. -/
def belayDrop (s : State) : Int := (s.img.belayDec * s.img.tS : Nat)

/-- Raw-position speed as binary32 m/s (port 0x0103). -/
def rawSpeed (s : State) : F32 := Fp.ofRat (rawAdvance s) (30 * s.img.estWin)

/-- ANCHOR_STALE holds: the reports of the eyelet anchor have stopped (R160). -/
def anchorStale (s : State) : Bool := s.anch.src = 2 && s.anch.eyeLost

/-- The belay profile (R351, R353): v_b falls to 0, and with a bus ABSORB_LOST no faster than the raw-position speed, except
while ANCHOR_STALE holds. -/
def belayStep (s : State) : State :=
  if s.eng.state = .belay && s.eng.stop = .belay then
    let v := Fp.exact s.vBelay
    let down := max 0 (v * 100000000000 - belayDrop s * 2 ^ 149)
    let floor := if s.bus.any (·.absorbLost) && !anchorStale s then Fp.exact (rawSpeed s) * 100000000000 else 0
    let toV := min (v * 100000000000) (max down floor)
    s.modVBelay fun _ => Fp.ofRat toV (2 ^ 149 * 100000000000)
  else s

/-- v_b (R341): the web speed reference, or the belay profile. -/
def vB (s : State) : F32 :=
  if s.eng.state = .belay && s.eng.stop = .belay then s.vBelay else auToMs s.run.vRef

/-- Rope mode port (R341): 0 run, 1 belay, 2 off (log 90). -/
def ropeMode (s : State) : Nat :=
  match s.eng.state with
  | .down | .boot | .safe => 2
  | .belay => if s.eng.stop = .belay then 1 else 2
  | _ => 0

/-- DRAW_r limited to ±0.1, and whether the limit acts (R341). -/
def drawRatio (s : State) (r : Nat) : Int × Bool :=
  let d := Fp.xval (opd s (s.img.ropeDraw r)).v
  let lim := Fp.exact (Fp.ofRat 1 10)
  (clampI (-lim) lim d, decide (lim < d ∨ d < -lim))

/-- Speed reference of a rope: v_b × (1 + DRAW_r), rounded once. -/
def ropeSpeed (s : State) (r : Nat) : F32 := Fp.ofRat (Fp.exact (vB s) * (2 ^ 149 + (drawRatio s r).1)) (2 ^ 298)

/-- Change of a value over a sample, per second (log 49). -/
def perSecond (s : State) (new old : F32) : F32 :=
  Fp.ofRat ((Fp.exact new - Fp.exact old) * 100000000) (2 ^ 149 * s.img.tS)

/-- The four ports of a rope (R341). -/
def ropePorts (s : State) (r : Nat) : List (Nat × F32) :=
  let x := tab s.rope Rope.reset r
  let v := ropeSpeed s r
  [(0x500 + 4 * r, v), (0x501 + 4 * r, perSecond s v x.vRef), (0x502 + 4 * r, Fp.ofRat (ropeMode s : Nat) 1),
   (0x503 + 4 * r, if x.splice then Fp.one else 0)]

/-- Speed schedule of an HV channel at `n` in 0.1 m/min times `d` (R377): the first segment whose end is not passed. -/
def hvSegments (l : Img) (c : Nat) (n d : Int) : Nat → Nat → F32
  | 0, i => l.hvS c i
  | k + 1, i =>
    let a : Int := (l.hvV c i : Nat)
    let b : Int := (l.hvV c (i + 1) : Nat)
    if n ≤ a * d then l.hvS c i
    else if n ≤ b * d then
      Fp.ofRat (Fp.exact (l.hvS c i) * ((b - a) * d) + (Fp.exact (l.hvS c (i + 1)) - Fp.exact (l.hvS c i)) * (n - a * d))
        ((b - a) * d * 2 ^ 149).toNat
    else hvSegments l c n d k (i + 1)

/-- Scheduled set-point of channel `c` at v_b. -/
def hvSchedule (s : State) (c : Nat) : F32 :=
  hvSegments s.img c (((Fp.exact (vB s)).natAbs : Int) * 600) (2 ^ 149) 7 0

/-- Ports that the boundary writes. -/
def boundaryPorts (s : State) (old : F32) : List (Nat × F32) :=
  let v := auToMs s.run.vRef
  [(0x100, v), (0x101, perSecond s v old), (0x102, Fp.ofRat (s.anch.raw - s.law.rawAt) 3000000000)] ++
    s.img.ropes.flatMap (ropePorts s) ++ (List.range 24).map fun c => (0x300 + c, hvSchedule s c)

/-- Uncorrectable DRAW words count as data reads (R325). -/
def drawReads (s : State) : State :=
  lawReads { reads := s.img.ropes.map s.img.ropeDraw, puts := [] } s s

/-- The controller writes its ports (R341, R377). `old` is v_ref of the boundary before. -/
def writePorts (old : F32) (s : State) : State :=
  let ps := boundaryPorts s old
  let lim := s.img.ropes.any fun r => (drawRatio s r).2
  let refs := s.img.ropes.map fun r => (r, ropeSpeed s r)
  let raw := s.anch.raw
  let s := s.modLaw fun l => { l with ports := ps, rawAt := raw }
  let s := s.modDrawLim fun b => b || lim
  let s := if lim then setsBit 0x820C 0 s else s
  drawReads (refs.foldl (fun s x => s.atRope x.1 fun y => { y with vRef := x.2 }) s)

/-- Value of a link at its next step (R312): V + (X − V) × i ÷ DIV, rounded once, and X at the last. -/
def LinkRun.value (a : LinkRun) : F32 :=
  if a.steps ≤ a.i + 1 then a.x
  else Fp.flush (Fp.ofRat (Fp.exact a.v * a.steps + (Fp.exact a.x - Fp.exact a.v) * (a.i + 1 : Nat)) (2 ^ 149 * a.steps))

/-- The links of a boundary (R312, R313). -/
def updateLinks (s : State) : State :=
  let runs := s.law.links
  let s := runs.foldl (fun s a => dput a.dest a.value a.stale s) s
  let s := if runs.isEmpty then s else noteQuantities s
  s.modLaw fun l => { l with links := (runs.filter fun a => decide (a.i + 1 < a.steps)).map fun a => { a with i := a.i + 1 } }

/-- The tension comparison of a rope (R346; log 50). -/
def tensionCheck (r : Nat) (s : State) : State :=
  let p := s.img.ropeTensPort r
  let on := s.eng.state = .run || s.eng.state = .halting || (s.eng.state = .belay && s.eng.stop = .belay)
  if p = 0xFFFF || !on || (tab s.rope Rope.reset r).splice then s.atRope r fun x => { x with tens := 0 }
  else
    let v := (portValue s p).getD (0, false)
    let out := !v.2 || !Fp.finite v.1 || decide (Fp.exact v.1 < Fp.exact (s.img.ropeTensMin r)) ||
      decide (Fp.exact (s.img.ropeTensMax r) < Fp.exact v.1)
    s.atRope r fun x => if out then { x with tens := x.tens + 1 } else { x with tens := 0, tensEp := false }

/-- Number of nearest integer to n ÷ d, halves away from 0 (log 30). -/
def nearest (n : Int) (d : Nat) : Int := if n < 0 then -((-2 * n + d) / (2 * d)) else (2 * n + d) / (2 * d)

/-- Chopper duty of a bus in 1/65,535 (R347). -/
def chopDuty (s : State) (b : Nat) : Nat :=
  let on := s.img.chopOn b
  let full := s.img.chopFull b
  let v := (tab s.bus DcBus.reset b).vdc
  if full ≤ on then 0 else (nearest (65535 * (min (v - on) (full - on) : Nat)) (full - on)).toNat

/-- Value last committed on an out-port, when an OUT has written it. -/
def committed (s : State) (p : Nat) : Option F32 := s.law.outPorts.lookup p

/-- I_BRK_a in 2⁻¹⁴⁹ A, limited to 0 to I_MAX_a (R354). -/
def rampCurrent (s : State) (a i k : Nat) : Int :=
  clampI 0 (Fp.exact (s.img.axIMax a)) (Fp.xval ((committed s (0x1500 + 4 * a)).getD (s.img.slotRampI i k)))

/-- i_q of the ramp unit in units of I_FS ÷ 32,768 (table "Ramp stop"): `t` ticks from its first boundary. -/
def rampTorque (s : State) (a i k t : Nat) : Int :=
  let brk := rampCurrent s a i k
  let cur := min brk (Fp.exact (iRegen s a))
  -- the smallest of I_BRK × t ÷ 10 ms, I_BRK and I_REGEN, times 10⁶
  let m := min (brk * t) (cur * 1000000)
  let w := axisOmegaRat s a
  let q := nearest (m * 32768) ((Fp.exact (s.img.slotIFs i k)).natAbs * 1000000)
  clampI (-32768) 32767 (if 0 < w.1 then -q else if w.1 < 0 then q else 0)

/-- Sign of ω_a. -/
def omegaSign (s : State) (a : Nat) : Int := (axisOmegaRat s a).1.sign

/-- The ramp unit at a boundary (R354): its first one notes the signs, and an axis at AXIS_STILL, with its sign changed or
with T_RAMP_a elapsed goes OFF. -/
def rampStep (s : State) : State :=
  if !s.ramp.active then s
  else
    let s := if s.ramp.start.isSome then s
             else s.modRamp fun r => { r with start := some s.now, sign := Vector.ofFn fun a => omegaSign s a.val }
    let stop (a : Nat) : Bool := axisStill s a || omegaSign s a != tab s.ramp.sign 0 a || rampOver s a
    rampEnd (((enabledAxes s.img).filter stop).foldl (fun s a => rampAxisOff a s) s)

/-- The output stage forces an axis slot OFF (R339, R332). -/
def slotForced (s : State) (i a : Nat) : Bool :=
  let l := tab s.stage StageLink.reset i
  s.eng.state = .safe || s.eng.state = .boot || s.eng.state = .down || (s.eng.state = .belay && s.eng.stop = .coast) || s.law.stop || l.inh ||
    l.training || !s.img.axisEn a

/-- A duty of 0 to 1 in 1/65,535. -/
def dutyWord (v : F32) : Nat := (nearest (65535 * clampI 0 (2 ^ 149) (Fp.xval v)) (2 ^ 149)).toNat

/-- MODE of an axis from its out-port, rounded to 0 to 3 (table "Stage ports"). -/
def outMode (s : State) (a : Nat) : Nat := (clampI 0 3 (nearest (Fp.xval (outPortValue s (0x1003 + 16 * a))) (2 ^ 149))).toNat

/-- What a downstream axis slot carries (R337, R339, R354). -/
def axisSlotOut (s : State) (i k a : Nat) (x : StageSlot) : StageSlot :=
  let off : StageSlot := { x with mode := 0, f0 := 0, f1 := 0, f2 := 0, en := false }
  if slotForced s i a then off
  else if s.ramp.active then
    if tab s.ramp.off true a then off
    else
      let t := s.now - s.ramp.start.getD s.now
      { x with mode := 2, f0 := unsigned 16 (rampTorque s a i k t), f1 := 0, f2 := 0, en := true }
  else
    let p := 0x1000 + 16 * a
    match outMode s a with
    | 0 => off
    | 1 => { x with mode := 1, f0 := dutyWord (outPortValue s p), f1 := dutyWord (outPortValue s (p + 1)),
                    f2 := dutyWord (outPortValue s (p + 2)), en := true }
    | 2 =>
      let q := nearest (Fp.xval (outPortValue s (p + 4)) * 32768) (max 1 (Fp.exact (s.img.slotIFs i k)).natAbs)
      { x with mode := 2, f0 := unsigned 16 (clampI (-32768) 32767 q), f1 := 0, f2 := 0, en := true }
    | _ => { x with mode := 3, f0 := 0, f1 := 0, f2 := 0, en := true }

/-- What a downstream slot carries. -/
def slotOut (s : State) (i k : Nat) (x : StageSlot) : StageSlot :=
  match s.img.slotKind i k with
  | 1 => axisSlotOut s i k (s.img.slotAxis i k) x
  | 2 =>
    if s.eng.state = .boot || (tab s.stage StageLink.reset i).training then { x with mode := 0, f0 := 0, en := false }
    else { x with mode := 1, f0 := chopDuty s (s.img.linkBus i), en := true }
  | _ => x

/-- The downstream frame of a link (R32, R331): SAMPLE k and its slots. -/
def sendFrame (k i : Nat) (s : State) : State :=
  if s.img.linkUse i = 0 then s
  else
    s.atStage i fun l =>
      { l with sample := k % 65536, valid := false, echoed := false
               slot := Vector.ofFn fun j => { slotOut s i j.val l.slot[j] with fresh := false } }

/-- CHOP_DUTY of each bus. -/
def noteDuty (s : State) : State :=
  s.modBus fun v => Vector.ofFn fun b => { v[b] with duty := if s.eng.state = .boot then 0 else chopDuty s b.val }

/-- The law engine at a boundary (R297, R326, R327): it begins, stops, or restarts once every program word reads clean. -/
def Law.boundary (k : Nat) (l : Law) : Law :=
  let l := { l with sample := k % 2 ^ 32, begun := l.begun || l.started, stopped := l.stop }
  if !l.restart then l
  else if l.prgBad || !l.progBad.isEmpty then { l with restart := false, prgBad := true, halted := true }
  else { l with restart := false, halted := false, c := false, due := [], outNew := [], shareNew := [], linkNew := [] }

/-- A restart that finds a bad program word halts the law engine, and every heater goes low in that tick (R326, R375). -/
def boundaryLaw (k : Nat) (s : State) : State :=
  let s := if s.law.restart && (s.law.prgBad || !s.law.progBad.isEmpty) then allHeatersLow s else s
  s.modLaw (Law.boundary k)

/-- The downstream frames of a boundary, choppers among them (R331, R347). -/
def sendFrames (k : Nat) (s : State) : State := eight.foldl (fun s i => sendFrame k i s) (noteDuty s)

/-- The stage PHYs operate: in DOWN until PD6 is switched off at the end of the shut-down sequence (table "Shut-down
sequence", step 4). -/
def stagePhyOn (s : State) : Bool := s.eng.state != .down || tab s.pwr.domain 0 6 = 2

/-- BASE_SAMPLE_BOUNDARY (R313): the boundary's number is ring time ÷ T_S. In DOWN only the stage links run (R347). -/
def baseBoundary (s : State) : State :=
  let k := s.boundary
  if s.eng.state = .down then (if stagePhyOn s then sendFrames k s else s)
  else
    let old := auToMs s.run.vRef
    let s := belayStep (planStep (groupSpeed (applyModifies s)))
    let s := applyParam k s
    let s := s.img.ropes.foldl (fun s r => tensionCheck r s) s
    let s := updateLinks (writePorts old s)
    let s := rampStep s
    dmaEvent 24 (boundaryLaw k (sendFrames k s))

def execBaseSampleBoundary (s : State) : Host.Outcome State Fault Refusal := .next (baseBoundary s)

/-- A link at the close of the input window (R331): an echo that is missing, and slots without a fresh frame. -/
def StageLink.close (l : StageLink) : StageLink :=
  if !l.up then l
  else { l with echoErr := if l.echoed then l.echoErr else sat 8 (l.echoErr + 1)
                slot := l.slot.map fun x => if x.fresh then x else { x with missing := x.missing + 1 } }

/-- Current of a chopper stays below CHOP_I_MIN at a duty of 0.25 or more (R348). -/
def chopperLow (s : State) (i k : Nat) (x : StageSlot) : Bool :=
  decide (65535 ≤ 4 * x.f0) && x.mode = 1 &&
    decide (x.iu * Fp.exact (s.img.slotIFs i k) * 10 < (s.img.chopIMin (s.img.linkBus i) : Nat) * (32768 * 2 ^ 149))

/-- Low-current samples of the chopper slots. -/
def countChoppers (s : State) : State :=
  (Img.allSlots.filter fun x => s.img.slotKind x.1 x.2 = 2).foldl
    (fun s x => s.atStage x.1 fun l =>
      { l with slot := updAt l.slot x.2 fun y => { y with lowI := if chopperLow s x.1 x.2 y then y.lowI + 1 else 0 } }) s

/-- V_b of a bus: the highest VDC of the valid frames of its links in this sample, the last one kept without any
(log 50), and the samples above VBUS_TRIP (R350). -/
def closeBus (s : State) (b : Nat) (x : DcBus) : DcBus :=
  let links := (usedOn s b).filter fun i => (tab s.stage StageLink.reset i).valid
  let v := if links.isEmpty then x.vdc else links.foldl (fun m i => max m (tab s.stage StageLink.reset i).vdc) 0
  { x with vdc := v, fresh := !links.isEmpty
           ovr := if !links.isEmpty && decide (s.img.busTripV b < v) then x.ovr + 1 else 0 }
where
  usedOn (s : State) (b : Nat) : List Nat := eight.filter fun i => s.img.linkUse i != 0 && s.img.linkBus i = b

/-- Standstill of a rope (R352): every local axis within AXIS_STILL for STILL_MS without a break. -/
def ropeQuiet (r : Nat) (s : State) : State :=
  let q := (axesUnder s.img r).all (axisStill s)
  let need := 100000 * s.img.stillMs
  let t := s.img.tS
  s.atRope r fun x =>
    if q then { x with quiet := x.quiet + 1, still := x.still || decide (need ≤ (x.quiet + 1) * t) }
    else { x with quiet := 0, still := false }

/-- The programs of the sample start (R308): C is cleared, and nothing of the sample is committed yet. -/
def startPrograms (s : State) : State :=
  if !lawRunning s then s
  else
    let ps := dueIn s.img s.boundary
    let entry := s.img.prEntry (ps.headD 0)
    s.modLaw fun l => { l with due := ps, pc := entry, c := false, cycles := 0, outNew := [], shareNew := [], linkNew := []
                               last := if ps.isEmpty then 0 else l.last }

/-- The stage links at the close of the input window: freshness, choppers and bus voltages (R331, R347, R348, R350). -/
def closeStages (s : State) : State :=
  let s := countChoppers (s.modStage fun v => v.map StageLink.close)
  s.modBus fun v => Vector.ofFn fun b => closeBus s b.val v[b]

/-- INPUT_WINDOW_CLOSE (R303, R308, R389). In DOWN only the stage links run (R347). -/
def windowClose (s : State) : State :=
  if s.eng.state = .down then (if stagePhyOn s then closeStages s else s)
  else
    let s := closeStages s
    let s := s.img.ropes.foldl (fun s r => ropeQuiet r s) s
    startPrograms (latchPorts ((ringClose s).modAnch Anchor.cycle))

def execInputWindowClose (s : State) : Host.Outcome State Fault Refusal := .next (windowClose s)

/-- OUTPUT_RESERVE_START (R311): a sample whose last program has not ended halts the law engine. -/
def execOutputReserveStart (s : State) : Host.Outcome State Fault Refusal :=
  if s.law.due.isEmpty || !lawRunning s then .next s else .next (lawHalt .overrun 0x102 s)

/-- The checks that a clear of STOP repeats on program RAM (R327). -/
def programRamOk (s : State) : Bool :=
  let code := s.law.prog.take s.img.lawN
  s.law.progBad.all (fun i => decide (s.img.lawN ≤ i)) && lawCodeOk s.img code && obsWordsOk s.img code && budgetOk s.img code

/-- A write of LAW_CTRL (R327), discarded outside IDLE and SERVICE (R6). -/
def writeLawControl (value : Nat) (s : State) : State :=
  if !(s.eng.state = .idle || s.eng.state = .service) || bit value 0 = s.law.stop then s
  else if bit value 0 then allHeatersLow (s.modLaw fun l => { l with stop := true })
  else if programRamOk s then
    let w := worstCost s.img s.law.prog
    s.modLaw fun l => { l with stop := false, restart := true, worst := w }
  else setsBit 0x7004 6 (s.modLaw fun l => { l with checkFail := true })

def execLawControlWrite (value : Word) (s : State) : Host.Outcome State Fault Refusal :=
  .next (if regOpen 2 s then writeLawControl value.toNat s else s)

end Sys2Proof.Machine
end

