-- ==== Sys2Proof/Machine/OtpCmd.lean ====
section
/-! DEFINITION. OTP programming: the checks, PROGRAM, READ, LOCK_W and LOCK_R, and the end of a pulse (R453 to R459). -/

namespace Sys2Proof.Machine

open Sys2Proof.Bits

/-- A command ends: BUSY falls, DONE is set, RESULT holds its status. -/
def otpEnd (st : Status) (s : State) : State :=
  setsBit 0xD00C 1 <| s.modOtp fun o => { o with job := none, done := true, result := st.code }

/-- T_J within 0 °C to 85 °C, and VCP good (check 4); two broken on-die sensors fail it whatever T_CRIT is. -/
def otpConditions (s : State) : Bool := decide (dieBroken s < 2) && inR s.therm.tj.toNat 0 850 && decide (0 ≤ s.therm.tj) && vcpNow s

/-- Word `a` read afresh: its nominal majority. -/
def freshWord (s : State) (a : Nat) : Word := (otpCell s a).nominal

/-- The 256 words of a region read afresh (R457). -/
def freshRegion (s : State) (r : Nat) : List Word := (List.range 256).map fun w => freshWord s (256 * r + w)

/-- A word of the region is marginal at a fresh read. -/
def freshMarginal (s : State) (r : Nat) : Bool := (List.range 256).any fun w => (otpCell s (256 * r + w)).isMarginal

/-- The lock fuses of a kind. -/
def lockCell (s : State) (k : OtpKind) (r : Nat) : OtpCell :=
  tab (match k with | .lockW => s.otp.wFuse | _ => s.otp.rFuse) OtpCell.blank r

/-- What the command is about: a word address, or a region of a lock. -/
def OtpKind.region (k : OtpKind) (addr region : Nat) : Nat := match k with | .program | .read => addr / 256 | _ => region

/-- Check 3: the lock that bars the command. -/
def barred (s : State) (k : OtpKind) (r : Nat) : Bool :=
  match k with
  | .program | .lockW => s.otp.wlock.getLsbD r
  | .read => s.otp.rlock.getLsbD r
  | .lockR => false

/-- Check 5: a bit that the word holds as 1 is 0 in OTP_DATA. -/
def clearsBit (s : State) : Bool := freshWord s s.otp.addr &&& ~~~s.otp.data != 0

/-- The first check that applies (table "Command checks"), after the state. -/
def otpChecks (k : OtpKind) (r : Nat) (s : State) : Option Status :=
  let lock := k = .lockW || k = .lockR
  if barred s k r then some .locked
  else if k != .read && !otpConditions s then some .range
  else if k = .program && clearsBit s then some .field
  else if k = .lockR && !s.otp.wlock.getLsbD r then some .state
  else if lock && freshMarginal s r then some .verify
  else if lock && !wordsValid (freshRegion s r) then some .otpCrc
  else none

/-- The cell that a job blows: a word, or a lock's fuses. -/
def jobCell (s : State) (j : OtpJob) : OtpCell :=
  match j.kind with | .program | .read => otpCell s j.addr | k => lockCell s k j.addr

def putJobCell (j : OtpJob) (c : OtpCell) (s : State) : State :=
  match j.kind with
  | .program | .read => s.modOtp fun o => { o with cells := sput OtpCell.blank o.cells j.addr c }
  | .lockW => s.modOtp fun o => { o with wFuse := updAt o.wFuse j.addr fun _ => c }
  | .lockR => s.modOtp fun o => { o with rFuse := updAt o.rFuse j.addr fun _ => c }

/-- Copy `k` at nominal and at margin level. -/
def OtpCell.copy (c : OtpCell) (k : Nat) : Word × Word := match k with | 0 => (c.n0, c.m0) | 1 => (c.n1, c.m1) | _ => (c.n2, c.m2)

def OtpCell.setCopy (c : OtpCell) (k : Nat) (n m : Word) : OtpCell :=
  match k with
  | 0 => { c with n0 := n, m0 := m }
  | 1 => { c with n1 := n, m1 := m }
  | _ => { c with n2 := n, m2 := m }

/-- The end of the third copy (R456). -/
def otpFinish (j : OtpJob) (s : State) : State :=
  let s := s.modOtp fun o => { o with marg := decide (j.verified = 2), retries := min 7 j.extra, copies := j.verified }
  otpEnd (if 2 ≤ j.verified then .ok else .verify) s

/-- The job at the start of its present copy: with every bit to blow blown already and a good margin read, the copy
verifies without a pulse; bits that only fail the margin read start with a retry. `fuel` counts copies. -/
def otpCopy : Nat → OtpJob → State → State
  | 0, j, s => otpFinish j s
  | fuel + 1, j, s =>
    let (n, m) := (jobCell s j).copy j.copy
    if j.data &&& ~~~n != 0 then s.modOtp fun o => { o with job := some { j with pulses := 0 } }
    else if j.data &&& ~~~m != 0 then s.modOtp fun o => { o with job := some { j with pulses := 1 } }
    else otpCopy fuel { j with copy := j.copy + 1, pulses := 0, verified := j.verified + 1 } s

/-- A copy has ended, verified or not. -/
def otpNext (ok : Bool) (j : OtpJob) (s : State) : State :=
  otpCopy (2 - j.copy)
    { j with copy := j.copy + 1, verified := j.verified + b2n ok, extra := max j.extra (j.pulses - 1), pulses := 0 } s

/-- PROGRAM and the locks blow their bits. -/
def otpBlow (k : OtpKind) (addr : Nat) (data : Word) (s : State) : State :=
  otpCopy 3 { kind := k, addr := addr, data := data, copy := 0, pulses := 0, verified := 0, extra := 0 } s

/-- READ (R459). -/
def otpRead (s : State) : State :=
  let c := otpCell s s.otp.addr
  otpEnd .ok (s.modOtp fun o => { o with data := c.nominal, copies := c.agreeing, marg := c.isMarginal })

/-- READ of a read-locked region: OTP_DATA reads 0. -/
def otpRejected (k : OtpKind) (st : Status) (s : State) : State :=
  otpEnd st (if k = .read && st = .locked then s.modOtp fun o => { o with data := 0 } else s)

/-- The command's own effect. A lock that is set already ends OK and blows nothing (R457). -/
def otpRun (k : OtpKind) (r : Nat) (s : State) : State :=
  match k with
  | .read => otpRead s
  | .program => otpBlow .program s.otp.addr s.otp.data s
  | .lockW | .lockR => if (lockCell s k r).nominal.getLsbD 0 then otpEnd .ok s else otpBlow k r 1 s

/-- A write to OTP_CMD (R455): another KEY, or a write while BUSY is 1, is discarded. -/
def otpCommand (k : OtpKind) (key : BitVec 8) (region : Nat) (s : State) : State :=
  if key != 0x5A || s.otp.job.isSome then s
  else if s.eng.state != .service then otpEnd .state s
  else
    let r := k.region s.otp.addr region
    match otpChecks k r s with
    | some st => otpRejected k st s
    | none => otpRun k r s

/-- PROGRAM (R456). -/
def execProgram (key : BitVec 8) (s : State) : Host.Outcome State Fault Refusal :=
  .next (if regOpen 0 s then otpCommand .program key 0 s else s)

/-- READ (R459). -/
def execRead (key : BitVec 8) (s : State) : Host.Outcome State Fault Refusal :=
  .next (if regOpen 0 s then otpCommand .read key 0 s else s)

/-- LOCK_W (R457). -/
def execLockW (key : BitVec 8) (region : Fin 16) (s : State) : Host.Outcome State Fault Refusal :=
  .next (if regOpen 0 s then otpCommand .lockW key region.val s else s)

/-- LOCK_R (R457). -/
def execLockR (key : BitVec 8) (region : Fin 16) (s : State) : Host.Outcome State Fault Refusal :=
  .next (if regOpen 0 s then otpCommand .lockR key region.val s else s)

/-- The copy after a pulse: `seen` is its margin read. Whether a pulsed bit that fails the margin read reads 1 at nominal
level is open (log 42). -/
def pulsed (j : OtpJob) (seen : Word) (c : Nat) (x : OtpCell) : OtpCell :=
  let (n, m) := x.copy j.copy
  let m := m ||| (seen &&& j.data)
  x.setCopy j.copy (n ||| m ||| (j.data &&& BitVec.ofNat 32 (Config.freeNat c))) m

/-- The engine state and the conditions of check 4 before the next pulse (R458). -/
def otpGoOn (j : OtpJob) (s : State) : State :=
  if s.eng.state != .service then otpEnd .state s
  else if !otpConditions s then otpEnd .range s
  else s.modOtp fun o => { o with job := some j }

/-- OTP_PULSE_END (R456, R458): the margin read decides whether the copy verifies, is pulsed again, up to 7 more times, or
fails (log 42). -/
def otpPulseEnd (seen : Word) (s : State) : State :=
  match s.otp.job with
  | none => s
  | some j =>
    let c := pulsed j seen s.freeCtr (jobCell s j)
    let s := putJobCell j c s.useFree
    let j := { j with pulses := j.pulses + 1 }
    let ok := decide (j.data &&& ~~~(c.copy j.copy).2 = 0)
    if ok || 8 ≤ j.pulses then
      let s := otpNext ok j s
      match s.otp.job with | some j' => otpGoOn j' s | none => s
    else otpGoOn j s

def execOtpPulseEnd (verified : Word) (s : State) : Host.Outcome State Fault Refusal := .next (otpPulseEnd verified s)

end Sys2Proof.Machine
end

