-- ==== Sys2Proof/Machine/RegMap.lean ====
section
/-! DEFINITION. Writes to BAR0 by offset (R2 to R6, R496 to R506): a register's RW fields are set, its W1C bits cleared, and
what is read-only, reserved or barred by the engine state is discarded. -/

namespace Sys2Proof.Machine

open Sys2Proof.Bits

/-- A W1C bit after a write of value `v`. -/
def w1c (v i : Nat) (b : Bool) : Bool := b && !bit v i

/-- A word of a 64-bit register replaced (R501). -/
def setWord (upper : Bool) (v old : Nat) : Nat :=
  if upper then old % 2 ^ 32 + v * 2 ^ 32 else old / 2 ^ 32 * 2 ^ 32 + v

/-- ENG_EVENT bits that MASK enables and that read 1. -/
def eventOwed (e : Engine) : Bool :=
  (e.irqMask.getLsbD 0 && e.evStateChg) || (e.irqMask.getLsbD 1 && e.evArmTmo) || (e.irqMask.getLsbD 2 && e.evStopDone)

/-- A write of ENG_IRQ (R506). -/
def writeEngIrq (v : Nat) (s : State) : State :=
  let m : BitVec 3 := BitVec.ofNat 3 (field v 10 8)
  let new := (bit v 6 && !s.eng.irqEn) || (m &&& ~~~s.eng.irqMask) != 0
  let s := s.modEng fun e => { e with irqVector := field v 5 0, irqEn := bit v 6, irqMask := m }
  if new && s.eng.irqEn && eventOwed s.eng then sendMsix s.eng.irqVector s else s

/-- A field whose write of 0 is discarded (R6; log 66). -/
def nonZero (v old : Nat) : Nat := if v = 0 then old else v

/-- A write of `v` to a running maximum: where the controller has taken its newest value `new` in the same tick, the larger of
the two (R502). That tick is marked at bit `b` of the register, which no write reaches. -/
def peakWrite (s : State) (o b v new : Nat) : Nat := if setThisTick s o b then max v new else v

/-- ENG_EVENT, ENG_TIMEOUTS and ENG_IRQ. -/
def writeEng (o v : Nat) (s : State) : State :=
  match o with
  | 0x04 => s.modEng fun e => { e with evStateChg := w1c v 0 e.evStateChg, evArmTmo := w1c v 1 e.evArmTmo
                                       evStopDone := w1c v 2 e.evStopDone }
  | 0x08 =>
    if s.eng.state = .idle then
      s.modEng fun e => { e with armTmo := nonZero (field v 15 0) e.armTmo, coastTmo := nonZero (field v 31 16) e.coastTmo }
    else s
  | 0x0C => writeEngIrq v s
  | _ => s

/-- HOST_EVT_CFG: LOST counts from the write that sets ENABLE (log 68). Events that wait when ENABLE is cleared or CQ changes
are kept, and go to the queue then named (log 123). -/
def writeEvtCfg (v : Nat) (s : State) : State :=
  s.modHost fun h =>
    let on := bit v 3 && !h.evt.enable
    { h with evt := { h.evt with cq := Fin.ofNat 8 (field v 2 0), enable := bit v 3, mask := BitVec.ofNat 8 (field v 15 8)
                                 lost := if on then 0 else h.evt.lost, dropped := if on then 0 else h.evt.dropped } }

/-- The registers of queue pair `q` (R65, R66). -/
def writeQueue (q : Fin 8) (r v : Nat) (s : State) : State :=
  let off := !s.host.q[q].enable
  match r with
  | 0x00 => writeQueueControl q v s
  | 0x04 => modQ q (fun x => { x with dbErr := w1c v 1 x.dbErr, fetchErr := w1c v 2 x.fetchErr }) s
  | 0x08 => if off then modQ q (fun x => { x with sqBase := setWord false (v / 64 * 64) x.sqBase }) s else s
  | 0x0C => if off then modQ q (fun x => { x with sqBase := setWord true v x.sqBase }) s else s
  | 0x10 => if off then modQ q (fun x => { x with cqBase := setWord false (v / 16 * 16) x.cqBase }) s else s
  | 0x14 => if off then modQ q (fun x => { x with cqBase := setWord true v x.cqBase }) s else s
  | 0x18 => doorbell q (BitVec.ofNat 32 v) (fun i x => { x with sqTail := i }) s
  | 0x1C => doorbell q (BitVec.ofNat 32 v) (fun i x => { x with cqHead := i }) s
  | _ => s

/-- HOST block. -/
def writeHost (o v : Nat) (s : State) : State :=
  if o = 0x000 then writeEvtCfg v s
  else if o = 0x004 then
    (if s.eng.state = .idle || s.eng.state = .armed then
      s.modHost fun h => { h with wasteDelay := field v 23 0, wasteMode := bit v 24, wasteMin := field v 31 25 } else s)
  else if o = 0x008 then s.modJobs fun j => { j with spoilMerged := w1c v 12 j.spoilMerged }
  else if inR o 0x100 0x2FF then writeQueue (Fin.ofNat 8 ((o - 0x100) / 0x40)) ((o - 0x100) % 0x40) v s
  else s

/-- STORE block (log 66). -/
def writeStore (o v : Nat) (s : State) : State :=
  match o with
  | 0x00 => s.modStore fun t => { t with scrubEnable := bit v 0, scrubInterval := nonZero (field v 15 8) t.scrubInterval
                                         lapLimit := nonZero (field v 31 16) t.lapLimit }
  | 0x08 => s.modStore fun t => { t with pageLimit := nonZero (field v 15 0) t.pageLimit, window := field v 31 16 }
  | 0x18 => s.modStore fun t => { t with fullSeen := w1c v 8 t.fullSeen }
  | 0x24 => writeBar2Base v s
  | _ => s

/-- ANCH, FACET and REG. -/
def writeWeb (o v : Nat) (s : State) : State :=
  if o = 0x000 then
    s.modAnch fun a => { a with qerr := w1c v 4 a.qerr, zerr := w1c v 5 a.zerr, stale := w1c v 6 a.stale
                                debtTrip := w1c v 7 a.debtTrip }
  else if o = 0x040 then s.modFacet fun f => { f with limited := w1c v 1 f.limited }
  else if inR o 0x060 0x07F then
    s.modFacet fun f =>
      { f with st := updAt f.st ((o - 0x060) / 4) fun x => { x with peak := peakWrite s (0x3000 + o) 0 (field v 15 8) (min 255 x.res.natAbs) } }
  else if inR o 0x080 0x0FF then
    match o % 16 with
    | 0 => writeRegBase ((o - 0x080) / 16) v s
    | 4 => writeRegOffset ((o - 0x080) / 16) false v s
    | 8 => writeRegOffset ((o - 0x080) / 16) true v s
    | _ => s
  else s

/-- CLK and TEMPC. -/
def writeClk (o v : Nat) (s : State) : State :=
  if o = 0x00 then
    s.modClk fun c => { c with pll := Vector.ofFn fun i => { c.pll[i] with unlockSeen := w1c v (16 + i.val) c.pll[i].unlockSeen }
                               refLostSeen := w1c v 24 c.refLostSeen }
  else if o = 0x04 then s.modClk fun c => { c with clamped := w1c v 30 c.clamped }
  else if inR o 0x20 0x3F then
    s.modClk fun c => { c with pll := updAt c.pll ((o - 0x20) / 4) fun p => { p with searchFail := w1c v 9 p.searchFail } }
  else s

/-- SCAN registers of a station. -/
def writeScan (n r v : Nat) (s : State) : State :=
  if r = 0x04 then s.atScan n fun c => { c with renum := w1c v 2 c.renum }
  else if r = 0x0C then s.atScan n fun c => { c with qPeak := peakWrite s (0x410C + 0x40 * n) 0 (field v 31 16) c.qAbs }
  else if inR r 0x20 0x3F then writeCross n ((r - 0x20) / 4) v s
  else s

/-- EXPO registers of a station. -/
def writeExpo (n r v : Nat) (s : State) : State :=
  if r = 0x00 then s.atExpo n fun e => { e with uncomp := w1c v 5 e.uncomp }
  else if r = 0x04 then writeHold n v s
  else if r = 0x18 then writeDead n false v s
  else if r = 0x1C then writeDead n true v s
  else if r = 0x20 then s.atExpo n (cfgLower v)
  else if r = 0x24 then s.atExpo n (cfgUpper v)
  else if inR r 0x40 0x7F then writeTone n ((r - 0x40) / 4) v s
  else s

/-- SP registers of a channel. -/
def writeSp (n r v : Nat) (s : State) : State :=
  if r = 0x00 then
    s.atSp n fun c => { c with cmdLost := w1c v 9 c.cmdLost, catchFail := w1c v 10 c.catchFail
                               startFail := w1c v 11 c.startFail }
  else if r = 0x04 then
    s.atSp n fun c => { c with desat := c.desat &&& ~~~(BitVec.ofNat 6 v), oc := w1c v 6 c.oc
                               bsUv := c.bsUv &&& ~~~(BitVec.ofNat 3 (field v 9 7)), ovf := w1c v 13 c.ovf }
  else s

/-- LAW block. -/
def writeLaw (o v : Nat) (s : State) : State :=
  match o with
  | 0x00 => writeLawControl v s
  | 0x04 => s.modLaw fun l => { l with nan := w1c v 4 l.nan, clamp := w1c v 5 l.clamp, checkFail := w1c v 6 l.checkFail }
  | 0x10 => s.modLaw fun l => { l with peak := peakWrite s 0x7010 31 (field v 15 0) l.last }
  | _ => s

/-- STAGE block. -/
def writeStage (o v : Nat) (s : State) : State :=
  if o < 0x80 then
    (if o % 16 = 0 then
      s.atStage (o / 16) fun l => { l with pair := { l.pair with wireSeen := w1c v 2 l.pair.wireSeen } } else s)
  else if inR o 0x100 0x10F then
    s.modBus fun b => updAt b ((o - 0x100) / 4) fun x => { x with trip := w1c v 17 x.trip }
  else s

/-- AUXp_CMD (table "Auxiliary commands"). -/
def auxCommand (p c : Nat) (s : State) : State :=
  match c with
  | 1 => auxStart p s
  | 2 => s.atAux p (Aux.halt false)
  | 3 => auxResume p s
  | 4 => s.atAux p Aux.discard
  | _ => s

/-- AUX registers of an axis. -/
def writeAux (p r v : Nat) (s : State) : State :=
  match r with
  | 0x00 => s.atAux p fun x => { x with target := signed 32 v }
  | 0x0C => auxProfile p v s
  | 0x10 => auxCommand p (field v 2 0) s
  | 0x14 => s.atAux p fun x => { x with reject := w1c v 3 x.reject }
  | _ => s

/-- FLT block. -/
def writeFlt (o v : Nat) (s : State) : State :=
  if o = 0x010 then
    s.modFlt fun f => { f with sto := { f.sto with wireSeen := w1c v 4 f.sto.wireSeen }
                               estop := { f.estop with wireSeen := w1c v 5 f.estop.wireSeen } }
  else if inR o 0x100 0x13F then
    s.modFlt fun f => { f with sticky := updAt f.sticky ((o - 0x100) / 4) fun m => m &&& ~~~(BitVec.ofNat 32 v) }
  else s

/-- PWR block. -/
def writePwr (o v : Nat) (s : State) : State :=
  match o with
  | 0x08 => s.modPwr fun p => { p with earlyOff := p.earlyOff &&& ~~~(BitVec.ofNat 12 v)
                                       noDischarge := p.noDischarge &&& ~~~(BitVec.ofNat 12 (field v 23 12)) }
  | 0x0C => s.modPwr fun p => { p with low := w1c v 17 p.low }
  | 0x10 => writeMargin v s
  | _ => s

/-- A write of OTP_CMD (R455); CMD other than 1 to 4 ends at check 1 or 2. -/
def writeOtpCmd (v : Nat) (s : State) : State :=
  let key : BitVec 8 := BitVec.ofNat 8 (field v 23 16)
  match field v 2 0 with
  | 1 => otpCommand .program key (field v 11 8) s
  | 2 => otpCommand .read key (field v 11 8) s
  | 3 => otpCommand .lockW key (field v 11 8) s
  | 4 => otpCommand .lockR key (field v 11 8) s
  | _ =>
    if key != 0x5A || s.otp.job.isSome then s
    else otpEnd (if s.eng.state = .service then .field else .state) s

/-- OTP block. -/
def writeOtp (o v : Nat) (s : State) : State :=
  match o with
  | 0x00 => s.modOtp fun t => { t with addr := field v 11 0 }
  | 0x04 => s.modOtp fun t => { t with data := BitVec.ofNat 32 v }
  | 0x08 => writeOtpCmd v s
  | 0x0C => s.modOtp fun t => { t with done := w1c v 1 t.done }
  | _ => s

/-- Table "Channel commands". -/
def chanCommand (k c : Nat) (s : State) : State :=
  match c with
  | 1 => dmaStart k s
  | 2 => dmaStop k s
  | 3 => dmaResume k s
  | 4 => dmaReset k s
  | _ => s

/-- Registers of DMA channel `k`. -/
def writeChan (k r v : Nat) (s : State) : State :=
  match r with
  | 0x00 => writeChanCfg k v s
  | 0x04 => s.atCh k fun c => { c with entry := field v 13 0 }
  | 0x08 => chanCommand k (field v 2 0) s
  | 0x0C => writeChanTail k v s
  | 0x14 => s.atCh k fun c => { c with sig := w1c v 4 c.sig, half := w1c v 5 c.half, full := w1c v 6 c.full }
  | _ => s

/-- Registers of check unit `u` (R485). -/
def writeCu (u r v : Nat) (s : State) : State :=
  match r with
  | 0x00 => s.atCu u fun x => if x.busy then x else { x with poly := field v 1 0, fold := bit v 2 }
  | 0x04 => writeCuRun u v s
  | 0x0C => s.atCu u fun x => { x with poison := w1c v 2 x.poison }
  | _ => s

/-- DMA and CU blocks. -/
def writeDma (o v : Nat) (s : State) : State :=
  if o < 0x400 then writeChan (o / 0x40) (o % 0x40) v s
  else if inR o 0x800 0x83F then writeCu ((o - 0x800) / 0x10) (o % 0x10) v s
  else s

/-- A test's lap in progress is discarded (R491). -/
def IstTest.discard (x : IstTest) : IstTest := { x with running := false, failed := false, start := 0, lapRaised := false, passed := [] }

/-- IST block. -/
def writeIst (o v : Nat) (s : State) : State :=
  match o with
  | 0x00 => s.modIst fun i =>
      { i with en := BitVec.ofNat 7 v, berLim := field v 15 8, lapLim := nonZero (field v 31 16) i.lapLim
               tdc := if bit v 4 then i.tdc else each 8 0, ring := if bit v 6 then i.ring else each 4 none
               test := Vector.ofFn fun t => if bit v t.val then i.test[t] else i.test[t].discard }
  | 0x04 => s.modIst fun i => { i with seen := i.seen &&& ~~~(BitVec.ofNat 7 v) }
  | _ => s

/-- A 32-bit word of the DMA program RAM window (R498): an uncorrectable word stays so under a write of half of it. -/
def writeRamHalf (o v : Nat) (s : State) : State :=
  let i := o / 8
  putRamWord (s.dma.ramBad.contains i) i (setWord (o % 8 = 4) v (ramWord s i)) s

/-- The 32 bits from bit `i` of an MSI-X table entry replaced. -/
def msixWord (i v : Nat) (t : BitVec 96) : BitVec 96 :=
  BitVec.ofNat 96 (t.toNat - field t.toNat (i + 31) i * 2 ^ i + v * 2 ^ i)

/-- A word of the MSI-X table: message address and data, and the vector's mask bit (log 67). -/
def writeMsix (o v : Nat) (s : State) : State :=
  let k := o / 16
  if o % 16 = 12 then
    (if bit v 0 then s.modHost fun h => { h with msixMask := h.msixMask ||| (1#64 <<< k) } else unmaskVector k s)
  else s.modHost fun h => { h with msixTab := updAt h.msixTab k (msixWord (8 * (o % 16)) v) }

/-- A write to a block of domain `d`. -/
def inDomain (d : Nat) (f : State → State) (s : State) : State := if regOpen d s then f s else s

/-- The value that a write to offset `o` acts with: a W1C bit that the controller sets in the same tick is not cleared
(R5). -/
def keepSet (o v : Nat) (s : State) : Nat :=
  (List.range 32).foldl (fun v b => if bit v b && setThisTick s o b then v - 2 ^ b else v) v

/-- A 32-bit write at an offset of BAR0 (table "BAR0 blocks"); an offset without a writable register discards it. -/
def writeAt (o v : Nat) (s : State) : State :=
  if o < 0x100 then inDomain 1 (writeEng o v) s
  else if inR o 0x01000 0x01FFF then inDomain 1 (writeHost (o - 0x1000) v) s
  else if inR o 0x02000 0x020FF then inDomain 4 (writeStore (o - 0x2000) v) s
  else if inR o 0x03000 0x03FFF then inDomain 1 (writeWeb (o - 0x3000) v) s
  else if inR o 0x04000 0x040FF then inDomain 0 (writeClk (o - 0x4000) v) s
  else if inR o 0x04100 0x042FF then inDomain 8 (writeScan ((o - 0x4100) / 0x40) ((o - 0x4100) % 0x40) v) s
  else if inR o 0x05000 0x057FF then inDomain 5 (writeExpo ((o - 0x5000) / 0x100) ((o - 0x5000) % 0x100) v) s
  else if inR o 0x06000 0x060FF then inDomain 7 (writeSp ((o - 0x6000) / 0x20) ((o - 0x6000) % 0x20) v) s
  else if inR o 0x07000 0x070FF then inDomain 2 (writeLaw (o - 0x7000) v) s
  else if inR o 0x08000 0x081FF then inDomain 10 (writeStage (o - 0x8000) v) s
  else if o = 0x0820C then inDomain 1 (fun s => s.modDrawLim (w1c v 0)) s
  else if inR o 0x08400 0x085FF then inDomain 1 (writeAux ((o - 0x8400) / 0x20) ((o - 0x8400) % 0x20) v) s
  else if inR o 0x0A020 0x0A02F then
    inDomain 10 (fun s => s.atPort ((o - 0xA020) / 4) fun x => { x with downSeen := w1c v 2 x.downSeen }) s
  else if inR o 0x0B000 0x0B1FF then inDomain 1 (writeFlt (o - 0xB000) v) s
  else if inR o 0x0C000 0x0C0FF then inDomain 0 (writePwr (o - 0xC000) v) s
  else if inR o 0x0D000 0x0D0FF then inDomain 0 (writeOtp (o - 0xD000) v) s
  else if inR o 0x0E000 0x0E8FF then inDomain 1 (writeDma (o - 0xE000) v) s
  else if inR o 0x0F000 0x0F0FF then inDomain 1 (writeIst (o - 0xF000) v) s
  else if inR o 0x40000 0x7FFFF then inDomain 1 (writeRamHalf (o - 0x40000) v) s
  else if inR o 0xFE000 0xFE3FF then inDomain 6 (writeMsix (o - 0xFE000) v) s
  else s

/-- A 32-bit write by the host. -/
def write32 (o v : Nat) (s : State) : State := writeAt o (keepSet o v s) s

/-- The offset of a 64-bit register's lower word (table "Register index"). -/
def reg64 (o : Nat) : Bool :=
  [0x10, 0x18, 0x2010, 0x3010, 0x3018, 0x3020, 0x3028, 0x3128, 0x3130, 0x3138, 0xB008].contains o ||
  (inR o 0x1100 0x12FF && (o % 0x40 = 0x08 || o % 0x40 = 0x10)) ||
  (inR o 0x5000 0x57FF && (o % 0x100 = 0x18 || o % 0x100 = 0x20)) ||
  (inR o 0xE000 0xE3FF && o % 0x40 = 0x20)

/-- Windows with access rules of their own: the DMA program RAM and the MSI-X structures (R498, R499). -/
def ownRules (o : Nat) : Bool := inR o 0x40000 0x7FFFF || inR o 0xFE000 0xFE3FF || inR o 0xFF000 0xFF007

/-- R2 permits the access. -/
def accessOk (o bytes : Nat) : Bool :=
  (bytes = 4 && o % 4 = 0) || (bytes = 8 && o % 8 = 0 && (reg64 o || ownRules o))

/-- An Unsupported Request, logged under AER (R499). -/
def unsupported (s : State) : State := s.modHost fun h => { h with aer := h.aer + 1 }

/-- A 64-bit write: whole slots of the DMA program RAM at once, a register word by word. -/
def write64 (o v : Nat) (s : State) : State :=
  if inR o 0x40000 0x7FFFF then inDomain 1 (putRamWord false ((o - 0x40000) / 8) v) s
  else write32 (o + 4) (v / 2 ^ 32) (write32 o (v % 2 ^ 32) s)

/-- A BAR0 write (log 11). -/
def writeReg (o : Nat) (wide : Bool) (v : Nat) (s : State) : State :=
  if !barOpen s then s
  else if !accessOk o (if wide then 8 else 4) then unsupported s
  else if wide then write64 o v s
  else write32 o (v % 2 ^ 32) s

/-- REGISTER_WRITE (R4, R6). -/
def execRegisterWrite (offset : BitVec 20) (size64 : Bool) (value : BitVec 64) (s : State) :
    Host.Outcome State Fault Refusal := .next (writeReg offset.toNat size64 value.toNat s)

/-- ENGINE_EVENT_INTERRUPT_WRITE (R506). -/
def execEngineEventInterruptWrite (value : Word) (s : State) : Host.Outcome State Fault Refusal :=
  .next (inDomain 1 (writeEngIrq value.toNat) s)

/-- BAR0_UNSUPPORTED_ACCESS (R499), a read or a write (log 11). -/
def execBar0UnsupportedAccess (offset : BitVec 20) (bytes : Nat) (write : Bool) (s : State) :
    Host.Outcome State Fault Refusal :=
  .next (match write with
    | true | false => if barOpen s && !accessOk offset.toNat bytes then unsupported s else s)

end Sys2Proof.Machine
end

