-- ==== Sys2Proof/Machine/Spindle.lean ====
section
/-! DEFINITION. The commands of the spindle channels, of their gate drivers and of the bridge supply (R258 to R292). -/

namespace Sys2Proof.Machine

open Sys2Proof.Bits

/-- SPINDLE_RUN_COMMAND (R258, R262, R277). -/
def execSpindleRunCommand (n : Fin 8) (s : State) : Host.Outcome State Fault Refusal := .next (runCommand n s)

/-- SPINDLE_SENSE_TIMEOUT (row 2). A stop command ends the start at once (row 16). -/
def execSpindleSenseTimeout (n : Fin 8) (s : State) : Host.Outcome State Fault Refusal :=
  .next (if (chan s n).state = .sense then runCommand n (enterAlign n s) else s)

/-- ALIGN_TIMEOUT (row 4). -/
def execAlignTimeout (n : Fin 8) (s : State) : Host.Outcome State Fault Refusal :=
  .next (if (chan s n).state = .align then enterRamp n s else s)

/-- Change of the interval past SYNC_JUMP of the one before, in `k` parts of it (R278, R280). -/
def jumps (l : Img) (n k t1 t2 : Nat) : Bool :=
  decide (Fp.exact (l.spF n 72) * (t1 : Int) < ((k * 2 ^ 149 : Nat) : Int) * (((t2 : Int) - t1).natAbs : Int))

/-- Acceleration from two intervals of 60° electrical past ACC_MARGIN × KE × I_MAX ÷ J (R278, log 38). -/
def accelerates (l : Img) (n t1 t2 : Nat) : Bool :=
  decide (((3 * l.spB n 2 * 1000000000000000 * t1 * t2 * t2 : Nat) : Int) *
      (Fp.exact (l.spF n 76) * Fp.exact (l.spF n 20) * Fp.exact (l.spF n 36)) <
    ((3141592653589793 * 10000000000000000 * ((t2 : Int) - t1).natAbs * 2 ^ 298 : Nat) : Int) * Fp.exact (l.spF n 16))

/-- The zero crossing is implausible (R278). -/
def implausible (l : Img) (n : Nat) (c : Spindle) (t : Nat) : Bool :=
  match c.lastInterval with
  | none => false
  | some t1 => jumps l n 1 t1 t || accelerates l n t1 t

/-- An accepted zero crossing in CLOSED and BRAKE, outside the softening ramps by 5°: it fixes the next commutation (R267). -/
def crossClosed (n : Nat) (m : ZcMeas) (s : State) : State :=
  if m.rampDist < 80 then s
  else if (chan s n).state = .closed && implausible s.img n (chan s n) m.interval then syncLoss n s
  else setGates n (s.atSp n fun c => { c.crossAt s.img n with lastInterval := some m.interval, speed := m.speed })

/-- A zero crossing in RAMP: within ±15° of the open-loop angle it counts towards hand-over (R268). -/
def crossRamp (n : Nat) (m : ZcMeas) (s : State) : State :=
  let k := if m.openErr.natAbs ≤ 240 then (chan s n).agree + 1 else 0
  let s := s.atSp n fun c => { c with agree := k, lastInterval := some m.interval, speed := m.speed }
  if s.img.spB n 12 ≤ k then enterClosed n s else setGates n s

/-- Duty at a catch (R280): KE × ω × 60/(2π) ÷ VBUS_SP, in 1/4,096, at most full scale. -/
def catchDuty (s : State) (n : Nat) : Nat :=
  let d : Nat := 16 * s.spBus.vbus * 2 ^ 149
  min 4095 ((Fp.exact (s.img.spF n 20)).toNat * (chan s n).speed.natAbs * 40960 / max 1 d)

/-- The rotor turns in the direction of a run command, and the channel may catch it (R263, R280). -/
def mayCatch (n : Nat) (s : State) : Bool :=
  let c := chan s n
  c.catching && runWanted s n && !gatesInhibited s && decide (decide (c.speed < 0) = dirWanted s n)

/-- A zero crossing in COAST (R280): at a catch the sector is that of the observer's angle, and the crossing fixes the next
commutation. -/
def crossCoast (n : Nat) (m : ZcMeas) (s : State) : State :=
  let near := (chan s n).lastInterval.any fun t => !jumps s.img n 2 t m.interval
  let s := s.atSp n fun c => { c with speed := m.speed, lastInterval := some m.interval }
  let s := coastSpeed n s
  if (chan s n).state = .coast && mayCatch n s then
    let s := s.atSp n fun c => { c with agree := if near then c.agree + 1 else 0 }
    if decide (s.img.spB n 12 ≤ (chan s n).agree) && aboveCatch s n then
      let d := catchDuty s n
      let r := dirWanted s n
      let s := enterClosed n (s.atSp n fun c => { c with duty := d, reverse := r, sector := m.sector.val })
      setGates n (s.atSp n fun c => c.crossAt s.img n)
    else s
  else s

/-- Back-EMF in SENSE: COAST (row 3). -/
def senseMotion (n : Nat) (s : State) : State := dropChannel n .coast 0 s

/-- ZERO_CROSSING (R267, R268, R278, R280). -/
def zeroCross (n : Nat) (m : ZcMeas) (s : State) : State :=
  match (chan s n).state with
  | .sense => senseMotion n s
  | .ramp => crossRamp n m s
  | .closed | .brake => crossClosed n m s
  | .coast => crossCoast n m s
  | _ => s

def execZeroCrossing (n : Fin 8) (m : ZcMeas) (s : State) : Host.Outcome State Fault Refusal := .next (zeroCross n m s)

/-- ZERO_CROSSING_TIMEOUT (R278). -/
def execZeroCrossingTimeout (n : Fin 8) (s : State) : Host.Outcome State Fault Refusal :=
  .next (if (chan s n).state = .closed then syncLoss n s else s)

/-- PWM_PERIOD (R262, R266 to R268, R271, R274 to R276, R289, R290). -/
def pwmPeriod (n : Nat) (m : PwmMeas) (s : State) : State :=
  let s := (s.modSpBus fun b => { b with vbus := m.vbus }).atSp n fun c => c.measure s.img n m
  let s := match (chan s n).state with
    | .sense => if m.bemf then senseMotion n s else s
    | .closed | .brake => let l := s.img; (drive n m s).atSp n fun c => c.commStep l n c.forward
    | .align => s.atSp n fun c => { c with duty := min 4095 m.duty }
    | .ramp => let l := s.img; s.atSp n fun c => ({ c with duty := min 4095 m.duty } : Spindle).rampStep l n
    | _ => s
  setGates n (speedRows n s)

def execPwmPeriod (n : Fin 8) (m : PwmMeas) (s : State) : Host.Outcome State Fault Refusal :=
  .next (if s.img.spindleEn n && s.img.has 9 then pwmPeriod n m s else s)

/-- SHORT_TIMEOUT (rows 14 and 15). -/
def execShortTimeout (n : Fin 8) (s : State) : Host.Outcome State Fault Refusal :=
  .next (if (chan s n).state = .short then shortOver n s else s)

/-- STOP_TIMEOUT (R275): the channel then reaches OFF by row 13 alone, also where an inhibit has taken it from BRAKE to COAST. -/
def stopTimedOut (n : Nat) (s : State) : State :=
  spDrive n ((dropChannel n .coast 0 s).atSp n fun c => { c with catching := false, resting := true })

def execStopTimeout (n : Fin 8) (s : State) : Host.Outcome State Fault Refusal :=
  .next <|
    let c := chan s n
    if c.state = .brake || (c.braking && (c.state = .short || (c.state = .coast && !c.resting))) then stopTimedOut n s else s

/-- CATCH_TIMEOUT (R281). -/
def execCatchTimeout (n : Fin 8) (s : State) : Host.Outcome State Fault Refusal :=
  .next <|
    if (chan s n).state = .coast && (chan s n).catching && !gatesInhibited s then
      (if runWanted s n then coastSpeed n (catchFailed n s) else s.atSp n fun c => { c with catching := false })
    else s

/-- COAST_BACK_EMF_TIMEOUT (row 13). -/
def execCoastBackEmfTimeout (n : Fin 8) (s : State) : Host.Outcome State Fault Refusal :=
  .next (if (chan s n).state = .coast then enterOff n s else s)

/-- PIN_ANALOG: the average of the last 16 samples in mV, below 0.1 V as 0, scaled by CMD_FULL (R259; log 79). -/
def analogCmd (l : Img) (n : Nat) (xs : List Nat) : Int :=
  let t := xs.foldl (· + ·) 0
  if t < 100 * xs.length then 0 else spQ l n 100 * (t : Int) / (3300 * max 1 xs.length : Nat)

/-- SPINDLE_COMMAND_SAMPLE (R259; log 79). -/
def execSpindleCommandSample (n : Fin 8) (mV : Nat) (s : State) : Host.Outcome State Fault Refusal :=
  .next <|
    if s.img.spSource n = 1 then
      s.atSp n fun c => { c with samples := (mV :: c.samples).take 16, cmd := analogCmd s.img n ((mV :: c.samples).take 16) }
    else s

/-- Command of one period on SPCMDn; none outside the frequencies that the mode measures (R259). -/
def edgeCmd (l : Img) (n highNs periodNs : Nat) : Option Int :=
  match l.spSource n with
  | 2 =>
    if inR periodNs 20000 10000000 then
      some (if 50 * highNs < periodNs then 0 else spQ l n 100 * (highNs : Int) / (periodNs : Int))
    else none
  | 3 => if inR periodNs 10000 1000000000 then some (spQ l n 100 * 1000000000 / (periodNs : Int)) else none
  | _ => none

/-- SPINDLE_COMMAND_EDGE (R259). -/
def execSpindleCommandEdge (n : Fin 8) (highNs periodNs : Nat) (s : State) : Host.Outcome State Fault Refusal :=
  .next <| match edgeCmd s.img n highNs periodNs with
    | some v => s.atSp n fun c => { c with cmd := v }
    | none => s

/-- SPINDLE_COMMAND_TIMEOUT (R259). -/
def execSpindleCommandTimeout (n : Fin 8) (s : State) : Host.Outcome State Fault Refusal :=
  .next <| match s.img.spSource n with
    | 2 => spDrive n (setsBit (0x6000 + 0x20 * n) 9 <| s.atSp n fun c => { c with cmd := 0, cmdLost := true })
    | 3 => s.atSp n fun c => { c with cmd := 0 }
    | _ => s

/-- FIRST_LEG, OVF and EVENTS take a gate event `k` (R287). -/
def Spindle.gateEvent (now k : Nat) (c : Spindle) : Spindle :=
  let c := { c with events := sat 16 (c.events + 1) }
  if c.firstLeg = 7 then { c with firstLeg := k, firstTick := now }
  else { c with ovf := true, firstLeg := if c.firstTick = now then min c.firstLeg k else c.firstLeg }

/-- A gate event `k` of channel `n`, which sets bit `b` of SPn_DRIVE by `f` (R5, R287). -/
def gateEventAt (n k b : Nat) (f : Spindle → Spindle) (s : State) : State :=
  let now := s.now
  let o := 0x6004 + 0x20 * n
  let s := if (chan s n).firstLeg = 7 then s else setsBit o 13 s
  setsBit o b (s.atSp n fun c => f (c.gateEvent now k))

/-- SP_DESAT (R283, R287). -/
def execSpDesat (n : Fin 8) (gate : Fin 6) (s : State) : Host.Outcome State Fault Refusal :=
  .next (raise (0x040 + 5 * n) (gateEventAt n gate gate (fun c => { c with desat := c.desat ||| (1#6 <<< gate.val) }) s))

/-- SP_OVERCURRENT (R286, R287). -/
def execSpOvercurrent (n : Fin 8) (s : State) : Host.Outcome State Fault Refusal :=
  .next (raise (0x041 + 5 * n) (gateEventAt n 6 6 (fun c => { c with oc := true }) s))

/-- SP_BOOT_UV (R289): the leg's high gate is held low. -/
def execSpBootUv (n : Fin 8) (leg : Fin 3) (s : State) : Host.Outcome State Fault Refusal :=
  let s := s.atSp n fun c => { c with bsUv := c.bsUv ||| (1#3 <<< leg.val), bsHold := c.bsHold ||| (1#3 <<< leg.val) }
  .next (raise (0x042 + 5 * n) (setGates n (setsBit (0x6004 + 0x20 * n) (7 + leg) s)))

/-- Every channel's gates are inhibited from now on (R263). -/
def inhibitAll (source : Nat) (s : State) : State := each8 (inhibitChannel source) s

/-- VCP_UV (R288): below 8.5 V. -/
def execVcpUv (dV : Nat) (s : State) : Host.Outcome State Fault Refusal :=
  .next <| if 85 ≤ dV then s
    else condOn 0x068 (inhibitAll 0x068 (s.modSpBus fun b => { b with vcp := dV, vcpUv := true }))

/-- VCP_UV_RELEASE (R288): above 9.0 V. -/
def execVcpUvRelease (dV : Nat) (s : State) : Host.Outcome State Fault Refusal :=
  .next <| if dV ≤ 90 then s
    else inhibitEnded s (condOff 0x068 (s.modSpBus fun b => { b with vcp := dV, vcpUv := false }))

/-- VBUS_SP_UV (R291): below 16.0 V. -/
def execVbusSpUv (dV : Nat) (s : State) : Host.Outcome State Fault Refusal :=
  .next <| if 160 ≤ dV then s
    else condOn 0x069 (inhibitAll 0x069 (s.modSpBus fun b => { b with vbus := dV, vbusUv := true }))

/-- VBUS_SP_OV (R291): above VBUS_CEIL + 2.0 V. -/
def execVbusSpOv (dV : Nat) (s : State) : Host.Outcome State Fault Refusal :=
  .next <| if dV ≤ s.img.vbusCeil + 20 then s
    else condOn 0x06A (inhibitAll 0x06A (s.modSpBus fun b => { b with vbus := dV, vbusOv := true }))

/-- An under-voltage ends above 17.0 V. -/
def endUv (dV : Nat) (s : State) : State :=
  if 170 < dV then condOff 0x069 (s.modSpBus fun b => { b with vbusUv := false }) else s

/-- An over-voltage ends below VBUS_CEIL. -/
def endOv (dV : Nat) (s : State) : State :=
  if dV < s.img.vbusCeil then condOff 0x06A (s.modSpBus fun b => { b with vbusOv := false }) else s

/-- VBUS_SP_INHIBIT_RELEASE (R291). -/
def execVbusSpInhibitRelease (dV : Nat) (s : State) : Host.Outcome State Fault Refusal :=
  .next (inhibitEnded s (endOv dV (endUv dV (s.modSpBus fun b => { b with vbus := dV }))))

/-- RPS_BLOCK (R292): the conditions of the reverse-polarity switch, in mV. -/
def execRpsBlock (srcMv vbusMv : Int) (s : State) : Host.Outcome State Fault Refusal :=
  .next <| if !s.img.rpsFitted then s
    else
      let rev := decide (srcMv < -1000)
      condSet 0x06B rev
        (s.modSpBus fun b => { b with rpsOn := decide (16000 ≤ srcMv ∧ vbusMv - srcMv ≤ 30), rpsRev := rev })

end Sys2Proof.Machine
end

