-- ==== Sys2Proof/Machine/TakeUp.lean ====
section
/-! DEFINITION. Taking up a submission entry: which queue is served, and the message that the entry's 64 bytes spell (R66 to
R68, R71, R75, tables "Submission entry", "Messages" and "Message payloads"). -/

namespace Sys2Proof.Machine

open Sys2Proof.Bits

/-- Listed payload bytes of a message: first byte and number; none for an unknown opcode. -/
def payloadOf (op : Nat) : Option (List (Nat × Nat)) :=
  match op with
  | 0x01 => some [(8, 12)]
  | 0x02 => some [(8, 1)]
  | 0x10 => some [(8, 8)]
  | 0x11 => some [(8, 1)]
  | 0x12 | 0x13 => some [(8, 24)]
  | 0x14 => some [(12, 4)]
  | 0x18 | 0x19 => some [(8, 8)]
  | 0x1A => some []
  | 0x1B => some [(12, 4)]
  | 0x20 => some [(8, 1), (10, 2), (12, 4)]
  | 0x21 => some [(8, 1), (10, 2)]
  | 0x28 => some [(8, 1), (16, 12)]
  | 0x29 => some [(8, 1)]
  | 0x30 | 0x31 => some [(8, 27), (36, 3)]
  | 0x38 => some [(8, 2)]
  | 0x39 => some [(8, 1), (16, 12)]
  | 0x40 | 0x41 => some [(16, 12)]
  | 0x48 => some [(8, 4)]
  | 0x50 | 0x51 => some []
  | _ => none

/-- Byte `i` belongs to a listed field (log 70). -/
def listed (fs : List (Nat × Nat)) (i : Nat) : Bool := fs.any fun f => decide (f.1 ≤ i ∧ i < f.1 + f.2)

/-- Reserved bits of the entry are 0 (R71): FLAGS [7:1], payload bytes that the table does not list, and the reserved bits
of a service's FLAGS (log 70). -/
def entryClean (e : List Byte) (op : Nat) (fs : List (Nat × Nat)) : Bool :=
  decide (byteAt e 1 < 2) && ((List.range 56).all fun i => listed fs (8 + i) || byteAt e (8 + i) = 0) &&
  (!(op = 0x30 || op = 0x31) || decide (byteAt e 34 < 4))

/-- The entry's common fields. -/
def entryHdr (q : Fin 8) (e : List Byte) (clean : Bool) : MsgHdr := { q := q, tag := u16 e 2, job := u32 e 4, clean := clean }

/-- Fields of COMPRESS and DECOMPRESS. -/
def serviceFields (e : List Byte) : SvcFields :=
  { src := le e 8 8, srcLen := u32 e 16, dst := le e 20 8, dstLen := u32 e 28, width := u16 e 32
    noGrow := bit (byteAt e 34) 0, overlay := bit (byteAt e 34) 1, firstLine := le e 36 3 }

/-- The message of an entry. The bytes past byte 63 are the record that CALIB_WRITE reads from its buffer (log 51). -/
def runEntry64 (h : MsgHdr) (op : Nat) (e : List Byte) (s : State) : State :=
  match op with
  | 0x01 => ident h (le e 8 8) (u32 e 16) s
  | 0x02 => stateSet h (byteAt e 8) s
  | 0x10 => jobOpen h (byteAt e 8) (byteAt e 9) (u16 e 10) (u32 e 12) s
  | 0x11 => jobClose h (byteAt e 8) s
  | 0x12 => framePut false h (le e 8 8) (u32 e 16) (u32 e 20) (u32 e 24) (u16 e 28) (u16 e 30) s
  | 0x13 => framePut true h (le e 8 8) (u32 e 16) (u32 e 20) (u32 e 24) (u16 e 28) (u16 e 30) s
  | 0x14 => quotaSet h (u32 e 12) s
  | 0x18 => runStart h (u32 e 8) (u16 e 12) (u16 e 14) s
  | 0x19 => runModify h (u32 e 8) (u16 e 12) (u16 e 14) s
  | 0x1A => runStopMsg h s
  | 0x1B => runResume h (u16 e 12) (u16 e 14) s
  | 0x20 => paramSet h (byteAt e 8) (u16 e 10) (f32 e 12) s
  | 0x21 => paramGet h (byteAt e 8) (u16 e 10) s
  | 0x28 => resultGet h (byteAt e 8) (le e 16 8) (u32 e 24) s
  | 0x29 => resultAck h (byteAt e 8) s
  | 0x30 => compress h (serviceFields e) s
  | 0x31 => decompress h (serviceFields e) s
  | 0x38 => pageRetire h (u16 e 8) s
  | 0x39 => logRead h (byteAt e 8) (le e 16 8) (u32 e 24) s
  | 0x40 => calibRead h (le e 16 8) (u32 e 24) s
  | 0x41 => calibWrite h (u32 e 24) (e.drop 64) s
  | 0x48 => consumableSync h (BitVec.ofNat 32 (u32 e 8)) s
  | 0x50 => faultClear h s
  | 0x51 => faultPinRelease h s
  | _ => s

/-- An entry of an unknown opcode (R71). -/
def unknownEntry (h : MsgHdr) (s : State) : State :=
  reject (msgRef h s) .opcode
    (s.modHost fun x => { x with q := upd x.q h.q fun q => { q with running := q.running + 1 } })

/-- What an entry waits for: room for its completions (R68), FENCE, and for PARAM_SET that none waits (R315). -/
def entryNeed (e : List Byte) : EntryNeed :=
  let op := byteAt e 0
  { slots := if op = 0x12 || op = 0x13 then 2 else 1, fence := bit (byteAt e 1) 0, param := op = 0x20 }

/-- That is at hand. -/
def needMet (s : State) (q : Fin 8) (n : EntryNeed) : Bool :=
  let x := s.host.q[q]
  decide (n.slots ≤ x.freeSlots) && (!n.fence || (x.running = 0 && x.waiting.isEmpty)) && !(n.param && s.host.paramWait.isSome)

def entryRoom (s : State) (q : Fin 8) (e : List Byte) : Bool := needMet s q (entryNeed e)

/-- A queue's entry can be taken up now, or has not been read: its turn comes before that of the queues after it (R67;
log 69). -/
def mustServe (s : State) (q : Fin 8) : Bool :=
  let x := s.host.q[q]
  queueServes q s && x.sqHead != x.sqTail && decide (1 ≤ x.freeSlots) && x.head.all (needMet s q)

/-- Queues that stand before `q` in the round that follows the queue served last (R67; log 69). -/
def beforeInTurn (turn q : Fin 8) : List (Fin 8) :=
  ((List.range 8).map fun i => Fin.ofNat 8 (turn.val + 1 + i)).takeWhile (· != q)

/-- The job engine may take an entry of queue `q` up in this tick (R67). -/
def takeUpDue (s : State) (q : Fin 8) : Bool :=
  let x := s.host.q[q]
  queueServes q s && x.sqHead != x.sqTail && s.host.taken != some s.now && !(beforeInTurn s.host.turn q).any (mustServe s)

/-- The queue halts at an entry that could not be read (R68). -/
def fetchFails (q : Fin 8) (s : State) : State :=
  raise 0x1F2 (setsBit (0x1104 + 0x40 * q) 2 <| modQ q (fun x => { x with fetchErr := true, halted := true }) s)

/-- SQ_HEAD passes the entry, and the queue has had its turn. -/
def noteTaken (q : Fin 8) (s : State) : State :=
  (modQ q (fun x => { x with sqHead := (x.sqHead + 1) % x.entries, head := none }) s).modHost fun h =>
    { h with turn := q, taken := some s.now }

/-- ENTRY_TAKE_UP (R67, R68, R71): an entry that has to wait gives its turn to the queues after it. -/
def takeUp (q : Fin 8) (e : List Byte) (read : HostRead) (s : State) : State :=
  if !takeUpDue s q then s
  else if read != .ok then fetchFails q s
  else if !entryRoom s q e then modQ q (fun x => { x with head := some (entryNeed e) }) s
  else
    let op := byteAt e 0
    match payloadOf op with
    | some fs => runEntry64 (entryHdr q e (entryClean e op fs)) op e (noteTaken q s)
    | none => unknownEntry (entryHdr q e true) (noteTaken q s)

def execEntryTakeUp (q : Fin 8) (entry : List Byte) (read : HostRead) (s : State) : Host.Outcome State Fault Refusal :=
  .next (takeUp q entry read s)

end Sys2Proof.Machine
end

