-- ==== Sys2Proof/Machine/Dispatch.lean ====
section
/-! DEFINITION. The meaning of every command: one arm per constructor of `Instr`. -/

namespace Sys2Proof.Machine

def exec (i : Instr) (s : State) : Host.Outcome State Fault Refusal :=
  match i with
  | .aonPowerOnReset rise straps pins => Sys2Proof.Machine.execAonPowerOnReset rise straps pins s
  | .otpShadowLoad => Sys2Proof.Machine.execOtpShadowLoad s
  | .crystalStart ok => Sys2Proof.Machine.execCrystalStart ok s
  | .pllLockDeclared n counts us => Sys2Proof.Machine.execPllLockDeclared n counts us s
  | .pllLockAttemptTimeout n counts us => Sys2Proof.Machine.execPllLockAttemptTimeout n counts us s
  | .slotHeaderRead slot0 slot1 => Sys2Proof.Machine.execSlotHeaderRead slot0 slot1 s
  | .signatureVerification image => Sys2Proof.Machine.execSignatureVerification image s
  | .sectionLoad header payload padding => Sys2Proof.Machine.execSectionLoad header payload padding s
  | .powerUpSlot => Sys2Proof.Machine.execPowerUpSlot s
  | .railPowerGood n => Sys2Proof.Machine.execRailPowerGood n s
  | .powerSeqTimeout n => Sys2Proof.Machine.execPowerSeqTimeout n s
  | .powerUpCalibration m => Sys2Proof.Machine.execPowerUpCalibration m s
  | .ringEnumeration r => Sys2Proof.Machine.execRingEnumeration r s
  | .stageLinkTraining L r => Sys2Proof.Machine.execStageLinkTraining L r s
  | .stageLinkRetrainTimer L => Sys2Proof.Machine.execStageLinkRetrainTimer L s
  | .bootStepTimeout => Sys2Proof.Machine.execBootStepTimeout s
  | .submissionQueueTailWrite q value => Sys2Proof.Machine.execSubmissionQueueTailWrite q value s
  | .completionQueueHeadWrite q value => Sys2Proof.Machine.execCompletionQueueHeadWrite q value s
  | .queueControlWrite q value => Sys2Proof.Machine.execQueueControlWrite q value s
  | .entryTakeUp q entry read => Sys2Proof.Machine.execEntryTakeUp q entry read s
  | .completionWriteResumed q => Sys2Proof.Machine.execCompletionWriteResumed q s
  | .coalesceTimerExpiry q => Sys2Proof.Machine.execCoalesceTimerExpiry q s
  | .eventFifoDrain => Sys2Proof.Machine.execEventFifoDrain s
  | .hostLinkReset kind => Sys2Proof.Machine.execHostLinkReset kind s
  | .d3hotEntry => Sys2Proof.Machine.execD3hotEntry s
  | .ident h buf len => Sys2Proof.Machine.execIdent h buf len s
  | .stateSet h target => Sys2Proof.Machine.execStateSet h target s
  | .armingComplete => Sys2Proof.Machine.execArmingComplete s
  | .armTimeout => Sys2Proof.Machine.execArmTimeout s
  | .jobOpen h last stations vAdm quota => Sys2Proof.Machine.execJobOpen h last stations vAdm quota s
  | .jobClose h mode => Sys2Proof.Machine.execJobClose h mode s
  | .framePut h src len rep baseRef declCycles declBytes => Sys2Proof.Machine.execFramePut h src len rep baseRef declCycles declBytes s
  | .framePutRaw h src len rep baseRef declCycles declBytes => Sys2Proof.Machine.execFramePutRaw h src len rep baseRef declCycles declBytes s
  | .frameCommit job data read => Sys2Proof.Machine.execFrameCommit job data read s
  | .quotaSet h quota => Sys2Proof.Machine.execQuotaSet h quota s
  | .runStart h frames speed accel => Sys2Proof.Machine.execRunStart h frames speed accel s
  | .runResume h speed accel => Sys2Proof.Machine.execRunResume h speed accel s
  | .runEntry => Sys2Proof.Machine.execRunEntry s
  | .runModify h frames speed accel => Sys2Proof.Machine.execRunModify h frames speed accel s
  | .runStop h => Sys2Proof.Machine.execRunStop h s
  | .paramSet h space index value => Sys2Proof.Machine.execParamSet h space index value s
  | .paramGet h space index => Sys2Proof.Machine.execParamGet h space index s
  | .resultGet h kind buf len => Sys2Proof.Machine.execResultGet h kind buf len s
  | .resultAck h kind => Sys2Proof.Machine.execResultAck h kind s
  | .compress h f => Sys2Proof.Machine.execCompress h f s
  | .compressRun unit input read => Sys2Proof.Machine.execCompressRun unit input read s
  | .decompress h f => Sys2Proof.Machine.execDecompress h f s
  | .decompressRun input read => Sys2Proof.Machine.execDecompressRun input read s
  | .pageRetire h page => Sys2Proof.Machine.execPageRetire h page s
  | .migrationComplete copy => Sys2Proof.Machine.execMigrationComplete copy s
  | .logRead h log buf len => Sys2Proof.Machine.execLogRead h log buf len s
  | .calibRead h buf len => Sys2Proof.Machine.execCalibRead h buf len s
  | .calibWrite h buf len record => Sys2Proof.Machine.execCalibWrite h buf len record s
  | .consumableSync h tags => Sys2Proof.Machine.execConsumableSync h tags s
  | .faultClear h => Sys2Proof.Machine.execFaultClear h s
  | .faultPinRelease h => Sys2Proof.Machine.execFaultPinRelease h s
  | .faultPinPulseEnd => Sys2Proof.Machine.execFaultPinPulseEnd s
  | .stoInput t c => Sys2Proof.Machine.execStoInput t c s
  | .estopInput t c => Sys2Proof.Machine.execEstopInput t c s
  | .pairWireFault p => Sys2Proof.Machine.execPairWireFault p s
  | .pairReturnNormal p => Sys2Proof.Machine.execPairReturnNormal p s
  | .fltPairChange L t c => Sys2Proof.Machine.execFltPairChange L t c s
  | .engineEventInterruptWrite value => Sys2Proof.Machine.execEngineEventInterruptWrite value s
  | .registerWrite offset size64 value => Sys2Proof.Machine.execRegisterWrite offset size64 value s
  | .bar0UnsupportedAccess offset bytes write => Sys2Proof.Machine.execBar0UnsupportedAccess offset bytes write s
  | .anchorCount n a b => Sys2Proof.Machine.execAnchorCount n a b s
  | .anchorZPulse n => Sys2Proof.Machine.execAnchorZPulse n s
  | .eyeletAnchorReport count time => Sys2Proof.Machine.execEyeletAnchorReport count time s
  | .anchorStale => Sys2Proof.Machine.execAnchorStale s
  | .anchorOverspeed => Sys2Proof.Machine.execAnchorOverspeed s
  | .webStandstill => Sys2Proof.Machine.execWebStandstill s
  | .ropeStandstill => Sys2Proof.Machine.execRopeStandstill s
  | .facetReferencePulse => Sys2Proof.Machine.execFacetReferencePulse s
  | .frameStart => Sys2Proof.Machine.execFrameStart s
  | .frameStarved => Sys2Proof.Machine.execFrameStarved s
  | .cameraMarkReport n frame along cross => Sys2Proof.Machine.execCameraMarkReport n frame along cross s
  | .regBaseWrite n value => Sys2Proof.Machine.execRegBaseWrite n value s
  | .regOffsetWrite n acc value => Sys2Proof.Machine.execRegOffsetWrite n acc value s
  | .sosPulse n coarse cell testFine => Sys2Proof.Machine.execSosPulse n coarse cell testFine s
  | .sosWindowExpiry n => Sys2Proof.Machine.execSosWindowExpiry n s
  | .scanCrossWrite n f value => Sys2Proof.Machine.execScanCrossWrite n f value s
  | .refLost => Sys2Proof.Machine.execRefLost s
  | .clockMonitorWindow refCount => Sys2Proof.Machine.execClockMonitorWindow refCount s
  | .refReturn => Sys2Proof.Machine.execRefReturn s
  | .pllUnlock n => Sys2Proof.Machine.execPllUnlock n s
  | .temperatureCompensationUpdate pd0 pd8 => Sys2Proof.Machine.execTemperatureCompensationUpdate pd0 pd8 s
  | .decodeLine n ecc => Sys2Proof.Machine.execDecodeLine n ecc s
  | .scrubBurst ecc => Sys2Proof.Machine.execScrubBurst ecc s
  | .scrubWriteBack => Sys2Proof.Machine.execScrubWriteBack s
  | .mergeBufferFlush entry ecc => Sys2Proof.Machine.execMergeBufferFlush entry ecc s
  | .bar2Read offset len ecc => Sys2Proof.Machine.execBar2Read offset len ecc s
  | .bar2Write offset data => Sys2Proof.Machine.execBar2Write offset data s
  | .bar2BaseWrite value => Sys2Proof.Machine.execBar2BaseWrite value s
  | .spoilRecordPost => Sys2Proof.Machine.execSpoilRecordPost s
  | .wasteMarker => Sys2Proof.Machine.execWasteMarker s
  | .wasteMinExpiry => Sys2Proof.Machine.execWasteMinExpiry s
  | .backLaneStatusFrame n frame => Sys2Proof.Machine.execBackLaneStatusFrame n frame s
  | .expoLinkLost n => Sys2Proof.Machine.execExpoLinkLost n s
  | .laserEchoMismatch n => Sys2Proof.Machine.execLaserEchoMismatch n s
  | .emitterTempStale n => Sys2Proof.Machine.execEmitterTempStale n s
  | .expoLinkTraining n ok => Sys2Proof.Machine.execExpoLinkTraining n ok s
  | .interlockOpen n => Sys2Proof.Machine.execInterlockOpen n s
  | .laserEnableRise n => Sys2Proof.Machine.execLaserEnableRise n s
  | .toneEntryWrite n t value => Sys2Proof.Machine.execToneEntryWrite n t value s
  | .toneHoldWrite n value => Sys2Proof.Machine.execToneHoldWrite n value s
  | .deadMaskWrite n upper value => Sys2Proof.Machine.execDeadMaskWrite n upper value s
  | .partnerConfigWrite n value => Sys2Proof.Machine.execPartnerConfigWrite n value s
  | .spindleRunCommand n => Sys2Proof.Machine.execSpindleRunCommand n s
  | .spindleSenseTimeout n => Sys2Proof.Machine.execSpindleSenseTimeout n s
  | .alignTimeout n => Sys2Proof.Machine.execAlignTimeout n s
  | .zeroCrossing n m => Sys2Proof.Machine.execZeroCrossing n m s
  | .zeroCrossingTimeout n => Sys2Proof.Machine.execZeroCrossingTimeout n s
  | .pwmPeriod n m => Sys2Proof.Machine.execPwmPeriod n m s
  | .shortTimeout n => Sys2Proof.Machine.execShortTimeout n s
  | .stopTimeout n => Sys2Proof.Machine.execStopTimeout n s
  | .catchTimeout n => Sys2Proof.Machine.execCatchTimeout n s
  | .coastBackEmfTimeout n => Sys2Proof.Machine.execCoastBackEmfTimeout n s
  | .spindleCommandSample n mV => Sys2Proof.Machine.execSpindleCommandSample n mV s
  | .spindleCommandEdge n highNs periodNs => Sys2Proof.Machine.execSpindleCommandEdge n highNs periodNs s
  | .spindleCommandTimeout n => Sys2Proof.Machine.execSpindleCommandTimeout n s
  | .spDesat n gate => Sys2Proof.Machine.execSpDesat n gate s
  | .spOvercurrent n => Sys2Proof.Machine.execSpOvercurrent n s
  | .spBootUv n leg => Sys2Proof.Machine.execSpBootUv n leg s
  | .vcpUv dV => Sys2Proof.Machine.execVcpUv dV s
  | .vbusSpUv dV => Sys2Proof.Machine.execVbusSpUv dV s
  | .vbusSpOv dV => Sys2Proof.Machine.execVbusSpOv dV s
  | .rpsBlock srcMv vbusMv => Sys2Proof.Machine.execRpsBlock srcMv vbusMv s
  | .baseSampleBoundary => Sys2Proof.Machine.execBaseSampleBoundary s
  | .rampAxisTimeout a => Sys2Proof.Machine.execRampAxisTimeout a s
  | .inputWindowClose => Sys2Proof.Machine.execInputWindowClose s
  | .outputReserveStart => Sys2Proof.Machine.execOutputReserveStart s
  | .ld x dst a b => Sys2Proof.Machine.execLd x dst a b s
  | .st x dst a b => Sys2Proof.Machine.execSt x dst a b s
  | .mov x imm dst a b => Sys2Proof.Machine.execMov x imm dst a b s
  | .add x dst a b => Sys2Proof.Machine.execAdd x dst a b s
  | .sub x dst a b => Sys2Proof.Machine.execSub x dst a b s
  | .mul x dst a b => Sys2Proof.Machine.execMul x dst a b s
  | .mac x dst a b => Sys2Proof.Machine.execMac x dst a b s
  | .abs x dst a => Sys2Proof.Machine.execAbs x dst a s
  | .min x dst a b => Sys2Proof.Machine.execMin x dst a b s
  | .max x dst a b => Sys2Proof.Machine.execMax x dst a b s
  | .sel x dst a b => Sys2Proof.Machine.execSel x dst a b s
  | .cmp x cond dst a b => Sys2Proof.Machine.execCmp x cond dst a b s
  | .brf x inv a skip => Sys2Proof.Machine.execBrf x inv a skip s
  | .lim x byp dst a b => Sys2Proof.Machine.execLim x byp dst a b s
  | .slew x byp dst a b => Sys2Proof.Machine.execSlew x byp dst a b s
  | .lpf x byp dst a b => Sys2Proof.Machine.execLpf x byp dst a b s
  | .biq x byp dst a b => Sys2Proof.Machine.execBiq x byp dst a b s
  | .pi x byp dst a b => Sys2Proof.Machine.execPi x byp dst a b s
  | .intg x byp dst a b => Sys2Proof.Machine.execIntg x byp dst a b s
  | .diff x byp dst a b => Sys2Proof.Machine.execDiff x byp dst a b s
  | .clarke x three dst a => Sys2Proof.Machine.execClarke x three dst a s
  | .park x dst a b => Sys2Proof.Machine.execPark x dst a b s
  | .ipark x dst a b => Sys2Proof.Machine.execIpark x dst a b s
  | .sincos x dst a => Sys2Proof.Machine.execSincos x dst a s
  | .svm x dst a b => Sys2Proof.Machine.execSvm x dst a b s
  | .obs x dst a b => Sys2Proof.Machine.execObs x dst a b s
  | .hold x dst a b => Sys2Proof.Machine.execHold x dst a b s
  | .share x dst a ch => Sys2Proof.Machine.execShare x dst a ch s
  | .inp x dst port => Sys2Proof.Machine.execInp x dst port s
  | .out x a port => Sys2Proof.Machine.execOut x a port s
  | .endp x => Sys2Proof.Machine.execEndp x s
  | .lawControlWrite value => Sys2Proof.Machine.execLawControlWrite value s
  | .upstreamFrame L frame arrivalNs => Sys2Proof.Machine.execUpstreamFrame L frame arrivalNs s
  | .stageLost L slot => Sys2Proof.Machine.execStageLost L slot s
  | .busAbsorbLost b => Sys2Proof.Machine.execBusAbsorbLost b s
  | .busTrip b => Sys2Proof.Machine.execBusTrip b s
  | .tensionLimit r => Sys2Proof.Machine.execTensionLimit r s
  | .shareStale r => Sys2Proof.Machine.execShareStale r s
  | .spliceEdge n => Sys2Proof.Machine.execSpliceEdge n s
  | .spliceWindowExpiry r => Sys2Proof.Machine.execSpliceWindowExpiry r s
  | .belaySlow => Sys2Proof.Machine.execBelaySlow s
  | .coastTimeout => Sys2Proof.Machine.execCoastTimeout s
  | .ropeRemoteStop k => Sys2Proof.Machine.execRopeRemoteStop k s
  | .groupRemoteStop k => Sys2Proof.Machine.execGroupRemoteStop k s
  | .auxStart p => Sys2Proof.Machine.execAuxStart p s
  | .auxStop p => Sys2Proof.Machine.execAuxStop p s
  | .auxResume p => Sys2Proof.Machine.execAuxResume p s
  | .auxAbort p => Sys2Proof.Machine.execAuxAbort p s
  | .auxStep p => Sys2Proof.Machine.execAuxStep p s
  | .auxFltInput p => Sys2Proof.Machine.execAuxFltInput p s
  | .auxProfileWrite p value => Sys2Proof.Machine.execAuxProfileWrite p value s
  | .sensorConversion r => Sys2Proof.Machine.execSensorConversion r s
  | .zeroCrossEdge intervalUs => Sys2Proof.Machine.execZeroCrossEdge intervalUs s
  | .zeroCrossLost => Sys2Proof.Machine.execZeroCrossLost s
  | .hvNodeLost c => Sys2Proof.Machine.execHvNodeLost c s
  | .ringPortTraining p kind index port serial => Sys2Proof.Machine.execRingPortTraining p kind index port serial s
  | .ringPortDown p => Sys2Proof.Machine.execRingPortDown p s
  | .ringPortRetrainTimer p => Sys2Proof.Machine.execRingPortRetrainTimer p s
  | .slotLaunch => Sys2Proof.Machine.execSlotLaunch s
  | .slotReceive p slot => Sys2Proof.Machine.execSlotReceive p slot s
  | .nodeLost addr => Sys2Proof.Machine.execNodeLost addr s
  | .tsReq p t1 arrival departure => Sys2Proof.Machine.execTsReq p t1 arrival departure s
  | .tsRsp p t2 arrival => Sys2Proof.Machine.execTsRsp p t2 arrival s
  | .tsFup p t3 => Sys2Proof.Machine.execTsFup p t3 s
  | .ringTime => Sys2Proof.Machine.execRingTime s
  | .seq p b => Sys2Proof.Machine.execSeq p b s
  | .seqStepTimeout => Sys2Proof.Machine.execSeqStepTimeout s
  | .groupReady n => Sys2Proof.Machine.execGroupReady n s
  | .groupStart f0 => Sys2Proof.Machine.execGroupStart f0 s
  | .groupHalt h => Sys2Proof.Machine.execGroupHalt h s
  | .groupHaltPosition => Sys2Proof.Machine.execGroupHaltPosition s
  | .groupTimeout => Sys2Proof.Machine.execGroupTimeout s
  | .powerFail vcpLow vddLow vcpDv vddCv => Sys2Proof.Machine.execPowerFail vcpLow vddLow vcpDv vddCv s
  | .cairnRecordWritten => Sys2Proof.Machine.execCairnRecordWritten s
  | .shutDownSlot => Sys2Proof.Machine.execShutDownSlot s
  | .railDischarged n => Sys2Proof.Machine.execRailDischarged n s
  | .railDischargeTimeout n => Sys2Proof.Machine.execRailDischargeTimeout n s
  | .railPowerGoodLoss n => Sys2Proof.Machine.execRailPowerGoodLoss n s
  | .powerReturnReset straps pins => Sys2Proof.Machine.execPowerReturnReset straps pins s
  | .holdUpMeasurement us => Sys2Proof.Machine.execHoldUpMeasurement us s
  | .holdupLow => Sys2Proof.Machine.execHoldupLow s
  | .powerFailArming => Sys2Proof.Machine.execPowerFailArming s
  | .marginWrite value => Sys2Proof.Machine.execMarginWrite value s
  | .trimStep t => Sys2Proof.Machine.execTrimStep t s
  | .pmbusError kind addr => Sys2Proof.Machine.execPmbusError kind addr s
  | .program key => Sys2Proof.Machine.execProgram key s
  | .read key => Sys2Proof.Machine.execRead key s
  | .lockW key region => Sys2Proof.Machine.execLockW key region s
  | .lockR key region => Sys2Proof.Machine.execLockR key region s
  | .otpPulseEnd verified => Sys2Proof.Machine.execOtpPulseEnd verified s
  | .consumableSyncTimer => Sys2Proof.Machine.execConsumableSyncTimer s
  | .tagSynchronisation n answer => Sys2Proof.Machine.execTagSynchronisation n answer s
  | .tagPoll answer => Sys2Proof.Machine.execTagPoll answer s
  | .usageMirrorPersist => Sys2Proof.Machine.execUsageMirrorPersist s
  | .lifetimeCounterPersist => Sys2Proof.Machine.execLifetimeCounterPersist s
  | .dmaStart ch => Sys2Proof.Machine.execDmaStart ch s
  | .dmaStop ch => Sys2Proof.Machine.execDmaStop ch s
  | .dmaResume ch => Sys2Proof.Machine.execDmaResume ch s
  | .dmaReset ch => Sys2Proof.Machine.execDmaReset ch s
  | .dmaTailWrite ch value => Sys2Proof.Machine.execDmaTailWrite ch value s
  | .dmaConfigWrite ch value => Sys2Proof.Machine.execDmaConfigWrite ch value s
  | .move ch h ecc => Sys2Proof.Machine.execMove ch h ecc s
  | .loop ch => Sys2Proof.Machine.execLoop ch s
  | .wait ch => Sys2Proof.Machine.execWait ch s
  | .waitComplete ch => Sys2Proof.Machine.execWaitComplete ch s
  | .signal ch => Sys2Proof.Machine.execSignal ch s
  | .scan ch h ecc => Sys2Proof.Machine.execScan ch h ecc s
  | .jump ch => Sys2Proof.Machine.execJump ch s
  | .dmaEnd ch => Sys2Proof.Machine.execDmaEnd ch s
  | .nop ch => Sys2Proof.Machine.execNop ch s
  | .dmaInstructionComplete ch answer => Sys2Proof.Machine.execDmaInstructionComplete ch answer s
  | .checkUnitRunWrite u value => Sys2Proof.Machine.execCheckUnitRunWrite u value s
  | .istTestStep t st => Sys2Proof.Machine.execIstTestStep t st s
  | .bypass => Sys2Proof.Machine.execBypass s
  | .idcode => Sys2Proof.Machine.execIdcode s
  | .samplePreload => Sys2Proof.Machine.execSamplePreload s
  | .extest => Sys2Proof.Machine.execExtest s
  | .extestPulse => Sys2Proof.Machine.execExtestPulse s
  | .extestTrain => Sys2Proof.Machine.execExtestTrain s
  | .clamp => Sys2Proof.Machine.execClamp s
  | .highz => Sys2Proof.Machine.execHighz s
  | .interlockClose n => Sys2Proof.Machine.execInterlockClose n s
  | .vcpUvRelease dV => Sys2Proof.Machine.execVcpUvRelease dV s
  | .vbusSpInhibitRelease dV => Sys2Proof.Machine.execVbusSpInhibitRelease dV s
  | .vcpGood dV => Sys2Proof.Machine.execVcpGood dV s
  | .d3hotExit => Sys2Proof.Machine.execD3hotExit s
  | .pmbAlertFall status => Sys2Proof.Machine.execPmbAlertFall status s
  | .msixVectorUnmask v => Sys2Proof.Machine.execMsixVectorUnmask v s
  | .auxFltRelease p => Sys2Proof.Machine.execAuxFltRelease p s

end Sys2Proof.Machine
end

