-- ==== Sys2Proof/Machine/Tick.lean ====
section
/-! DEFINITION. A tick (R14): what time alone does. -/

namespace Sys2Proof.Machine

/-- Ring time and the ticks since AON power-on reset advance by one (R14). -/
def advance (s : State) : State := s.modEng fun e => { e with time := e.time + 1, sincePor := e.sincePor + 1 }

/-- The TICK divider of the next tick: 24, or 23 or 25 for one tick in 64 while ring time is steered (R399; log 81). Ring time
counts each tick once whatever its divider. -/
def Ring.steerTick (r : Ring) : Ring :=
  if r.steerWait != 0 then { r with divider := 24, steerWait := r.steerWait - 1 }
  else if r.timeMaster || r.steer = 0 then { r with divider := 24 }
  else { r with divider := if 0 < r.steer then 23 else 25, steerWait := 63 }

/-- The lifetime counter of seconds in RUN (R493). -/
def countRun (s : State) : State :=
  if s.eng.state != .run then s
  else if s.pers.lifeTick + 1 < 100000000 then s.modPers fun p => { p with lifeTick := p.lifeTick + 1 }
  else countLife 2 1 (s.modPers fun p => { p with lifeTick := 0 })

/-- REF that has met its tolerance is taken back once the state allows it (R199). -/
def takeRefBack (s : State) : State := if s.clk.returnReady then refReturns s else s

/-- Time passes: the rows of the spindle channels in the tick that ends stand (R264), the FAULT event of that tick is posted
(R418), conditions left active by FAULT_CLEAR are raised again (R424), the eyelet anchor's follower is extrapolated (R160), the
facet reference changes its mode (R167), the speeds are judged anew (R164 to R166), the forward links send (R234), and the laps
of the in-service test are held to LAP_LIM (R491; log 9). -/
def tick (s : State) : State :=
  let s := (advance (postFault (each8 settleChannel s))).modRing Ring.steerTick
  let s := extrapolate (takeRefBack (countRun (reraise s)))
  lapWatch (each8 forwardTick (countOver (countStill (facetMode s.facet.err s))))

end Sys2Proof.Machine
end

