-- ==== Sys2Proof/Machine/RegRead.lean ====
section
/-! DEFINITION. Reads of BAR0 by offset (R2 to R4, R496 to R505): the value of every register of the table "Register index".
No command of the table is a read of a register; `readReg` is what the host finds (log 11). -/

namespace Sys2Proof.Machine

open Sys2Proof.Bits

/-- A register from its fields, each as lowest bit, width and value; what no field holds reads 0 (R3). -/
def regOf (l : List (Nat × Nat × Nat)) : Nat := l.foldl (fun a x => a + x.2.2 % 2 ^ x.2.1 * 2 ^ x.1) 0

/-- A flag as a field. -/
def flag (i : Nat) (b : Bool) : Nat × Nat × Nat := (i, 1, b2n b)

/-- A signed field of `w` bits. -/
def signedField (i w : Nat) (v : Int) : Nat × Nat × Nat := (i, w, unsigned w v)

/-- Bits of a mask given as a test. -/
def maskOf (n : Nat) (f : Nat → Bool) : Nat := ((List.range n).filter f).foldl (fun a i => a + 2 ^ i) 0

/-- A word of a 64-bit register: the upper one where the offset ends in 4 or C. -/
def wordOf (o v : Nat) : Nat := if o % 8 = 4 then v / 2 ^ 32 % 2 ^ 32 else v % 2 ^ 32

/-- Table "Boot failure codes". -/
def BootFail.code : BootFail → Nat
  | .none => 0x00 | .noFlash => 0x01 | .header => 0x02 | .layout => 0x03 | .sectionHdr => 0x04 | .sectionCrc => 0x05
  | .sectionContent => 0x06 | .keyHash => 0x07 | .signature => 0x08 | .imageChanged => 0x09 | .otpInvalid => 0x0A
  | .xtal => 0x0B | .pllLock => 0x0C | .powerSeq => 0x0D | .ringEnum => 0x0E | .stageTrain => 0x0F | .stepTimeout => 0x10

/-- Table "Channel state codes" of the spindle channels. -/
def SpState.code : SpState → Nat
  | .off => 0 | .sense => 1 | .align => 2 | .ramp => 3 | .closed => 4 | .brake => 5 | .coast => 6 | .short => 7 | .halted => 8

/-- LAW_TRAP.KIND. -/
def TrapKind.code : TrapKind → Nat
  | .none => 0 | .lockstep => 1 | .fetch => 2 | .overrun => 3

/-- Table "Auxiliary axis states". -/
def AuxState.code : AuxState → Nat
  | .idle => 0 | .moving => 1 | .stopping => 2 | .suspended => 3 | .fault => 4

/-- Table "Channel state codes" of the DMA channels. -/
def ChState.code : ChState → Nat
  | .idle => 0 | .running => 1 | .waiting => 2 | .ended => 3 | .stopped => 4 | .halted => 5

/-- CHn_ERR.KIND. -/
def DmaErr.code : DmaErr → Nat
  | .none => 0 | .readError => 1 | .timeout => 2 | .illegal => 3 | .address => 4 | .poison => 5 | .loopOverflow => 6
  | .refusedWrite => 7

/-- Enabled polygon channels, whatever their source (table "Channel state codes", R257). -/
def polygonChans (l : Img) : List Nat := (List.range 8).filter fun n => l.spindleEn n && l.has 9 && l.spMode n = 0

/-- ENG block. -/
def readEng (o : Nat) (s : State) : Nat :=
  let e := s.eng
  match o with
  | 0x00 =>
    regOf [(0, 4, e.state.code), (4, 4, e.prev.code), (8, 4, match e.target with | some t => t.code | none => 0xF),
          (12, 3, e.stop.code), flag 15 e.estop, flag 16 (s.run.suspended && decide (0 < runRemain s)),
          flag 17 (!s.img.isEmpty && (polygonChans s.img).all (channelLocked s)), flag 18 e.bootFail, (24, 8, e.cause)]
  | 0x04 => regOf [flag 0 e.evStateChg, flag 1 e.evArmTmo, flag 2 e.evStopDone]
  | 0x08 => regOf [(0, 16, e.armTmo), (16, 16, e.coastTmo)]
  | 0x0C => regOf [(0, 6, e.irqVector), flag 6 e.irqEn, (8, 3, e.irqMask.toNat)]
  | 0x10 | 0x14 => wordOf o e.stateTick
  | 0x18 | 0x1C => wordOf o s.now
  | _ => 0

/-- BOOT block. -/
def readBoot (o : Nat) (s : State) : Nat :=
  let b := s.boot
  if o = 0x00 then
    regOf [(0, 4, b.step), (4, 1, b.slot), flag 5 b.fallback, flag 6 b.secure, flag 7 b.signed, flag 8 b.trimDefault,
          flag 9 b.calibFail, flag 10 b.ovrInvalid, flag 11 b.optMissing, (16, 8, b.fail.code), (24, 8, b.mode)]
  else if o = 0x04 then regOf [(0, 8, b.sectionCode), (8, 8, b.item)]
  else if inR o 0x10 0x3F then regOf [(0, 32, tab b.ends 0 ((o - 0x10) / 4))]
  else 0

/-- Registers of queue pair `q`. -/
def readQueue (q r : Nat) (s : State) : Nat :=
  let x := tab s.host.q QPair.reset q
  match r with
  | 0x00 => regOf [flag 0 x.enable, (4, 12, x.size), (16, 6, x.vector), flag 22 x.irqEn, (24, 8, x.coalesce)]
  | 0x04 => regOf [flag 0 x.enable, flag 1 x.dbErr, flag 2 x.fetchErr, flag 3 (!x.waiting.isEmpty), (16, 12, x.sqHead)]
  | 0x08 | 0x0C => wordOf r x.sqBase
  | 0x10 | 0x14 => wordOf r x.cqBase
  | 0x18 => regOf [(0, 12, x.sqTail)]
  | 0x1C => regOf [(0, 12, x.cqHead)]
  | _ => 0

/-- HOST block. -/
def readHost (o : Nat) (s : State) : Nat :=
  let h := s.host
  if o = 0x000 then regOf [(0, 3, h.evt.cq.val), flag 3 h.evt.enable, (8, 8, h.evt.mask.toNat), (16, 16, h.evt.lost)]
  else if o = 0x004 then regOf [(0, 24, h.wasteDelay), flag 24 h.wasteMode, (25, 7, h.wasteMin)]
  else if o = 0x008 then
    regOf [(0, 11, s.jobs.spoil.length), flag 11 (decide (960 ≤ s.jobs.spoil.length)), flag 12 s.jobs.spoilMerged]
  else if inR o 0x100 0x2FF then readQueue ((o - 0x100) / 0x40) ((o - 0x100) % 0x40) s
  else 0

/-- STORE block. -/
def readStore (o : Nat) (s : State) : Nat :=
  let t := s.store
  match o with
  | 0x00 => regOf [flag 0 t.scrubEnable, (8, 8, t.scrubInterval), (16, 16, t.lapLimit)]
  | 0x04 => regOf [(0, 13, t.scrubLine / 16384), (16, 16, t.lastLap)]
  | 0x08 => regOf [(0, 16, t.pageLimit), (16, 16, t.window)]
  | 0x0C => regOf [(0, 16, t.ce), (16, 8, t.ue), (24, 8, t.logLost)]
  | 0x10 | 0x14 => wordOf o (t.ceAddr / 8 % 2 ^ 31 * 8)
  | 0x18 => regOf [(0, 8, maskOf 8 fun k => (tab t.remap none k).isSome), flag 8 t.fullSeen]
  | 0x1C => regOf [(0, 13, t.migSource), flag 13 t.migActive, flag 14 t.migAbandoned, (16, 15, t.migDone)]
  | 0x20 => regOf [(0, 10, t.retired.length)]
  | 0x24 => regOf [(0, 13, t.bar2Base), (16, 16, t.wrDrop)]
  | _ => 0

/-- CMPR block. -/
def readCmpr (o : Nat) (s : State) : Nat :=
  let h := s.host
  if o = 0x00 then
    regOf [flag 0 h.cmp[(0 : Fin 2)].isSome, flag 1 h.cmp[(1 : Fin 2)].isSome, flag 2 h.dec.isSome,
          (8, 8, sat 8 (h.cmpWait.length + h.decWait.length))]
  else if inR o 0x10 0x4F then
    let d := tab s.dec Decoder.reset ((o - 0x10) / 8)
    if o % 8 = 0 then regOf [(0, 16, d.blanked), (16, 4, d.check), (24, 8, d.resync)] else regOf [(0, 24, d.lastLine)]
  else 0

/-- Speed of the raw position in µm/s: 1 µm is 3,000 au (ANCH_SPEED). -/
def rawSpeedUm (s : State) : Int := rawAdvance s * 100000000 / (3000 * (s.img.estWin : Int))

/-- ANCH registers. -/
def readAnch (o : Nat) (s : State) : Nat :=
  let a := s.anch
  match o with
  | 0x00 =>
    regOf [(0, 2, a.src), flag 2 a.still, flag 3 (decide (0 < a.debt)), flag 4 a.qerr, flag 5 a.zerr, flag 6 a.stale,
          flag 7 a.debtTrip]
  | 0x04 => sat 32 a.debt
  | 0x08 => unsigned 32 (rawSpeedUm s)
  | 0x10 | 0x14 => wordOf o (unsigned 64 a.inp[(0 : Fin 2)].count)
  | 0x18 | 0x1C => wordOf o (unsigned 64 a.inp[(1 : Fin 2)].count)
  | 0x20 | 0x24 => wordOf o (unsigned 64 a.follow)
  | 0x28 | 0x2C => wordOf o (unsigned 64 s.line)
  | _ => 0

/-- RUN registers; without a run RUN_TARGET and RUN_STOP_POS stand at their reset value (log 11). -/
def readRun (o : Nat) (s : State) : Nat :=
  let r := s.run
  match o with
  | 0x20 =>
    regOf [flag 0 (s.eng.state = .run || s.eng.state = .halting), flag 1 (r.active && r.halt.isSome), flag 2 r.delayed,
          (16, 16, r.number)]
  | 0x24 => regOf [(0, 32, if r.active || r.suspended then s.runLeft else 0)]
  | 0x28 | 0x2C => wordOf o (unsigned 64 (runRemain s))
  | 0x30 | 0x34 => wordOf o (if r.active then unsigned 64 (runTarget s) else 0)
  | 0x38 | 0x3C => wordOf o (if r.active then unsigned 64 (runStop s / lineAu) else 0)
  | _ => 0

/-- ANCH, FACET, REG and RUN. -/
def readWeb (o : Nat) (s : State) : Nat :=
  if o < 0x40 then readAnch o s
  else if o = 0x040 then regOf [flag 0 s.facet.anchored, flag 1 s.facet.limited]
  else if o = 0x044 then regOf [(0, 32, s.facet.interval * 250 / 65536)]
  else if inR o 0x060 0x07F then
    let x := facetAt s ((o - 0x060) / 4)
    regOf [(0, 3, x.w), flag 3 x.slip, (8, 8, x.peak), signedField 16 16 x.res]
  else if inR o 0x080 0x0FF then
    let x := tab s.reg RegStation.reset ((o - 0x080) / 16)
    match o % 16 with
    | 0 => regOf [signedField 0 9 x.k]
    | 4 => regOf [signedField 0 8 x.trimAlong, signedField 16 16 x.trimCross]
    | 8 => regOf [signedField 0 8 x.accAlong, signedField 16 16 x.accCross]
    | _ => 0
  else if o = 0x100 then regOf [(0, 16, s.facet.regDropped)]
  else if inR o 0x120 0x13F then readRun (o - 0x100) s
  else 0

/-- CLK and TEMPC. -/
def readClk (o : Nat) (s : State) : Nat :=
  let c := s.clk
    if o = 0x00 then
    regOf [flag 0 c.refOk, flag 1 c.onBackup, flag 2 c.backupOk, flag 3 c.returnReady,
          (8, 8, maskOf 8 fun i => (pll s i).locked), (16, 8, maskOf 8 fun i => (pll s i).unlockSeen), flag 24 c.refLostSeen]
  else if o = 0x04 then regOf [(0, 12, c.backupTrim), (12, 10, c.aonTrim), flag 30 c.clamped, flag 31 c.tempActive]
  else if inR o 0x20 0x3F then
    let p := pll s ((o - 0x20) / 4)
    regOf [(0, 6, p.band), (6, 2, p.attempts), flag 8 p.locked, flag 9 p.searchFail, (16, 16, p.lockTime)]
  else 0

/-- TDC and SCAN registers of a station. -/
def readScan (n r : Nat) (s : State) : Nat :=
  let c := scanOf s n
  match r with
  | 0x00 => regOf [(0, 16, if c.fines.isEmpty then 0 else (divNear (c.fines.foldl (· + ·) 0 : Nat) c.fines.length).toNat), flag 16 c.spanOut]
  | 0x04 => regOf [flag 0 c.learned, flag 1 (historyMode s), flag 2 c.renum, flag 3 c.subst, (8, 4, c.facet), (16, 16, c.missed)]
  | 0x08 => unsigned 32 c.e
  | 0x0C => regOf [signedField 0 16 c.q, (16, 16, c.qPeak)]
  | _ =>
    if inR r 0x20 0x3F then
      let f := (r - 0x20) / 4
      regOf [signedField 0 16 (if historyMode s then 0 else divNear (modelAt c f) 256), signedField 16 16 (tab c.crossSet 0 f)]
    else 0

/-- EXPO registers of a station. -/
def readExpo (n r : Nat) (s : State) : Nat :=
  let e := expoOf s n
  match r with
  | 0x00 =>
    regOf [flag 0 e.linkUp, flag 1 e.echo, flag 2 e.blank.blank, flag 3 e.derate, flag 4 e.tempLimit, flag 5 e.uncomp,
          (8, 8, e.crcErr), signedField 16 16 e.temp]
  | 0x04 => regOf [flag 0 e.hold]
  | 0x08 => regOf [(0, 24, e.lateLine), (24, 8, e.lateCount)]
  | 0x0C => regOf [(0, 6, e.hEmitter), (6, 2, e.hStrikes), (8, 24, e.hRd)]
  | 0x10 => regOf [(0, 32, e.mlc)]
  | 0x18 | 0x1C => wordOf r e.dead.toNat
  | 0x20 | 0x24 => wordOf r (regOf [flag 63 e.cfgPend])
  | _ => if inR r 0x40 0x7F then regOf [(0, 16, tab e.tone 0 ((r - 0x40) / 4))] else 0

/-- IL_STATUS. -/
def readIl (o : Nat) (s : State) : Nat :=
  if o = 0 then
    regOf [(0, 8, maskOf 8 (tab s.il.cover true)), flag 8 s.il.web, flag 9 s.il.jam, (16, 8, maskOf 8 (tab s.il.lsr false))]
  else 0

/-- SP registers of a channel. -/
def readSpindle (n r : Nat) (s : State) : Nat :=
  let c := tab s.sp Spindle.reset n
  match r with
  | 0x00 =>
    regOf [(0, 4, c.state.code), flag 4 (channelLocked s n), flag 5 c.freqOk, flag 6 (decide (c.idRef < 0)), flag 7 c.regenLim,
          flag 8 c.reverse, flag 9 c.cmdLost, flag 10 c.catchFail, flag 11 c.startFail, (12, 3, c.tries), (16, 8, sat 8 c.lockRevs),
          (24, 8, c.syncLosses)]
  | 0x04 =>
    regOf [(0, 6, c.desat.toNat), flag 6 c.oc, (7, 3, c.bsUv.toNat), (10, 3, c.firstLeg), flag 13 c.ovf, (16, 16, c.events)]
  | 0x08 => unsigned 32 c.speed
  | 0x0C => regOf [(0, 12, min 4095 c.duty), (12, 8, c.adv), signedField 20 12 c.id]
  | _ => 0

/-- SP block. -/
def readSp (o : Nat) (s : State) : Nat :=
  let b := s.spBus
  if o < 0x100 then readSpindle (o / 0x20) (o % 0x20) s
  else if o = 0x100 then
    regOf [(0, 10, b.vbus), flag 10 b.vbusUv, flag 11 b.vbusOv, flag 12 b.vcpUv, flag 13 b.rpsOn, flag 14 b.rpsRev, (16, 8, b.vcp)]
  else 0

/-- LAW block. -/
def readLaw (o : Nat) (s : State) : Nat :=
  let l := s.law
  match o with
  | 0x00 => regOf [flag 0 l.stop]
  | 0x04 =>
    regOf [flag 0 (lawRunning s), flag 1 l.halted, flag 2 l.prgBad, flag 3 s.host.paramWait.isSome, flag 4 l.nan, flag 5 l.clamp,
          flag 6 l.checkFail, (16, 16, l.last)]
  | 0x08 => regOf [(0, 32, l.sample)]
  | 0x0C => regOf [(0, 16, l.budget), (16, 16, l.worst)]
  | 0x10 => regOf [(0, 16, l.peak)]
  | 0x14 => regOf [(0, 16, l.trapPc), (16, 4, l.trapProg), (20, 2, l.trapKind.code)]
  | 0x18 => regOf [(0, 16, l.ce), (16, 8, l.dataUe)]
  | 0x1C => l.hold.toNat
  | 0x20 => l.plaus.toNat
  | _ => 0

/-- I_REGEN_a < I_MAX_a for any axis of bus `b` (STAGE_BUSb.REGEN_LIM). -/
def busRegenLim (s : State) (b : Nat) : Bool :=
  (List.range 16).any fun a =>
    s.img.axisEn a && (match s.img.axisSlot a with | some x => s.img.linkBus x.1 = b | none => false) &&
    Fp.lt (iRegen s a) (s.img.axIMax a)

/-- STAGE block. -/
def readStage (o : Nat) (s : State) : Nat :=
  if o < 0x80 then
    let l := tab s.stage StageLink.reset (o / 16)
    match o % 16 with
    | 0 =>
      regOf [flag 0 l.up, flag 1 l.pair.active, flag 2 l.pair.wireSeen, flag 3 l.inh, (8, 8, l.crcErr), (16, 8, l.echoErr), (24, 8, l.rtt)]
    | 4 => regOf [(0, 16, l.flags0), (16, 16, l.flags1)]
    | _ => 0
  else if inR o 0x100 0x10F then
    let b := tab s.bus DcBus.reset ((o - 0x100) / 4)
    regOf [(0, 16, b.vdc), flag 16 b.absorbLost, flag 17 b.trip, flag 18 (busRegenLim s ((o - 0x100) / 4)),
          (24, 8, (divNear (255 * b.duty : Nat) 65535).toNat)]
  else 0

/-- ROPE registers. -/
def readRope (o : Nat) (s : State) : Nat :=
  let rope (r : Nat) := tab s.rope Rope.reset r
  match o with
  | 0x00 => maskOf 32 fun r => (rope r).still
  | 0x04 => maskOf 32 fun r => (rope r).splice
  | 0x08 => maskOf 32 fun r => (rope r).tensEp
  | 0x0C => regOf [flag 0 s.drawLim]
  | _ => 0

/-- AUX registers of an axis. -/
def readAux (p r : Nat) (s : State) : Nat :=
  let x := tab s.aux Aux.reset p
  match r with
  | 0x00 => unsigned 32 x.target
  | 0x04 => unsigned 32 x.pos
  | 0x08 => unsigned 32 (x.held - x.pos)
  | 0x0C => regOf [(0, 16, x.speed), (16, 16, x.accel)]
  | 0x14 => regOf [(0, 3, x.state.code), flag 3 x.reject, flag 4 x.fltIn]
  | _ => 0

/-- THERM, SENS, HTR and HV. -/
def readTherm (o : Nat) (s : State) : Nat :=
  let broken (i : Nat) := tab s.therm.broken false i
  match o with
  | 0x00 => regOf [(0, 2, s.therm.level), flag 2 s.therm.critical, flag 3 s.therm.pinned, signedField 16 16 s.therm.tj]
  | 0x04 => maskOf 26 broken
  | 0x08 =>
    regOf [(0, 4, maskOf 4 (tab s.htr.on false)), (4, 4, maskOf 4 (tab s.htr.cutoff false)), flag 8 s.htr.zcOk,
          (16, 16, s.htr.zcPeriod)]
  | 0x0C => s.hv.live.toNat
  | _ => 0

/-- RING block. -/
def readRing (o : Nat) (s : State) : Nat :=
  let r := s.ring
  if o = 0x00 then
    regOf [(0, 5, r.index), flag 5 r.timeMaster, flag 6 r.upperWrap, flag 7 r.subWrap, flag 8 r.synced, flag 9 r.enumDone,
          (16, 8, r.late), signedField 24 8 (clampI (-128) 127 (divNear (10 * r.err) 64))]
  else if o = 0x04 then maskOf 32 fun i => (tab r.ctrl RingNode.reset i).live
  else if inR o 0x10 0x1F then maskOf 32 fun b => (tab r.node RingNode.reset (32 * ((o - 0x10) / 4) + b)).live
  else if inR o 0x20 0x2F then
    let p := tab r.port RingPort.reset ((o - 0x20) / 4)
    regOf [flag 0 p.lock, flag 1 p.up, flag 2 p.downSeen, (8, 8, p.crcErr), (16, 16, p.delay)]
  else 0

/-- State of a dual-polarity pair: 0 normal, 1 active, 2 wire fault (FLT_PAIRS). -/
def Pair.code (p : Pair) : Nat := if p.wire then 2 else if p.active then 1 else 0

/-- FLT block. -/
def readFlt (o : Nat) (s : State) : Nat :=
  let f := s.flt
  let first : Option FirstFault := f.first
  if o = 0x000 then
    regOf [(0, 9, match first with | some x => x.source | none => 0), (12, 4, match first with | some x => x.cls | none => 0),
          (16, 4, match first with | some x => x.reaction | none => 0), flag 20 first.isSome, flag 21 f.ovf,
          flag 22 (f.same.toList.any (· != 0))]
  else if o = 0x008 || o = 0x00C then wordOf o (match first with | some x => x.tick | none => 0)
  else if o = 0x010 then
    regOf [(0, 2, f.sto.code), (2, 2, f.estop.code), flag 4 f.sto.wireSeen, flag 5 f.estop.wireSeen]
  else if o = 0x014 then regOf [flag 0 f.pinLow, flag 1 f.pinPulse, (16, 14, s.img.orD 14 (s.img.b4 14 0) 100)]
  else if o = 0x018 then regOf [(0, 16, f.raised), (16, 16, f.clears)]
  else if inR o 0x100 0x13F then (tab f.sticky 0 ((o - 0x100) / 4)).toNat
  else if inR o 0x140 0x17F then (tab f.same 0 ((o - 0x140) / 4)).toNat
  else if inR o 0x180 0x1BF then (tab f.active 0 ((o - 0x180) / 4)).toNat
  else 0

/-- A power-up or shut-down sequence runs (PWR_RAIL_EVT.SEQ_ACTIVE). -/
def seqRuns (s : State) : Bool := s.pwr.up.isSome || s.pwr.down.any fun d => !d.done

/-- PWR block. -/
def readPwr (o : Nat) (s : State) : Nat :=
  let p := s.pwr
  match o with
  | 0x00 => regOf ((List.range 10).map fun d => (2 * d, 2, tab p.domain 0 d))
  | 0x04 => regOf [(0, 12, p.en.toNat), (12, 12, p.good.toNat)]
  | 0x08 => regOf [(0, 12, p.earlyOff.toNat), (12, 12, p.noDischarge.toNat), flag 24 (seqRuns s)]
  | 0x0C => regOf [(0, 16, p.cMeas), flag 16 p.armed, flag 17 p.low, (24, 8, p.vhold)]
  | 0x10 => regOf (((List.range 12).map fun n => (2 * n, 2, tab p.margin 0 n)) ++ [flag 24 (p.trim != p.trimTo)])
  | 0x14 => regOf [(0, 7, p.pmbAddr), flag 7 p.pmbAlert, (8, 8, p.nacks), (16, 8, p.pecErr)]
  | 0x18 => regOf [(0, 8, s.pers.cairnKind), flag 8 s.pers.cairnTail]
  | 0x1C => regOf [(0, 32, s.pers.cairnSeq)]
  | _ => 0

/-- OTP block. -/
def readOtp (o : Nat) (s : State) : Nat :=
  let t := s.otp
  match o with
  | 0x00 => regOf [(0, 12, t.addr)]
  | 0x04 => t.data.toNat
  | 0x0C => regOf [flag 0 t.job.isSome, flag 1 t.done, flag 2 t.marg, (4, 3, t.retries), (8, 2, t.copies), (16, 8, t.result)]
  | 0x10 => regOf [(0, 16, t.valid.toNat), (16, 16, t.blank.toNat)]
  | 0x14 => regOf [(0, 16, t.wlock.toNat), (16, 16, t.rlock.toNat)]
  | 0x18 => regOf [(0, 16, t.regions.toNat), (16, 13, t.count)]
  | _ => 0

/-- A word of the OTP_SHADOW window: 0 in a read-locked region (R454, R497). -/
def readShadow (o : Nat) (s : State) : Nat :=
  let a := o / 4
  if s.otp.rlock.getLsbD (a / 256) then 0 else (shadow s a).toNat

/-- CONS block. -/
def readCons (o : Nat) (s : State) : Nat :=
  let used := s.img.tagsUsed
  if o = 0x00 then maskOf 32 fun i => (tagOf s i).present
  else if o = 0x04 then maskOf 32 fun i => (tagOf s i).auth
  else if o = 0x08 then
    regOf [(0, 5, s.cons.tagShown), flag 5 s.cons.cur.isSome,
          flag 6 (used.any fun i => decide (s.img.b4 17 (Img.tagAt i + 8) ≤ (tagOf s i).mirror)),
          flag 7 (used.any fun i => s.img.tagUse i = 2 && atLimit s.img i (tagOf s i)),
          flag 8 (policyForbids s)]
  else if inR o 0x80 0xFF then (tagOf s ((o - 0x80) / 4)).mirror
  else 0

/-- Registers of DMA channel `k`. -/
def readChan (k r : Nat) (s : State) : Nat :=
  let c := tab s.dma.ch Chan.reset k
  match r with
  | 0x00 => regOf [(0, 6, c.vector), flag 6 c.irqEn, flag 7 c.poison]
  | 0x04 => regOf [(0, 14, c.entry)]
  | 0x0C => regOf [(0, 14, c.tail)]
  | 0x10 => regOf [(0, 14, c.endAt)]
  | 0x14 =>
    regOf [(0, 3, c.state.code), flag 3 c.dbPend, flag 4 c.sig, flag 5 c.half, flag 6 c.full, (8, 3, c.loops.length), (16, 14, c.pc)]
  | 0x18 => regOf [(0, 14, c.errPc), (16, 4, c.errKind.code)]
  | 0x20 | 0x24 => wordOf r (regOf [(0, 44, c.errAddr), (44, 4, c.errSpace)])
  | _ => 0

/-- Registers of check unit `u`: CUu_RESULT is the final value while DONE is 1, CUu_RUN while it is 0 (R485). -/
def readCu (u r : Nat) (s : State) : Nat :=
  let x := tab s.dma.cu { poly := 0, fold := false, run := 0, done := false, busy := false, poison := false, owner := 0 } u
  let run := x.run % 2 ^ (polyOf x.poly).width
  match r with
  | 0x00 => regOf [(0, 2, x.poly), flag 2 x.fold]
  | 0x04 => run
  | 0x08 => if x.done then run ^^^ (polyOf x.poly).final else run
  | 0x0C => regOf [flag 0 x.done, flag 1 x.busy, flag 2 x.poison, (4, 4, x.owner)]
  | _ => 0

/-- DMA and CU blocks. -/
def readDma (o : Nat) (s : State) : Nat :=
  if o < 0x400 then readChan (o / 0x40) (o % 0x40) s
  else if inR o 0x800 0x83F then readCu ((o - 0x800) / 0x10) (o % 0x10) s
  else 0

/-- IST block. -/
def readIst (o : Nat) (s : State) : Nat :=
  let i := s.ist
  match o with
  | 0x00 => regOf [(0, 7, i.en.toNat), (8, 8, i.berLim), (16, 16, i.lapLim)]
  | 0x04 => regOf [(0, 7, i.seen.toNat), (8, 7, maskOf 7 fun t => (tab i.test IstTest.fresh t).running), (16, 16, i.fails)]
  | _ => if inR o 0x10 0x2B then sat 32 (tab i.test IstTest.fresh ((o - 0x10) / 4)).lap else 0

/-- A word of the MSI-X table, or of the pending-bit array. -/
def readMsix (o : Nat) (s : State) : Nat :=
  if inR o 0xFE000 0xFE3FF then
    let k := (o - 0xFE000) / 16
    if o % 16 = 12 then b2n (s.host.msixMask.getLsbD k)
    else field (tab s.host.msixTab 0 k).toNat (8 * (o % 16) + 31) (8 * (o % 16))
  else wordOf o s.host.msixPend.toNat

/-- The blocks of BAR0 (table "BAR0 blocks"): first and last offset, power domain, and the read of a word by its offset in
the block. -/
def readBlocks : List (Nat × Nat × Nat × (Nat → State → Nat)) :=
  [(0x00000, 0x000FF, 1, readEng), (0x00100, 0x001FF, 1, readBoot), (0x01000, 0x01FFF, 1, readHost),
   (0x02000, 0x020FF, 4, readStore), (0x02100, 0x021FF, 3, readCmpr), (0x03000, 0x03FFF, 1, readWeb),
   (0x04000, 0x040FF, 0, readClk), (0x04100, 0x042FF, 8, fun o => readScan (o / 0x40) (o % 0x40)),
   (0x05000, 0x057FF, 5, fun o => readExpo (o / 0x100) (o % 0x100)), (0x05800, 0x058FF, 1, readIl),
   (0x06000, 0x061FF, 7, readSp), (0x07000, 0x070FF, 2, readLaw), (0x08000, 0x081FF, 10, readStage),
   (0x08200, 0x083FF, 1, readRope), (0x08400, 0x085FF, 1, fun o => readAux (o / 0x20) (o % 0x20)),
   (0x09000, 0x090FF, 1, readTherm), (0x0A000, 0x0A0FF, 10, readRing), (0x0B000, 0x0B1FF, 1, readFlt),
   (0x0C000, 0x0C0FF, 0, readPwr), (0x0D000, 0x0D0FF, 0, readOtp), (0x0D100, 0x0D1FF, 1, readCons),
   (0x0E000, 0x0E8FF, 1, readDma), (0x0F000, 0x0F0FF, 1, readIst), (0x10000, 0x13FFF, 0, readShadow),
   (0x40000, 0x7FFFF, 1, fun o s => wordOf o (ramWord s (o / 8))), (0xFE000, 0xFE3FF, 6, fun o => readMsix (0xFE000 + o)),
   (0xFF000, 0xFF007, 6, fun o => readMsix (0xFF000 + o))]

/-- The 32 bits at a word's offset now: 0 at a reserved offset and while the block's domain is off (R3, R503). -/
def readNow (o : Nat) (s : State) : Nat :=
  match readBlocks.find? (fun b => inR o b.1 b.2.1) with
  | some b => if regOpen b.2.2.1 s then b.2.2.2 (o - b.1) s % 2 ^ 32 else 0
  | none => 0

/-- A 32-bit read: the lower word of a 64-bit register latches the upper one, whose next read returns the latched value (R2). -/
def read32 (o : Nat) (s : State) : Nat × State :=
  let s' := if reg64 o then
      s.modHost fun h => { h with latch := (o + 4, readNow (o + 4) s) :: h.latch.filter fun x => x.1 != o + 4 }
    else s
  match s.host.latch.find? (fun x => x.1 = o) with
  | some x => (x.2, s.modHost fun h => { h with latch := h.latch.filter fun x => x.1 != o })
  | none => (readNow o s, s')

/-- A read of BAR0 by the host: the value returned, and the state after it. An access that R2 does not permit is an Unsupported
Request (R499); a 64-bit read takes both words at once (R501). -/
def readReg (o : Nat) (wide : Bool) (s : State) : Option Nat × State :=
  if !barOpen s then (none, s)
  else if !accessOk o (if wide then 8 else 4) then (none, unsupported s)
  else if wide then (some (readNow o s + 2 ^ 32 * readNow (o + 4) s), s)
  else (some (read32 o s).1, (read32 o s).2)

end Sys2Proof.Machine
end

