-- ==== Sys2Proof/Safety.lean ====
section
/-! DEFINITION. What the claims about every step speak of: the canonical form of the tables that State holds, and the
commands that may change a unit of it. -/

namespace Sys2Proof.Machine

open Sys2Proof.Bits

/-- The tables of the state are in canonical form: the data of the raster store, the OTP array and its shadow, the DMA
program RAM and the law engine's data RAM. -/
def State.canonical (s : State) : Prop :=
  Memory.wf s.store.mem = true ∧ swf OtpCell.blank s.otp.cells = true ∧ swf 0 s.otp.shadow = true ∧
  swf 0 s.dma.ram = true ∧ swf DWord.zero s.law.data = true

/-- Commands that may change a byte of the raster store. -/
def Instr.mayChangeStore (c : Instr) : Bool :=
  match c with
  | .aonPowerOnReset .. | .powerReturnReset .. | .slotHeaderRead .. | .signatureVerification .. | .sectionLoad ..
  | .frameCommit .. | .migrationComplete .. | .decodeLine .. | .mergeBufferFlush .. | .scrubBurst .. | .bar2Read .. | .bar2Write ..
  | .move .. | .scan .. | .dmaStop .. | .dmaInstructionComplete .. | .istTestStep .. => true
  | _ => false

/-- Commands that execute an instruction of the law engine. -/
def Instr.isLaw (c : Instr) : Bool :=
  match c with
  | .ld .. | .st .. | .mov .. | .add .. | .sub .. | .mul .. | .mac .. | .abs .. | .min .. | .max .. | .sel .. | .cmp ..
  | .brf .. | .lim .. | .slew .. | .lpf .. | .biq .. | .pi .. | .intg .. | .diff .. | .clarke .. | .park .. | .ipark ..
  | .sincos .. | .svm .. | .obs .. | .hold .. | .share .. | .inp .. | .out .. | .endp .. => true
  | _ => false

/-- The command of a law instruction with `x` as what the hardware shows while it executes; another command as it is. -/
def Instr.withMarks (x : LawExec) (c : Instr) : Instr :=
  match c with
  | .ld _ d a b => .ld x d a b
  | .st _ d a b => .st x d a b
  | .mov _ imm d a b => .mov x imm d a b
  | .add _ d a b => .add x d a b
  | .sub _ d a b => .sub x d a b
  | .mul _ d a b => .mul x d a b
  | .mac _ d a b => .mac x d a b
  | .abs _ d a => .abs x d a
  | .min _ d a b => .min x d a b
  | .max _ d a b => .max x d a b
  | .sel _ d a b => .sel x d a b
  | .cmp _ c d a b => .cmp x c d a b
  | .brf _ inv a n => .brf x inv a n
  | .lim _ y d a b => .lim x y d a b
  | .slew _ y d a b => .slew x y d a b
  | .lpf _ y d a b => .lpf x y d a b
  | .biq _ y d a b => .biq x y d a b
  | .pi _ y d a b => .pi x y d a b
  | .intg _ y d a b => .intg x y d a b
  | .diff _ y d a b => .diff x y d a b
  | .clarke _ t d a => .clarke x t d a
  | .park _ d a b => .park x d a b
  | .ipark _ d a b => .ipark x d a b
  | .sincos _ d a => .sincos x d a
  | .svm _ d a b => .svm x d a b
  | .obs _ d a b => .obs x d a b
  | .hold _ d a b => .hold x d a b
  | .share _ d a c => .share x d a c
  | .inp _ d p => .inp x d p
  | .out _ a p => .out x a p
  | .endp _ => .endp x
  | c => c

/-- Commands that may change a word of the law engine's data RAM. -/
def Instr.mayChangeLawData (c : Instr) : Bool :=
  match c with
  | .aonPowerOnReset .. | .powerReturnReset .. | .slotHeaderRead .. | .signatureVerification .. | .sectionLoad ..
  | .baseSampleBoundary | .move .. | .scan .. | .dmaStop .. | .dmaInstructionComplete .. => true
  | c => Instr.isLaw c

/-- Commands of the DMA engine and the check units. -/
def Instr.isDma (c : Instr) : Bool :=
  match c with
  | .dmaStart .. | .dmaStop .. | .dmaResume .. | .dmaReset .. | .dmaTailWrite .. | .dmaConfigWrite .. | .move .. | .loop ..
  | .wait .. | .waitComplete .. | .signal .. | .scan .. | .jump .. | .dmaEnd .. | .nop .. | .dmaInstructionComplete ..
  | .checkUnitRunWrite .. => true
  | _ => false

/-- The command resets the whole block: AON_POWER_ON_RESET, POWER_RETURN_RESET, or the end of a record of a power failure that
was held back by it (R440, R511; log 16). -/
def State.willReset (s : State) (c : Instr) : Bool :=
  match c with
  | .aonPowerOnReset .. | .powerReturnReset .. => true
  | .cairnRecordWritten => s.pwr.resetOwed.isSome
  | _ => false

/-- Commands that may enter BOOT, IDLE, SERVICE or RUN (rows 1, 2, 4 to 10, 25 and 26 of the table "State transitions"; log 52);
for the other states, none is listed. -/
def Instr.mayEnter (c : Instr) (x : EngState) : Bool :=
  match x, c with
  | .boot, .aonPowerOnReset .. | .boot, .powerReturnReset .. | .boot, .faultClear .. | .boot, .shutDownSlot
  | .boot, .entryTakeUp .. => true
  | .idle, .ringEnumeration .. | .idle, .stageLinkTraining .. | .idle, .stateSet .. | .idle, .faultClear ..
  | .idle, .entryTakeUp .. => true
  | .service, .stateSet .. | .service, .entryTakeUp .. => true
  | .run, .runEntry | .run, .groupStart .. => true
  | _, _ => false

/-- States of a stretch, or ready for one: ARMED, RUN, HALTING and BELAY. -/
def EngState.press (x : EngState) : Bool := x = .armed || x = .run || x = .halting || x = .belay

/-- Commands that neither raise a source nor end, clear or log one. -/
def Instr.sparesFaults (c : Instr) : Bool :=
  match c with
  | .railPowerGood .. | .stageLinkRetrainTimer .. | .queueControlWrite .. | .completionWriteResumed ..
  | .coalesceTimerExpiry .. | .eventFifoDrain | .d3hotEntry | .ident .. | .stateSet .. | .armingComplete
  | .armTimeout | .jobOpen .. | .jobClose .. | .framePut .. | .framePutRaw .. | .quotaSet .. | .runStart ..
  | .runResume .. | .runModify .. | .runStop .. | .paramSet .. | .resultGet .. | .compress .. | .compressRun ..
  | .decompress .. | .decompressRun .. | .pageRetire .. | .logRead .. | .calibRead .. | .calibWrite ..
  | .consumableSync .. | .engineEventInterruptWrite .. | .bar0UnsupportedAccess .. | .ropeStandstill | .frameStart
  | .regBaseWrite .. | .scanCrossWrite .. | .refReturn | .bar2BaseWrite .. | .wasteMarker | .wasteMinExpiry
  | .laserEnableRise .. | .toneEntryWrite .. | .toneHoldWrite .. | .deadMaskWrite .. | .partnerConfigWrite ..
  | .spindleRunCommand .. | .spindleSenseTimeout .. | .alignTimeout .. | .zeroCrossing .. | .zeroCrossingTimeout ..
  | .pwmPeriod .. | .shortTimeout .. | .catchTimeout .. | .coastBackEmfTimeout .. | .spindleCommandSample ..
  | .spindleCommandEdge .. | .rampAxisTimeout .. | .inputWindowClose | .lawControlWrite .. | .spliceEdge ..
  | .spliceWindowExpiry .. | .coastTimeout | .auxStart .. | .auxStop .. | .auxResume .. | .auxAbort .. | .auxStep ..
  | .auxProfileWrite .. | .ringPortTraining .. | .ringPortRetrainTimer .. | .slotLaunch | .tsReq .. | .tsRsp ..
  | .tsFup .. | .groupReady .. | .groupHalt .. | .groupHaltPosition | .groupTimeout | .shutDownSlot
  | .railDischarged .. | .holdUpMeasurement .. | .powerFailArming | .marginWrite .. | .trimStep .. | .program ..
  | .read .. | .lockW .. | .lockR .. | .otpPulseEnd .. | .consumableSyncTimer | .usageMirrorPersist
  | .lifetimeCounterPersist | .dmaStart .. | .dmaResume .. | .dmaReset .. | .dmaTailWrite .. | .dmaConfigWrite ..
  | .waitComplete .. | .checkUnitRunWrite .. | .bypass | .idcode | .samplePreload | .extest | .extestPulse
  | .extestTrain | .clamp | .highz | .vcpGood .. | .d3hotExit | .pmbAlertFall .. | .msixVectorUnmask ..
  | .auxFltRelease .. => true
  | _ => false

/-- Commands that change nothing of the engine's own registers. -/
def Instr.sparesEngine (c : Instr) : Bool :=
  match c with
  | .railPowerGood .. | .stageLinkRetrainTimer .. | .queueControlWrite .. | .completionWriteResumed ..
  | .coalesceTimerExpiry .. | .eventFifoDrain | .d3hotEntry | .ident .. | .jobOpen .. | .jobClose .. | .framePut ..
  | .framePutRaw .. | .quotaSet .. | .runStart .. | .runResume .. | .runModify .. | .paramSet .. | .resultGet ..
  | .compress .. | .compressRun .. | .decompress .. | .decompressRun .. | .pageRetire .. | .logRead ..
  | .calibRead .. | .calibWrite .. | .consumableSync .. | .faultPinRelease .. | .faultPinPulseEnd
  | .pairReturnNormal .. | .bar0UnsupportedAccess .. | .frameStart | .regBaseWrite .. | .scanCrossWrite ..
  | .refReturn | .bar2BaseWrite .. | .wasteMarker | .wasteMinExpiry | .laserEnableRise .. | .toneEntryWrite ..
  | .toneHoldWrite .. | .deadMaskWrite .. | .partnerConfigWrite .. | .spindleRunCommand .. | .spindleSenseTimeout ..
  | .alignTimeout .. | .zeroCrossing .. | .zeroCrossingTimeout .. | .pwmPeriod .. | .shortTimeout ..
  | .catchTimeout .. | .coastBackEmfTimeout .. | .spindleCommandSample .. | .spindleCommandEdge ..
  | .inputWindowClose | .lawControlWrite .. | .spliceEdge .. | .spliceWindowExpiry .. | .auxStart .. | .auxStop ..
  | .auxResume .. | .auxAbort .. | .auxStep .. | .auxProfileWrite .. | .ringPortTraining ..
  | .ringPortRetrainTimer .. | .slotLaunch | .tsReq .. | .tsRsp .. | .tsFup .. | .groupReady .. | .groupTimeout
  | .railDischarged .. | .holdUpMeasurement .. | .powerFailArming | .marginWrite .. | .trimStep .. | .program ..
  | .read .. | .lockW .. | .lockR .. | .otpPulseEnd .. | .consumableSyncTimer | .usageMirrorPersist
  | .lifetimeCounterPersist | .dmaStart .. | .dmaResume .. | .dmaReset .. | .dmaTailWrite .. | .dmaConfigWrite ..
  | .waitComplete .. | .checkUnitRunWrite .. | .bypass | .idcode | .samplePreload | .extest | .extestPulse
  | .extestTrain | .clamp | .highz | .interlockClose .. | .vcpUvRelease .. | .vbusSpInhibitRelease .. | .vcpGood ..
  | .d3hotExit | .pmbAlertFall .. | .msixVectorUnmask .. | .auxFltRelease .. => true
  | _ => false

/-- Input levels with nothing active: both lines of every pair normal, every interlock closed. -/
def normalPins : Pins :=
  { stoT := false, stoC := true, estopT := false, estopC := true, fltT := 0, fltC := 0xFF, coverClosed := 0xFF
    webClosed := true, jamClosed := true, auxFlt := 0, pmbAlert := false }

/-- Message `h` is taken up and passes the checks on its header, and a completion of its queue can be written at once. -/
def State.takes (s : State) (h : MsgHdr) : Prop :=
  queueServes h.q s = true ∧ h.clean = true ∧ h.tag ≠ 0xFFFF ∧ hasRoom h.q s = true

/-- From `s` to `t` the completion of message `h` is written to the slot of its queue that is next in `s`. -/
def State.answered (s t : State) (h : MsgHdr) (st : Status) (more : Bool) (result : Nat) : Prop :=
  let q := s.host.q[h.q]
  let c : Completion := { tag := h.tag, status := st, rep := false, more := more, event := false
                          result := result % 2 ^ 32, time := s.now }
  ({ addr := q.cqBase + 16 * q.cqWr, data := c.bytes q.phase } : HostWrite) ∈ t.host.out

/-- From `s` to `t` message `r`, taken up before, is completed, where its completion can be written at once. -/
def State.completed (s t : State) (r : MsgRef) (st : Status) (result : Nat) : Prop :=
  s.host.q[r.q].epoch = r.epoch → hasRoom r.q s = true →
    s.answered t { q := r.q, tag := r.tag, job := 0, clean := true } st false result

/-- The message command that a submission entry of queue `q` spells (tables "Messages" and "Message payloads"); none for an
unknown opcode. -/
def entryMessage (q : Fin 8) (e : List Byte) : Option Instr :=
  let op := byteAt e 0
  let h := entryHdr q e (entryClean e op ((payloadOf op).getD []))
  match op with
  | 0x01 => some (.ident h (le e 8 8) (u32 e 16))
  | 0x02 => some (.stateSet h (byteAt e 8))
  | 0x10 => some (.jobOpen h (byteAt e 8) (byteAt e 9) (u16 e 10) (u32 e 12))
  | 0x11 => some (.jobClose h (byteAt e 8))
  | 0x12 => some (.framePut h (le e 8 8) (u32 e 16) (u32 e 20) (u32 e 24) (u16 e 28) (u16 e 30))
  | 0x13 => some (.framePutRaw h (le e 8 8) (u32 e 16) (u32 e 20) (u32 e 24) (u16 e 28) (u16 e 30))
  | 0x14 => some (.quotaSet h (u32 e 12))
  | 0x18 => some (.runStart h (u32 e 8) (u16 e 12) (u16 e 14))
  | 0x19 => some (.runModify h (u32 e 8) (u16 e 12) (u16 e 14))
  | 0x1A => some (.runStop h)
  | 0x1B => some (.runResume h (u16 e 12) (u16 e 14))
  | 0x20 => some (.paramSet h (byteAt e 8) (u16 e 10) (f32 e 12))
  | 0x21 => some (.paramGet h (byteAt e 8) (u16 e 10))
  | 0x28 => some (.resultGet h (byteAt e 8) (le e 16 8) (u32 e 24))
  | 0x29 => some (.resultAck h (byteAt e 8))
  | 0x30 => some (.compress h (serviceFields e))
  | 0x31 => some (.decompress h (serviceFields e))
  | 0x38 => some (.pageRetire h (u16 e 8))
  | 0x39 => some (.logRead h (byteAt e 8) (le e 16 8) (u32 e 24))
  | 0x40 => some (.calibRead h (le e 16 8) (u32 e 24))
  | 0x41 => some (.calibWrite h (le e 16 8) (u32 e 24) (e.drop 64))
  | 0x48 => some (.consumableSync h (BitVec.ofNat 32 (u32 e 8)))
  | 0x50 => some (.faultClear h)
  | 0x51 => some (.faultPinRelease h)
  | _ => none

/-- The law engine runs, and the word at its program counter is readable and stands for the instruction `c`. -/
def State.fetches (s : State) (c : Instr) : Prop :=
  lawRunning s = true ∧ s.law.due ≠ [] ∧ s.law.progBad.contains s.law.pc = false ∧
  decodeLaw (progWord s s.law.pc) = some c

/-- The word of data RAM after the writes `puts` in their order, from the state `u`. -/
def lawWordAfter (u : State) (puts : List (Nat × Fp.FNum × Bool)) (k : Nat) : DWord :=
  ((puts.reverse.find? fun p => p.1 = k).map fun p => ({ v := p.2.1.norm.v, stale := p.2.2, bad := false } : DWord)).getD
    (dget u k)

/-- From `s` to `t` an instruction is executed that writes `puts`: every other word of data RAM is as in `u`, the next
instruction follows, its cycles are counted, and nothing is committed. -/
def State.retires (s t u : State) (puts : List (Nat × Fp.FNum × Bool)) : Prop :=
  (∀ k, dget t k = lawWordAfter u puts k) ∧ t.law.pc = s.law.pc + 1 ∧
  t.law.cycles = s.law.cycles + lawCycles (progWord s s.law.pc) ∧ t.law.due = s.law.due ∧
  t.law.outNew = s.law.outNew ∧ t.law.outPorts = s.law.outPorts ∧ t.law.halted = s.law.halted

end Sys2Proof.Machine
end

