-- ==== Sys2Proof/WellFormed.lean ====
section
/-! DEFINITION. Well-formed commands: each field fits the width that its table gives, and each list has the length that the
hardware brings. -/

namespace Sys2Proof

open Sys2Proof.Machine

/-- A number fits a field of `w` bits. -/
def fits (w n : Nat) : Bool := decide (n < 2 ^ w)

/-- TAG and JOB of the table "Submission entry". -/
def MsgHdr.wf (h : MsgHdr) : Bool := fits 16 h.tag && fits 32 h.job

/-- Fields of COMPRESS and DECOMPRESS. -/
def SvcFields.wf (f : SvcFields) : Bool :=
  fits 64 f.src && fits 32 f.srcLen && fits 64 f.dst && fits 32 f.dstLen && fits 16 f.width && fits 24 f.firstLine

/-- A slot header is 64 bytes, or an unread slot none (R33). -/
def headerWf (b : List Byte) : Bool := b.length = 64 || b.isEmpty

/-- Eight stations, eight channels and four reference cells (table "Calibration items"). -/
def CalibMeas.wf (m : CalibMeas) : Bool :=
  m.tdc.length = 8 && m.tdc.all (fun x => x.1.length = 160) && m.isense.length = 8 &&
  m.isense.all (fun x => x.length = 8) && m.tref.length = 4

/-- Ring indices, serials and addresses of an enumeration (R386, R396). -/
def EnumReport.wf (r : EnumReport) : Bool :=
  r.controllers.all (fun c => decide (c.index < 32) && fits 32 c.tableCrc) && r.aliases.all (fun x => fits 12 x.1)

/-- 16 thermistors, 4 remote diodes and 6 sensors on the die (R364). -/
def SensorReadings.wf (r : SensorReadings) : Bool :=
  r.ntc.length = 16 && r.ntc.all (fits 16) && r.diode.length = 4 && r.die.length = 6

/-- Words of 32 bits and a 12-bit source (table "Ring slot"). -/
def Slot.wf (x : Slot) : Bool := fits 12 x.src && x.words.all (fits 32) && fits 32 x.crc

/-- Fields of a SEQ block. -/
def SeqBlock.wf (b : SeqBlock) : Bool := fits 8 b.command && fits 8 b.railSlot && fits 8 b.source && fits 8 b.target && fits 8 b.number

/-- A BAR2 access stays within its window of 256 MiB (R124). -/
def inLen (n : Nat) : Bool := decide (1 ≤ n ∧ n ≤ 2 ^ 28)

/-- Length of an upstream stage frame (R333). -/
def frameLen (b : List Byte) : Bool := decide (b.length = 38)

/-- A step is of the test that the command names, and its page, line, word or cells exist (table "Tests"). -/
def IstStep.wf (t : Fin 7) (x : IstStep) : Bool :=
  match x with
  | .lane _ _ _ => t = 0
  | .march p l _ _ => t = 1 && decide (p < 8192 ∧ l < 16384)
  | .word data i _ _ => t = 2 && decide (i < if data then 32768 else 65536)
  | .cell ppm => t = 3 && decide (ppm.length = 4)
  | .tdc _ _ _ _ => t = 4
  | .gate _ _ _ => t = 5
  | .port _ _ => t = 6

/-- The immediate pattern of MOV is neither NaN nor infinite (R328). -/
def immOk (a b : Nat) : Bool := fits 16 a && fits 16 b && decide (a / 128 % 256 < 255)

/-- Words of a block, with the bypass word of BYP. -/
def blockWords (n : Nat) (byp : Bool) : Nat := if byp then n + 1 else n

/-- The command is well formed. -/
def Instr.wf (i : Instr) : Bool :=
  match i with
  | .aonPowerOnReset _ _ _ | .otpShadowLoad | .crystalStart _ | .pllLockDeclared _ _ _ | .pllLockAttemptTimeout _ _ _ => true
  | .slotHeaderRead slot0 slot1 => headerWf slot0 && headerWf slot1
  | .signatureVerification _ | .sectionLoad _ _ _ | .powerUpSlot | .railPowerGood _ | .powerSeqTimeout _ => true
  | .powerUpCalibration m => m.wf
  | .ringEnumeration r => r.wf
  | .stageLinkTraining _ _ | .stageLinkRetrainTimer _ | .bootStepTimeout | .submissionQueueTailWrite _ _ => true
  | .completionQueueHeadWrite _ _ | .queueControlWrite _ _ => true
  | .entryTakeUp _ entry _ => decide (64 ≤ entry.length)
  | .completionWriteResumed _ | .coalesceTimerExpiry _ | .eventFifoDrain | .hostLinkReset _ | .d3hotEntry => true
  | .ident h buf len => h.wf && fits 64 buf && fits 32 len
  | .stateSet h target => h.wf && fits 8 target
  | .armingComplete | .armTimeout => true
  | .jobOpen h last stations vAdm quota => h.wf && fits 8 last && fits 8 stations && fits 16 vAdm && fits 32 quota
  | .jobClose h mode => h.wf && fits 8 mode
  | .framePut h src len rep base cycles bytes => h.wf && fits 64 src && fits 32 len && fits 32 rep && fits 32 base && fits 16 cycles && fits 16 bytes
  | .framePutRaw h src len rep base cycles bytes => h.wf && fits 64 src && fits 32 len && fits 32 rep && fits 32 base && fits 16 cycles && fits 16 bytes
  | .frameCommit job _ _ => fits 32 job
  | .quotaSet h quota => h.wf && fits 32 quota
  | .runStart h frames speed accel => h.wf && fits 32 frames && fits 16 speed && fits 16 accel
  | .runResume h speed accel => h.wf && fits 16 speed && fits 16 accel
  | .runEntry => true
  | .runModify h frames speed accel => h.wf && fits 32 frames && fits 16 speed && fits 16 accel
  | .runStop h => h.wf
  | .paramSet h space index _ => h.wf && fits 8 space && fits 16 index
  | .paramGet h space index => h.wf && fits 8 space && fits 16 index
  | .resultGet h kind buf len => h.wf && fits 8 kind && fits 64 buf && fits 32 len
  | .resultAck h kind => h.wf && fits 8 kind
  | .compress h f => h.wf && f.wf
  | .compressRun _ _ _ => true
  | .decompress h f => h.wf && f.wf
  | .decompressRun _ _ => true
  | .pageRetire h page => h.wf && fits 16 page
  | .migrationComplete _ => true
  | .logRead h log buf len => h.wf && fits 8 log && fits 64 buf && fits 32 len
  | .calibRead h buf len => h.wf && fits 64 buf && fits 32 len
  | .calibWrite h buf len _ => h.wf && fits 64 buf && fits 32 len
  | .consumableSync h _ => h.wf
  | .faultClear h => h.wf
  | .faultPinRelease h => h.wf
  | .faultPinPulseEnd | .stoInput _ _ | .estopInput _ _ | .pairWireFault _ | .pairReturnNormal _ | .fltPairChange _ _ _ => true
  | .engineEventInterruptWrite _ | .registerWrite _ _ _ | .bar0UnsupportedAccess _ _ _ | .anchorCount _ _ _ => true
  | .anchorZPulse _ | .eyeletAnchorReport _ _ | .anchorStale | .anchorOverspeed | .webStandstill | .ropeStandstill => true
  | .facetReferencePulse | .frameStart | .frameStarved => true
  | .cameraMarkReport _ frame _ _ => fits 24 frame
  | .regBaseWrite _ _ | .regOffsetWrite _ _ _ => true
  | .sosPulse _ _ cell fine => decide (cell < 160) && fits 32 fine
  | .sosWindowExpiry _ | .scanCrossWrite _ _ _ | .refLost | .clockMonitorWindow _ | .refReturn | .pllUnlock _ => true
  | .temperatureCompensationUpdate _ _ | .decodeLine _ _ | .scrubBurst _ | .scrubWriteBack | .mergeBufferFlush _ _ => true
  | .bar2Read _ len _ => inLen len
  | .bar2Write _ data => inLen data.length
  | .bar2BaseWrite _ | .spoilRecordPost | .wasteMarker | .wasteMinExpiry => true
  | .backLaneStatusFrame _ frame => decide (frame.length = 16)
  | .expoLinkLost _ | .laserEchoMismatch _ | .emitterTempStale _ | .expoLinkTraining _ _ | .interlockOpen _ => true
  | .laserEnableRise _ | .toneEntryWrite _ _ _ | .toneHoldWrite _ _ | .deadMaskWrite _ _ _ | .partnerConfigWrite _ _ => true
  | .spindleRunCommand _ | .spindleSenseTimeout _ | .alignTimeout _ => true
  | .zeroCrossing _ m => decide (0 < m.interval)
  | .zeroCrossingTimeout _ => true
  | .pwmPeriod _ m => fits 12 m.duty && fits 8 m.adv
  | .shortTimeout _ | .stopTimeout _ | .catchTimeout _ | .coastBackEmfTimeout _ | .spindleCommandSample _ _ => true
  | .spindleCommandEdge _ _ _ | .spindleCommandTimeout _ | .spDesat _ _ | .spOvercurrent _ | .spBootUv _ _ => true
  | .vcpUv _ | .vbusSpUv _ | .vbusSpOv _ | .rpsBlock _ _ | .baseSampleBoundary | .rampAxisTimeout _ => true
  | .inputWindowClose | .outputReserveStart => true
  | .ld _ dst a b => inRam dst 1 && inRam a 256 && inRam b 1
  | .st _ dst a b => inRam dst 256 && inRam a 1 && inRam b 1
  | .mov _ imm dst a b => inRam dst 1 && (if imm then immOk a b else inRam a 1 && b = 0)
  | .add _ dst a b => inRam dst 1 && inRam a 1 && inRam b 1
  | .sub _ dst a b => inRam dst 1 && inRam a 1 && inRam b 1
  | .mul _ dst a b => inRam dst 1 && inRam a 1 && inRam b 1
  | .mac _ dst a b => inRam dst 1 && inRam a 1 && inRam b 1
  | .abs _ dst a => inRam dst 1 && inRam a 1
  | .min _ dst a b => inRam dst 1 && inRam a 1 && inRam b 1
  | .max _ dst a b => inRam dst 1 && inRam a 1 && inRam b 1
  | .sel _ dst a b => inRam dst 1 && inRam a 1 && inRam b 1
  | .cmp _ _ dst a b => inRam dst 1 && inRam a 1 && inRam b 1
  | .brf _ _ a skip => inRam a 1 && decide (1 ≤ skip) && fits 16 skip
  | .lim _ byp dst a b => inRam dst 1 && inRam a 1 && inRam b (blockWords 2 byp)
  | .slew _ byp dst a b => inRam dst 1 && inRam a 1 && inRam b (blockWords 3 byp)
  | .lpf _ byp dst a b => inRam dst 1 && inRam a 1 && inRam b (blockWords 2 byp)
  | .biq _ byp dst a b => inRam dst 1 && inRam a 1 && inRam b (blockWords 7 byp)
  | .pi _ byp dst a b => inRam dst 1 && inRam a 1 && inRam b (blockWords 5 byp)
  | .intg _ byp dst a b => inRam dst 1 && inRam a 1 && inRam b (blockWords 4 byp)
  | .diff _ byp dst a b => inRam dst 1 && inRam a 1 && inRam b (blockWords 2 byp)
  | .clarke _ three dst a => inRam dst 2 && inRam a (if three then 3 else 2)
  | .park _ dst a b => inRam dst 2 && inRam a 2 && inRam b 2
  | .ipark _ dst a b => inRam dst 2 && inRam a 2 && inRam b 2
  | .sincos _ dst a => inRam dst 2 && inRam a 1
  | .svm _ dst a b => inRam dst 3 && inRam a 2 && inRam b 1
  | .obs _ dst a b => inRam dst 2 && inRam a 2 && inRam b 12
  | .hold _ dst a b => inRam dst 1 && inRam a 1 && inRam b 12
  | .share _ dst a ch => inRam dst 1 && inRam a 1 && fits 8 ch
  | .inp _ dst port => inRam dst 1 && inPort port
  | .out _ a port => inRam a 1 && outPort port
  | .endp _ | .lawControlWrite _ => true
  | .upstreamFrame _ frame _ => frameLen frame
  | .stageLost _ _ | .busAbsorbLost _ | .busTrip _ | .tensionLimit _ | .shareStale _ | .spliceEdge _ => true
  | .spliceWindowExpiry _ | .belaySlow | .coastTimeout | .ropeRemoteStop _ | .groupRemoteStop _ | .auxStart _ => true
  | .auxStop _ | .auxResume _ | .auxAbort _ | .auxStep _ | .auxFltInput _ | .auxProfileWrite _ _ => true
  | .sensorConversion r => r.wf
  | .zeroCrossEdge _ | .zeroCrossLost | .hvNodeLost _ => true
  | .ringPortTraining _ kind index port _ => fits 8 kind && fits 8 index && fits 8 port
  | .ringPortDown _ | .ringPortRetrainTimer _ | .slotLaunch => true
  | .slotReceive _ slot => slot.wf
  | .nodeLost _ | .tsReq _ _ _ _ | .tsRsp _ _ _ | .tsFup _ _ | .ringTime => true
  | .seq _ b => b.wf
  | .seqStepTimeout | .groupReady _ | .groupStart _ | .groupHalt _ | .groupHaltPosition | .groupTimeout => true
  | .powerFail _ _ _ _ | .cairnRecordWritten | .shutDownSlot | .railDischarged _ | .railDischargeTimeout _ => true
  | .railPowerGoodLoss _ | .powerReturnReset _ _ => true
  | .holdUpMeasurement us => decide (0 < us)
  | .holdupLow | .powerFailArming | .marginWrite _ | .trimStep _ | .pmbusError _ _ | .program _ | .read _ => true
  | .lockW _ _ | .lockR _ _ | .otpPulseEnd _ | .consumableSyncTimer | .tagSynchronisation _ _ | .tagPoll _ => true
  | .usageMirrorPersist | .lifetimeCounterPersist | .dmaStart _ | .dmaStop _ | .dmaResume _ | .dmaReset _ => true
  | .dmaTailWrite _ _ | .dmaConfigWrite _ _ | .move _ _ _ | .loop _ | .wait _ | .waitComplete _ | .signal _ => true
  | .scan _ _ _ | .jump _ | .dmaEnd _ | .nop _ | .dmaInstructionComplete _ _ | .checkUnitRunWrite _ _ => true
  | .istTestStep t x => x.wf t
  | .bypass | .idcode | .samplePreload | .extest | .extestPulse | .extestTrain | .clamp | .highz | .interlockClose _ => true
  | .vcpUvRelease _ | .vbusSpInhibitRelease _ | .vcpGood _ | .d3hotExit | .pmbAlertFall _ | .msixVectorUnmask _ => true
  | .auxFltRelease _ => true

end Sys2Proof
end

