-- ==== Sys2Proof/Certificates/Slice0/Obligations.lean ====
section
/-! DEFINITION. What is claimed of the model, for the provers: the queue and the tick, reset, what the commands of each
subject do, what they leave alone, and the invariants of every step. -/

open Sys2Proof Sys2Proof.Machine Sys2Proof.Bits

/-- A step takes the command at the front of the queue and runs it on the state with the queue's rest (log 7: the queue
is the model's own). -/
def Obligations.StepRunsFrontCommand : Prop :=
  ∀ (c : Instr) (rest : List Instr) (s : State),
    step { s with pending := c :: rest } = exec c { s with pending := rest }

/-- No command stops the block: each answers a next state in every state and leaves the queue of waiting commands as it was. The
engine state changes by the rows of the table "State transitions" (R24; which commands bring about a row is log 52's reading, the
transitions of one tick log 110's), and the fault collector by the commands that are not in the list of those that spare it. -/
def Obligations.CommandsAnswerAndKeepQueue : Prop :=
  ∀ (c : Instr) (s : State), ∃ t, exec c s = .next t ∧ t.pending = s.pending ∧
    (∀ x ∈ [EngState.boot, .idle, .service, .run], t.eng.state = x → s.eng.state = x ∨ fromState s = x ∨
      Instr.mayEnter c x = true) ∧
    (t.eng.state.press = true → s.eng.state.press = true ∨ (fromState s).press = true ∨ c = .armingComplete) ∧
    (s.eng.state = .down → movedNow s = false → s.willReset c = false → t.eng.state = .down) ∧
    (Instr.sparesFaults c = true → t.flt = s.flt) ∧ (Instr.sparesEngine c = true → t.eng = s.eng)

/-- The tick of an empty queue (log 9, a choice of the model): ring time and the ticks since power-on reset advance by
one, and nothing is taken from the queue. -/
def Obligations.IdleStepLetsTickPass : Prop :=
  ∀ s : State, s.pending = [] → s.flt.rearm = false → s.flt.evtTick = none → (∀ n : Fin 8, s.sp[n].turn = none) →
    (istOn s = false ∨ ∀ k : Fin 7, s.ist.test[k].running = false) → s.anch.eyeOn = false →
    ∃ t, step s = .next t ∧ t.eng.time = s.eng.time + 1 ∧ t.eng.sincePor = s.eng.sincePor + 1 ∧ t.pending = [] ∧
      t.eng.state = s.eng.state ∧ t.flt = s.flt ∧ t.host = s.host ∧ t.jobs = s.jobs ∧ t.store = s.store ∧ t.sp = s.sp ∧
      t.law = s.law ∧ t.stage = s.stage ∧ t.pwr = s.pwr ∧ t.otp = s.otp ∧ t.dma = s.dma ∧ t.ring = s.ring.steerTick ∧
      (t.anch.quiet = 0 ∨ t.anch.quiet = s.anch.quiet + 1) ∧ (t.anch.overTime = 0 ∨ t.anch.overTime = s.anch.overTime + 1)

/-- What reset leaves: the values that the register tables give, and an empty queue; the invariant of `CanonicalKept` holds. That the
raster store, the data RAM, the DMA program RAM and the OTP array list nothing, and the values of the internal state that the
tables do not name, are the model's choices (logs 2, 5, 6 and 53). -/
def Obligations.ResetState : Prop :=
  let s := State.reset
  s.eng.state = .boot ∧ s.eng.stop = .none ∧ s.boot.step = 1 ∧ s.boot.fail = .none ∧ s.flt.first = none ∧ s.flt.log = [] ∧
  s.pwr.en = 0 ∧ s.pwr.good = 0 ∧ s.store.pageLimit = 16 ∧ s.store.window = 3600 ∧ s.ist.en = 0x7F ∧ s.ist.berLim = 16 ∧
  s.ist.lapLim = 7200 ∧ (∀ n : Fin 8, s.sp[n].state = .off ∧ s.sp[n].gates = 0) ∧ (∀ n : Fin 8, s.il.lsr[n] = false) ∧
  (∀ L : Fin 8, s.stage[L].inh = true) ∧ (∀ p : Fin 16, s.aux[p].state = .idle) ∧ (∀ k : Fin 16, s.dma.ch[k].state = .idle) ∧
  s.store.mem = [] ∧ s.law.data = [] ∧ s.dma.ram = [] ∧ s.otp.cells = [] ∧ s.pending = [] ∧ State.canonical s

/-- An invariant of every step: the five tables of the state stay in canonical form, so that a write of what an unlisted
key reads as never leaves an entry behind. -/
def Obligations.CanonicalKept : Prop :=
  ∀ s t : State, s.canonical → step s = .next t → t.canonical

/-- Every byte of the raster store, and every word of the law engine's data RAM, is as before after a command that has no
access to it; reads of the store are named because they flush the merge buffer first (R106), and the ends of a burst because the
next channel is served then (R478). -/
def Obligations.StoreAndLawDataFrame : Prop :=
  ∀ (c : Instr) (s t : State), exec c s = .next t → (c = .cairnRecordWritten → s.pwr.resetOwed = none) →
    (Instr.mayChangeStore c = false → ∀ a, memGet t.store.mem a = memGet s.store.mem a) ∧
    (Instr.mayChangeLawData c = false → ∀ i, dget t i = dget s i)

/-- Web position and clocks under every command that neither resets, loads the image nor writes a register. -/
def Obligations.WebPositionFrame : Prop :=
  ∀ (c : Instr) (s t : State), s.willReset c = false → (∀ o w v, c ≠ .registerWrite o w v) →
    (∀ h p x, c ≠ .sectionLoad h p x) → exec c s = .next t →
    ((∀ n a b, c ≠ .anchorCount n a b) → (∀ k u, c ≠ .eyeletAnchorReport k u) →
      ((∀ n, c ≠ .anchorZPulse n) → c ≠ .anchorStale → c ≠ .anchorOverspeed → c ≠ .webStandstill → c ≠ .inputWindowClose →
        (∀ a b, c ≠ .slotHeaderRead a b) → (∀ b, c ≠ .signatureVerification b) → t.anch = s.anch) ∧
      (c ≠ .facetReferencePulse → (∀ n f a x, c ≠ .cameraMarkReport n f a x) → (∀ n a b f, c ≠ .sosPulse n a b f) →
        (∀ n, c ≠ .sosWindowExpiry n) → t.facet = s.facet)) ∧
    ((∀ n f a x, c ≠ .cameraMarkReport n f a x) → (∀ n v, c ≠ .regBaseWrite n v) → (∀ n b v, c ≠ .regOffsetWrite n b v) →
      (∀ q e r, c ≠ .entryTakeUp q e r) → (∀ h l st v q, c ≠ .jobOpen h l st v q) → c ≠ .runEntry →
      c ≠ .facetReferencePulse → (∀ f, c ≠ .groupStart f) → t.reg = s.reg) ∧
    (c ≠ .otpShadowLoad → (∀ b, c ≠ .crystalStart b) → (∀ i k u, c ≠ .pllLockDeclared i k u) →
      (∀ i k u, c ≠ .pllLockAttemptTimeout i k u) → (∀ a b, c ≠ .slotHeaderRead a b) →
      (∀ b, c ≠ .signatureVerification b) → c ≠ .refLost → (∀ n, c ≠ .clockMonitorWindow n) → c ≠ .refReturn →
      (∀ i, c ≠ .pllUnlock i) → (∀ a b, c ≠ .temperatureCompensationUpdate a b) → t.clk = s.clk)

/-- The DMA engine with its channels, check units and program RAM, DC buses, ropes, bridge supplies, consumables,
temperatures and the in-service test under every command that neither resets nor writes a register. -/
def Obligations.DmaDriveAndServiceFrame : Prop :=
  ∀ (c : Instr) (s t : State), s.willReset c = false → (∀ o w v, c ≠ .registerWrite o w v) → exec c s = .next t →
    (Instr.isDma c = false → (∀ k, c ≠ .hostLinkReset k) → c ≠ .facetReferencePulse → (∀ i, c ≠ .pllUnlock i) →
      c ≠ .baseSampleBoundary → t.dma = s.dma) ∧
    ((∀ k h e, c ≠ .move k h e) → (∀ k h e, c ≠ .scan k h e) → (∀ k, c ≠ .dmaStop k) →
      (∀ k x, c ≠ .dmaInstructionComplete k x) → t.dma.ram = s.dma.ram) ∧
    (c ≠ .baseSampleBoundary → c ≠ .inputWindowClose →
      ((∀ b, c ≠ .busAbsorbLost b) → (∀ b, c ≠ .busTrip b) → (∀ h, c ≠ .faultClear h) →
        (∀ q e r, c ≠ .entryTakeUp q e r) → t.bus = s.bus) ∧
      ((∀ r, c ≠ .tensionLimit r) → (∀ r, c ≠ .shareStale r) → (∀ i, c ≠ .spliceEdge i) →
        (∀ r, c ≠ .spliceWindowExpiry r) → t.rope = s.rope)) ∧
    ((∀ n m, c ≠ .pwmPeriod n m) → (∀ v, c ≠ .vcpUv v) → (∀ v, c ≠ .vbusSpUv v) → (∀ v, c ≠ .vbusSpOv v) →
      (∀ a b, c ≠ .rpsBlock a b) → (∀ v, c ≠ .vcpUvRelease v) → (∀ v, c ≠ .vbusSpInhibitRelease v) → t.spBus = s.spBus) ∧
    ((∀ k x, c ≠ .istTestStep k x) → t.ist = s.ist) ∧ ((∀ r, c ≠ .sensorConversion r) → t.therm = s.therm) ∧
    ((∀ h p x, c ≠ .sectionLoad h p x) → (∀ n a b, c ≠ .anchorCount n a b) → (∀ k u, c ≠ .eyeletAnchorReport k u) →
      (∀ u, c ≠ .zeroCrossEdge u) →
      c ≠ .consumableSyncTimer → (∀ i a, c ≠ .tagSynchronisation i a) → (∀ a, c ≠ .tagPoll a) → c ≠ .usageMirrorPersist →
      t.cons = s.cons)

/-- AON_POWER_ON_RESET and POWER_RETURN_RESET (R440, R504, R511): where the boot starts and what is kept. -/
def Obligations.PowerOnStartsBoot : Prop :=
  ∀ (straps : BitVec 5) (s : State),
    let booted (t : State) : Prop :=
      t.eng.state = .boot ∧ t.boot.step = 2 ∧ t.boot.fail = .none ∧ t.eng.time = 0 ∧ t.ring.index = straps.toNat ∧
      tab t.pwr.domain 9 0 = 2 ∧ tab t.pwr.domain 9 1 = 2 ∧ t.pwr.en = 0 ∧ t.law = Law.reset ∧ t.dma = Dma.reset ∧
      t.store = { Store.reset with retired := s.store.retired } ∧ t.otp.cells = s.otp.cells ∧ t.otp.wFuse = s.otp.wFuse ∧
      t.otp.rFuse = s.otp.rFuse ∧ t.pers.cairn = s.pers.cairn ∧ t.pers.cairnNext = s.pers.cairnNext ∧
      t.flt = { Faults.reset with sto := Pair.normal, estop := Pair.normal } ∧ t.eng = Engine.reset ∧ t.boot = { Boot.reset with step := 2 } ∧ t.host = HostIf.reset ∧
      t.jobs = Jobs.reset ∧ t.dec = each 8 Decoder.reset ∧ t.anch = Anchor.reset ∧ t.facet = Facet.reset ∧
      t.reg = each 8 RegStation.reset ∧ t.run = Run.reset ∧ t.clk = Clock.reset ∧ t.scan = each 8 Scan.reset ∧
      t.expo = each 8 Expo.reset ∧ t.sp = each 8 Spindle.reset ∧ t.spBus = SpBus.reset ∧ t.bus = each 4 DcBus.reset ∧
      t.rope = each 32 Rope.reset ∧ t.aux = each 16 Aux.reset ∧ t.therm = Therm.reset ∧ t.htr = Heaters.reset ∧
      t.hv = Hv.reset ∧ t.ist = Ist.reset ∧ t.tap = State.reset.tap ∧ t.ring = { Ring.reset with index := straps.toNat } ∧
      (∀ L : Fin 8, t.stage[L].inh = true ∧ t.stage[L].up = false ∧ t.stage[L].slot = StageLink.reset.slot) ∧ t.il = { Interlocks.reset with cover := each 8 false, web := false, jam := false }
    (s.pwr.writing = none →
      (∃ t, exec (.aonPowerOnReset true straps normalPins) s = .next t ∧ booted t) ∧
      (∀ pins, ∃ t, exec (.aonPowerOnReset false straps pins) s = .next t ∧ t.eng.state = .down ∧ t.otp.cells = s.otp.cells)) ∧
    (∀ d, s.pwr.down = some d → d.done = true → d.origin = .powerFail → d.endTick + 10000000 ≤ s.eng.time →
      (∃ v, s.pwr.vcpSince = some v ∧ v + 1000000 ≤ s.eng.time) →
      ∃ t, exec (.powerReturnReset straps normalPins) s = .next t ∧ booted t)

/-- OTP_SHADOW_LOAD, CRYSTAL_START, PLL_LOCK_DECLARED, PLL_LOCK_ATTEMPT_TIMEOUT and SLOT_HEADER_READ in their boot steps
(R41, R193, R197, R450, R452). -/
def Obligations.EarlyBootSteps : Prop :=
  ∀ s : State, s.eng.state = .boot →
    (s.boot.step = 2 → ∃ t, exec .otpShadowLoad s = .next t ∧ t.boot.step = 3 ∧ tab t.pwr.domain 0 9 = 2 ∧
      t.otp.shadow = (s.otp.cells.map fun x => (x.1, x.2.nominal)).filter fun x => x.2 != 0) ∧
    (s.boot.step = 3 → ∃ t, exec (.crystalStart true) s = .next t ∧ t.boot.step = 4 ∧ t.clk.refOk = true ∧ t.flt = s.flt) ∧
    (s.boot.step = 4 → s.clk.pll[0].locked = false → s.flt.active.has 0x032 = false → ∀ counts us,
      ((bandSearch counts).2 = false → ∃ t, exec (.pllLockDeclared 0 counts us) s = .next t ∧ t.boot.step = 5 ∧
        t.clk.pll[0].locked = true ∧ t.clk.pll[0].band = (bandSearch counts).1 ∧ t.flt = s.flt) ∧
      (s.clk.pll[0].attempts < 2 → ∃ t, exec (.pllLockAttemptTimeout 0 counts us) s = .next t ∧ t.boot.step = 4 ∧
        t.clk.pll[0].attempts = s.clk.pll[0].attempts + 1 ∧ t.clk.pll[0].locked = false ∧ t.flt = s.flt)) ∧
    (s.boot.step = 5 → bit (overrides s) 2 = false → ∀ h0 h1, headerOk h0 = true → headerOk h1 = true →
      regionInvalid s 5 = false → secureBoot s = true →
      ∃ t, exec (.slotHeaderRead h0 h1) s = .next t ∧ t.boot.step = 6 ∧ t.boot.slot = (if u32 h0 28 < u32 h1 28 then 1 else 0) ∧
        t.boot.fallback = s.boot.fallback ∧ t.boot.fellBack = false ∧ t.flt = s.flt)

/-- SIGNATURE_VERIFICATION and SECTION_LOAD where every check passes (R43, R46, R526). -/
def Obligations.ImageStepsLoad : Prop :=
  ∀ s : State, s.eng.state = .boot →
    (s.boot.step = 6 → ∀ image pos d, findSignature image (imageLen s) 262144 64 0 [] = .inl pos →
      checkSignature s image pos = .inl d →
      ∃ t, exec (.signatureVerification image) s = .next t ∧ t.boot.step = 7 ∧ t.boot.signed = true ∧
        t.boot.digest = some d ∧ t.boot.walkPos = 64 ∧ t.boot.sections = []) ∧
    (s.boot.step = 7 → ∀ h p pad, sectionHeader h s.boot.walkPos s.boot.walkCount (imageLen s) s.boot.seen = none →
      imageChanged s h = false → sectionBody s h p pad = none →
      s.boot.walkPos + 16 + padded p.length ≠ imageLen s →
      ∃ t, exec (.sectionLoad h p pad) s = .next t ∧ t.boot.sections = s.boot.sections ++ [{ ty := byteAt h 0, bytes := p }] ∧
        t.boot.walkPos = s.boot.walkPos + 16 + padded p.length ∧ t.boot.walkCount = s.boot.walkCount + 1 ∧
        t.boot.seen = byteAt h 0 :: s.boot.seen)

/-- POWER_UP_CALIBRATION, RING_ENUMERATION, STAGE_LINK_TRAINING and STAGE_LINK_RETRAIN_TIMER (R57, R332, R396; enumeration in two
commands is log 121). A power failure of
the same tick keeps the state (R29, log 110). -/
def Obligations.LateBootSteps : Prop :=
  ∀ s : State,
    (s.eng.state = .boot → s.boot.step = 9 → ∀ m, (∀ i < 17, (calibFresh m i).isSome = true) →
      ∃ t, exec (.powerUpCalibration m) s = .next t ∧ t.boot.step = 10 ∧ t.boot.calib = calibRecord s m ∧
        t.boot.calibFail = s.boot.calibFail ∧ t.flt = s.flt) ∧
    (s.eng.state = .boot → s.boot.step = 10 → s.ring.timeSet = none → ∀ r, let q := EnumReport.through s r
      enumFails (setRingTime q s) q = none → enumMissing (noteSerials q (noteNodes q (setRingTime q s))) q = false →
      ∃ t, exec (.ringEnumeration r) s = .next t ∧ t.ring.enumDone = true ∧ t.ring.timeSet = some 0 ∧ t.flt = s.flt ∧
        (s.img.controllers ≤ 1 → tab t.boot.ends 0 9 = s.eng.sincePor / 100 % 2 ^ 32 ∧ t.boot.step ≠ 10) ∧
        (1 < s.img.controllers → t.boot.step = 10)) ∧
    (s.eng.state = .boot → s.boot.step = 10 → ∀ n, s.ring.timeSet = some n → ∀ r,
      (n < 64 → exec (.ringEnumeration r) s = .next s) ∧
      (64 ≤ n → (s.ring.timeMaster = true ∨ s.ring.synced = true) → ∃ t, exec (.ringEnumeration r) s = .next t ∧
        tab t.boot.ends 0 9 = s.eng.sincePor / 100 % 2 ^ 32 ∧ t.flt = s.flt) ∧
      (64 ≤ n → s.ring.timeMaster = false → s.ring.synced = false → collectorOn s = true →
        ∃ t, exec (.ringEnumeration r) s = .next t ∧ t.boot.fail = .ringEnum ∧ t.boot.item = s.ring.index ∧
          (powerFails s = false → t.eng.state = .safe))) ∧
    (∀ L : Fin 8, s.eng.state ≠ .boot → s.stage[L].training = true → ∀ r : TrainReport,
      r.good = 64 → r.worstNs + 100 ≤ s.img.tIn → r.pwmSync = true →
      ∃ t, exec (.stageLinkTraining L r) s = .next t ∧ t.stage[L].up = true ∧ t.stage[L].training = false ∧
        (∀ M : Fin 8, M ≠ L → t.stage[M] = s.stage[M]) ∧ t.flt = s.flt ∧ t.eng = s.eng) ∧
    (∀ L : Fin 8, (s.eng.state = .idle ∨ s.eng.state = .armed) → s.img.linkUse L ≠ 0 → s.stage[L].up = false →
      s.stage[L].training = false →
      ∃ t, exec (.stageLinkRetrainTimer L) s = .next t ∧ t.stage[L].training = true ∧
        (∀ k : Fin 2, t.stage[L].slot[k].mode = 0 ∧ t.stage[L].slot[k].en = false) ∧
        (∀ M : Fin 8, M ≠ L → t.stage[M] = s.stage[M]) ∧ t.eng = s.eng)

/-- BOOT_STEP_TIMEOUT, CRYSTAL_START without a crystal and POWER_SEQ_TIMEOUT: each fails the boot (R52), and the shut-down
sequence that follows goes on with the engine in SAFE. That BOOT_STEP_TIMEOUT in steps 6 and 7 ends the boot without the fall-back
of R42 is the model's reading (log 101). A power failure of
the same tick keeps the state (R29, log 110). -/
def Obligations.BootFailureEntersSafe : Prop :=
  ∀ s : State, s.eng.state = .boot → collectorOn s = true →
    let failed (f : BootFail) (item : Nat) (t : State) : Prop :=
      t.boot.fail = f ∧ t.boot.item = item ∧ t.flt.pinLow = true ∧ t.flt.sticky.has 0x001 = true ∧ t.pers.cairn = s.pers.cairn ∧
      (powerFails s = false → t.eng.state = .safe ∧ t.eng.bootFail = true ∧
        (s.pwr.en ≠ 0 → ∃ d, t.pwr.down = some d ∧ d.cause = .bootFail)) ∧
      (powerFails s = true → t.eng.state = .boot ∧ t.pwr.down = s.pwr.down)
    (∃ t, exec .bootStepTimeout s = .next t ∧ failed .stepTimeout s.boot.step t) ∧
    (s.boot.step = 3 → ∃ t, exec (.crystalStart false) s = .next t ∧ failed .xtal 0 t) ∧
    (∀ (n : Fin 12) u, s.pwr.up = some u → u.enabled = true → s.img.onSlot n = u.slot → s.img.railUse n = true →
      s.img.pgMode n ≠ 0 → s.pwr.en.getLsbD n = true → s.pwr.good.getLsbD n = false →
      ∃ t, exec (.powerSeqTimeout n) s = .next t ∧ failed .powerSeq n t)

/-- POWER_UP_SLOT, RAIL_POWER_GOOD, POWER_SEQ_TIMEOUT, SHUT_DOWN_SLOT and RAIL_DISCHARGED where nothing else is waited for (R431, R434,
R436, R438; the comparisons with PG_LEVEL and DIS_LEVEL by log 116). -/
def Obligations.RailSequence : Prop :=
  ∀ s : State,
    (s.eng.state = .boot → s.boot.step = 8 → isSlave s = false →
      (s.pwr.up = none → slotsReady s = true → tab s.pwr.domain 0 4 ≠ 2 →
        s.img.holdCMin ≤ s.pwr.cMeas →
        ∃ t, exec .powerUpSlot s = .next t ∧ t.pwr.up = some { slot := 0, compared := true, enabled := true, acks := 0, owed := none } ∧
          (∀ n : Fin 12, t.pwr.en.getLsbD n = (s.pwr.en.getLsbD n || (s.img.railUse n && s.img.onSlot n = 0))) ∧
          t.pwr.good = s.pwr.good ∧ t.flt = s.flt) ∧
      (∀ u, s.pwr.up = some u → upSlotDone s u = true →
        (u.slot + 1 < s.img.slots →
          ∃ t, exec .powerUpSlot s = .next t ∧
            t.pwr.up = some { slot := u.slot + 1, compared := true, enabled := true, acks := 0, owed := u.owed } ∧
            (∀ n : Fin 12, t.pwr.en.getLsbD n = (s.pwr.en.getLsbD n || (s.img.railUse n && s.img.onSlot n = u.slot + 1))) ∧
            t.pwr.good = s.pwr.good ∧ t.flt = s.flt) ∧
        (s.img.slots ≤ u.slot + 1 →
          ∃ t, exec .powerUpSlot s = .next t ∧ t.pwr.up = none ∧ t.pwr.en = s.pwr.en ∧
            ∀ d ∈ [2, 3, 4, 5, 7, 8], tab t.pwr.domain 0 d = 2))) ∧
    (s.eng.state = .boot → s.boot.step = 8 → s.pwr.up = none →
      (slotsReady s = false → exec .powerUpSlot s = .next s) ∧
      (slotsReady s = true → isSlave s = true → tab s.pwr.domain 0 4 ≠ 2 → s.img.holdCMin ≤ s.pwr.cMeas →
        exec .powerUpSlot s = .next (s.modPwr fun p =>
          { p with up := some { slot := 0, compared := true, enabled := false, acks := 0, owed := none } }))) ∧
    (∀ (n : Fin 12) u, s.eng.state = .boot → s.pwr.up = some u → u.enabled = true → u.owed = none → s.img.onSlot n = u.slot →
      s.img.railUse n = true → s.pwr.en.getLsbD n = true → s.pwr.good.getLsbD n = false → s.img.pgMode n = 0 →
      ∃ t, exec (.powerSeqTimeout n) s = .next t ∧ (∀ k : Fin 12, t.pwr.good.getLsbD k = (s.pwr.good.getLsbD k || k = n)) ∧
        t.eng = s.eng ∧ t.flt = s.flt ∧ t.boot = s.boot) ∧
    (∀ n : Fin 12, s.img.railUse n = true → s.pwr.en.getLsbD n = true →
      (s.img.pgMode n ≠ 0 ∨ railAfter s n (s.img.pgTmo n) = true) → ∃ t, exec (.railPowerGood n) s = .next t ∧ (∀ k : Fin 12, t.pwr.good.getLsbD k = (s.pwr.good.getLsbD k || k = n)) ∧
        t.pwr.en = s.pwr.en ∧ t.flt = s.flt) ∧
    (∀ d, s.pwr.down = some d → d.done = false → s.pwr.writing = none → d.cause ≠ .masterStep →
      (d.begun = false → d.slot < s.img.slots →
        ∃ t e, exec .shutDownSlot s = .next t ∧ t.pwr.down = some e ∧ e.slot = d.slot ∧ e.begun = true ∧ e.cause = d.cause ∧
          (∀ n : Fin 12, t.pwr.en.getLsbD n = (s.pwr.en.getLsbD n && !(s.img.railUse n && s.img.offSlot n = d.slot))) ∧
          t.eng.state = s.eng.state) ∧
      (downSlotDone s d = true → s.img.slots ≤ d.slot + 1 → d.cause ≠ .bootFail →
        ∃ t e, exec .shutDownSlot s = .next t ∧ t.pwr.down = some e ∧ e.done = true ∧ e.endTick = s.eng.time ∧
          tab t.pwr.domain 0 6 = 0 ∧ tab t.pwr.domain 0 9 = 0 ∧ tab t.pwr.domain 0 1 = 0 ∧ t.pwr.en = s.pwr.en)) ∧
    (∀ (n : Fin 12) d, s.pwr.down = some d → d.done = false → s.pwr.en.getLsbD n = false →
      (railSensed s n = true ∨ railAfter s n (s.img.disTmo n) = true) → ∃ t e, exec (.railDischarged n) s = .next t ∧ t.pwr.down = some e ∧ e.slot = d.slot ∧
        (∀ k : Fin 12, e.wait.getLsbD k = (d.wait.getLsbD k && k ≠ n)) ∧
        (∀ k : Fin 12, t.pwr.good.getLsbD k = (s.pwr.good.getLsbD k && k ≠ n)) ∧ t.pwr.en = s.pwr.en)

/-- RAIL_DISCHARGE_TIMEOUT, RAIL_POWER_GOOD_LOSS, HOLDUP_LOW and PMBUS_ERROR (R434, R439, R444, R445). -/
def Obligations.PowerFaults : Prop :=
  ∀ s : State, collectorOn s = true →
    (∀ (n : Fin 12) d, s.pwr.down = some d → d.done = false → d.begun = true → d.wait.getLsbD n = true →
      s.img.offSlot n ≤ d.slot → s.img.railUse n = true → s.img.pgMode n = 2 →
      ∃ t, exec (.railDischargeTimeout n) s = .next t ∧ t.pwr.noDischarge.getLsbD n = true ∧ t.flt.sticky.has 0x013 = true ∧
        t.pwr.good.getLsbD n = false) ∧
    (∀ n : Fin 12, s.img.railUse n = true → s.pwr.good.getLsbD n = true → s.pwr.down = none → s.pwr.up = none →
      s.pwr.en.getLsbD n = true →
      ∃ t, exec (.railPowerGoodLoss n) s = .next t ∧ t.pwr.good.getLsbD n = false ∧ t.flt.sticky.has 0x011 = true) ∧
    (∃ t, exec .holdupLow s = .next t ∧ t.pwr.low = true ∧ t.flt.sticky.has 0x014 = true) ∧
    (∀ addr : BitVec 7,
      (∃ t, exec (.pmbusError 0 addr) s = .next t ∧ t.pwr.pmbAddr = addr.toNat ∧ t.pwr.nacks = min (s.pwr.nacks + 1) 255 ∧
        t.pwr.pecErr = s.pwr.pecErr ∧ t.flt.sticky.has 0x015 = true) ∧
      (∃ t, exec (.pmbusError 1 addr) s = .next t ∧ t.pwr.pmbAddr = addr.toNat ∧ t.pwr.pecErr = min (s.pwr.pecErr + 1) 255 ∧
        t.pwr.nacks = s.pwr.nacks ∧ t.flt.sticky.has 0x015 = true) ∧
      (∃ t, exec (.pmbusError 2 addr) s = .next t ∧ t.pwr.pmbAlert = true ∧ t.pwr.nacks = s.pwr.nacks ∧
        t.pwr.pecErr = s.pwr.pecErr ∧ t.flt.sticky.has 0x015 = true))

/-- POWER_FAIL and CAIRN_RECORD_WRITTEN (R446, R447; the lifetime counter by log 13, the reset that follows by log 16, a record
in the shut-down sequence of a boot failure by log 82). -/
def Obligations.PowerFailureEndsInDown : Prop :=
  ∀ s : State,
    (∀ vcpLow vddLow vcp vdd, collectorOn s = true → s.pwr.armed = true → s.pwr.writing = none → s.eng.state ≠ .down →
      ((vcpLow = true ∧ s.pwr.vcpGood = true) ∨ vddLow = true) →
      ∃ t, exec (.powerFail vcpLow vddLow vcp vdd) s = .next t ∧ t.pwr.writing.isSome = true ∧ t.pwr.en = 0 ∧ t.pwr.up = none ∧
        t.pwr.vcp = vcp ∧ t.pwr.vdd = some vdd ∧ t.flt.sticky.has 0x010 = true ∧ (∀ n : Fin 8, t.sp[n].gates = 0) ∧
        (∀ L : Fin 8, t.stage[L].inh = true) ∧ (∀ n : Fin 8, t.il.lsr[n] = false) ∧ t.pers = s.pers) ∧
    (∀ r, s.pwr.writing = some r →
      ∃ t, exec .cairnRecordWritten s = .next t ∧ t.pwr.writing = none ∧ t.eng.state = .down ∧ tab t.pwr.domain 2 1 = 0 ∧
        (∀ straps, s.pwr.resetOwed = some straps → t.pwr = Power.reset ∧ t.ring.index = straps.toNat ∧ t.otp.cells = s.otp.cells) ∧
        t.pers.cairn = (writeCairn r s).pers.cairn ∧ t.pers.life[1] = min (s.pers.life[1] + 1) (2 ^ 64 - 1) ∧
        (s.pwr.resetOwed = none → t.pwr.down.isSome = true))

/-- HOLD_UP_MEASUREMENT, POWER_FAIL_ARMING, VCP_GOOD, MARGIN_WRITE, TRIM_STEP and PMB_ALERT_FALL (R431, R432, R444 to R446). -/
def Obligations.SupplyRegisters : Prop :=
  ∀ s : State,
    (∀ us, s.pwr.cMeas = 0 →
      exec (.holdUpMeasurement us) s = .next (s.modPwr fun p => { p with cMeas := min 1000 (us / 8), vhold := 80 })) ∧
    (2 < s.boot.step → exec .powerFailArming s =
      .next (s.modPwr fun p => { p with armed := true, vhold := max 80 (min 255 (p.vcp - 3)) })) ∧
    (∀ dV, s.img.pfVcp + 3 < dV → ∃ t, exec (.vcpGood dV) s = .next t ∧ t.pwr.vcpGood = true ∧ t.pwr.vcp = dV ∧
      vcpNow t = true ∧ t.pwr.vhold = min 255 (dV - 3) ∧ t.pwr.en = s.pwr.en ∧ t.eng = s.eng) ∧
    (∀ dV, dV ≤ s.img.pfVcp + 3 → ∃ t, exec (.vcpGood dV) s = .next t ∧ vcpNow t = false ∧ t.pwr.vcpSince = none ∧
      t.pwr.vcpGood = s.pwr.vcpGood) ∧
    (∀ value : Word, regOpen 0 s = true → (s.eng.state = .idle ∨ s.eng.state = .service) →
      ∃ t, exec (.marginWrite value) s = .next t ∧ t.pwr.en = s.pwr.en ∧ t.pwr.good = s.pwr.good ∧ t.eng = s.eng ∧
        ∀ n : Fin 12, t.pwr.margin[n] = (if field value.toNat (2 * n + 1) (2 * n) = 3 then s.pwr.margin[n]
          else field value.toNat (2 * n + 1) (2 * n))) ∧
    (∀ k : Fin 4, ∃ t, exec (.trimStep k) s = .next t ∧ (∀ j : Fin 4, j ≠ k → t.pwr.trim[j] = s.pwr.trim[j]) ∧
      t.pwr.trim[k] = (if s.pwr.trim[k] < s.pwr.trimTo[k] then s.pwr.trim[k] + 1
        else if s.pwr.trimTo[k] < s.pwr.trim[k] then s.pwr.trim[k] - 1 else s.pwr.trim[k]) ∧ t.eng = s.eng) ∧
    (∀ st, ∃ t, exec (.pmbAlertFall st) s = .next t ∧ t.pwr.pmbAlert = true ∧
      t.pwr.pmbLog = s.pwr.pmbLog ++ st.map (fun x => (x.1.toNat, x.2.toNat)) ∧ t.eng = s.eng ∧ t.flt = s.flt)

/-- SUBMISSION_QUEUE_TAIL_WRITE, COMPLETION_QUEUE_HEAD_WRITE and QUEUE_CONTROL_WRITE (R65, R66). -/
def Obligations.HostQueueWrites : Prop :=
  ∀ (s : State) (q : Fin 8) (v : Word), barOpen s = true →
    (s.host.q[q].enable = false →
      exec (.submissionQueueTailWrite q v) s = .next s ∧ exec (.completionQueueHeadWrite q v) s = .next s) ∧
    (s.host.q[q].enable = true → field v.toNat 11 0 ≤ s.host.q[q].size →
      exec (.submissionQueueTailWrite q v) s = .next (modQ q (fun x => { x with sqTail := field v.toNat 11 0 }) s) ∧
      exec (.completionQueueHeadWrite q v) s = .next (modQ q (fun x => { x with cqHead := field v.toNat 11 0 }) s)) ∧
    (s.host.q[q].enable = true → s.host.q[q].size < field v.toNat 11 0 → collectorOn s = true →
      ∃ t, exec (.submissionQueueTailWrite q v) s = .next t ∧ t.host.q[q].sqTail = s.host.q[q].sqTail ∧
        t.host.q[q].dbErr = true ∧ t.flt.sticky.has 0x1F0 = true) ∧
    (s.host.q[q].enable = false → bit v.toNat 0 = true → field v.toNat 15 4 ≠ 0 →
      ∃ t, exec (.queueControlWrite q v) s = .next t ∧ t.host.q[q].enable = true ∧ t.host.q[q].halted = false ∧
        t.host.q[q].size = field v.toNat 15 4 ∧ t.host.q[q].vector = field v.toNat 21 16 ∧
        t.host.q[q].irqEn = bit v.toNat 22 ∧ t.host.q[q].coalesce = field v.toNat 31 24 ∧ t.host.q[q].sqHead = 0 ∧
        t.host.q[q].sqTail = 0 ∧ t.host.q[q].cqHead = 0 ∧ t.host.q[q].cqWr = 0 ∧ t.host.q[q].phase = true ∧
        (∀ p : Fin 8, p ≠ q → t.host.q[p] = s.host.q[p]) ∧ t.jobs = s.jobs ∧ t.flt = s.flt) ∧
    (s.host.q[q].enable = false → bit v.toNat 0 = true → field v.toNat 15 4 = 0 →
      exec (.queueControlWrite q v) s = .next s) ∧
    (s.host.q[q].enable = true → bit v.toNat 0 = false → s.jobs.frames = [] →
      ∃ t, exec (.queueControlWrite q v) s = .next t ∧ t.host.q[q].enable = false ∧ t.host.q[q].halted = false ∧
        t.host.q[q].waiting = [] ∧ t.host.q[q].epoch = s.host.q[q].epoch + 1 ∧
        (∀ p : Fin 8, p ≠ q → t.host.q[p] = s.host.q[p]) ∧ t.eng = s.eng)

/-- ENTRY_TAKE_UP (R64, R67, R68, R71, R73; log 69 for the room an entry needs, log 18 for the RESULT of a rejection). -/
def Obligations.EntryTakeUpServesItsQueue : Prop :=
  ∀ (s : State) (q : Fin 8) (e : List Byte),
    (takeUpDue s q = true → entryRoom s q e = true →
      (∃ t, exec (.entryTakeUp q e .ok) s = .next t ∧ t.host.turn = q ∧ t.host.taken = some s.now ∧
        t.host.q[q].sqHead = (s.host.q[q].sqHead + 1) % s.host.q[q].entries) ∧
      (entryMessage q e = none →
        ∃ t r, exec (.entryTakeUp q e .ok) s = .next t ∧ t.eng = s.eng ∧ t.jobs = s.jobs ∧ t.flt = s.flt ∧
          (hasRoom q s = true → s.answered t (entryHdr q e true) .opcode false r) ∧
          (hasRoom q s = false → t.host.q[q].waiting = s.host.q[q].waiting ++
            [{ tag := u16 e 2, status := .opcode, rep := false, more := false, event := false, result := r, time := s.now }])) ∧
      (∀ c, entryMessage q e = some c → exec (.entryTakeUp q e .ok) s = exec c (noteTaken q s)) ∧
      (byteAt e 0 = 0x01 → ∃ t, exec (.entryTakeUp q e .ok) s = .next t ∧
        exec (.ident (entryHdr q e (entryClean e 0x01 [(8, 12)])) (le e 8 8) (u32 e 16)) (noteTaken q s) = .next t ∧
        t.host.turn = q ∧ t.host.q[q].sqHead = (s.host.q[q].sqHead + 1) % s.host.q[q].entries)) ∧
    (takeUpDue s q = true → entryRoom s q e = false →
      exec (.entryTakeUp q e .ok) s = .next (modQ q (fun x => { x with head := some (entryNeed e) }) s)) ∧
    (takeUpDue s q = true → collectorOn s = true → ∀ r, r ≠ .ok →
      ∃ t, exec (.entryTakeUp q e r) s = .next t ∧ t.host.q[q].fetchErr = true ∧ t.host.q[q].halted = true ∧
        t.host.q[q].sqHead = s.host.q[q].sqHead ∧ t.flt.sticky.has 0x1F2 = true) ∧
    (∀ r, s.host.d3hot = true → exec (.entryTakeUp q e r) s = .next s)

/-- COMPLETION_WRITE_RESUMED, COALESCE_TIMER_EXPIRY and EVENT_FIFO_DRAIN (R68 to R70, R72; log 107 for the TIME of EVT_LOST). -/
def Obligations.CompletionsAndEventsAreWritten : Prop :=
  ∀ (s : State) (q : Fin 8),
    (∀ c r, s.host.q[q].waiting = c :: r → s.host.q[q].enable = true → 0 < s.host.q[q].freeSlots →
      s.host.d3hot = false → hostUp s = true → eventFirst q s = false →
      ∃ t, exec (.completionWriteResumed q) s = .next t ∧ t.host.q[q].waiting = r ∧
        t.host.out = s.host.out ++ [{ addr := s.host.q[q].cqBase + 16 * s.host.q[q].cqWr, data := c.bytes s.host.q[q].phase }] ∧
        t.host.q[q].cqWr = (s.host.q[q].advance).cqWr ∧ t.host.q[q].phase = (s.host.q[q].advance).phase ∧
        t.host.q[q].unsignalled = (s.host.q[q].coalesce != 0) ∧ t.jobs = s.jobs ∧ t.eng = s.eng ∧ t.flt = s.flt) ∧
    (s.host.q[q].unsignalled = true → hostUp s = true → s.host.q[q].irqEn = true →
      s.host.msixMask.getLsbD (s.host.q[q].vector % 64) = false →
      ∃ t, exec (.coalesceTimerExpiry q) s = .next t ∧ t.host.q[q].unsignalled = false ∧
        t.host.msix = s.host.msix ++ [Fin.ofNat 64 s.host.q[q].vector] ∧ t.host.out = s.host.out ∧ t.jobs = s.jobs ∧
        t.eng = s.eng ∧ t.flt = s.flt) ∧
    (s.host.evt.enable = true → slotFree s.host.evt.cq s = true → s.host.evt.dropped = 0 → ∀ c, s.host.evt.fifo = [c] →
      (∀ d ∈ s.host.q[s.host.evt.cq].waiting.head?, c.time ≤ d.time) →
      ∃ t, exec .eventFifoDrain s = .next t ∧ t.host.evt.fifo = [] ∧ t.host.out = s.host.out ++
        [{ addr := s.host.q[s.host.evt.cq].cqBase + 16 * s.host.q[s.host.evt.cq].cqWr
           data := c.bytes s.host.q[s.host.evt.cq].phase }] ∧ t.eng = s.eng ∧ t.flt = s.flt) ∧
    (s.host.evt.enable = true → slotFree s.host.evt.cq s = true → s.host.q[s.host.evt.cq].waiting = [] →
      0 < s.host.evt.dropped → s.host.evt.mask.getLsbD 6 = true →
      ∃ t, exec .eventFifoDrain s = .next t ∧ t.host.evt.dropped = 0 ∧
        ({ addr := s.host.q[s.host.evt.cq].cqBase + 16 * s.host.q[s.host.evt.cq].cqWr
           data := ({ eventEntry .evtLost (min s.host.evt.dropped 0xFFFFFF) s with
              time := (s.host.evt.fifo.head?.map (·.time)).getD s.now } : Completion).bytes s.host.q[s.host.evt.cq].phase } :
          HostWrite) ∈ t.host.out)

/-- HOST_LINK_RESET, D3HOT_ENTRY, D3HOT_EXIT and MSIX_VECTOR_UNMASK (R62 to R64, R507; log 20 for the kinds of reset, log 4 for
the mask of all ones). -/
def Obligations.HostLinkResetAndPower : Prop :=
  ∀ s : State, hostUp s = true →
    (∀ k, collectorOn s = true → ∃ t, exec (.hostLinkReset k) s = .next t ∧ t.flt.sticky.has 0x1F1 = true ∧
      (∀ q : Fin 8, t.host.q[q].enable = false ∧ t.host.q[q].waiting = [] ∧ t.host.q[q].sqTail = 0) ∧
      t.host.d3hot = false ∧ t.host.msixMask = BitVec.allOnes 64 ∧ (∀ c : Fin 16, t.dma.ch[c].hostOut = none) ∧
      ((∀ f ∈ s.jobs.frames, f.committed = true) → codeOf s 0x1F1 0 < 2 → t.jobs = s.jobs)) ∧
    exec .d3hotEntry s = .next (s.modHost fun h => { h with d3hot := true }) ∧
    exec .d3hotExit s = .next (s.modHost fun h => { h with d3hot := false }) ∧
    (barOpen s = true → ∀ v : Fin 64, ∃ t, exec (.msixVectorUnmask v) s = .next t ∧
      t.host.msixMask.getLsbD v = false ∧ t.host.msixPend.getLsbD v = false ∧
      (∀ w : Fin 64, w ≠ v → t.host.msixMask.getLsbD w = s.host.msixMask.getLsbD w ∧
        t.host.msixPend.getLsbD w = s.host.msixPend.getLsbD w) ∧
      t.host.msix = s.host.msix ++ (if s.host.msixPend.getLsbD v then [v] else []) ∧ t.host.q = s.host.q ∧ t.eng = s.eng)

/-- IDENT, STATE_SET, ARMING_COMPLETE and ARM_TIMEOUT (R24 to R26, R75; RESULT of a rejection by log 18). -/
def Obligations.ControlMessages : Prop :=
  ∀ (s : State),
    (∀ h, s.takes h → h.job = 0 →
      (∀ buf len, inAny s = true → 64 ≤ len → ∃ t, exec (.ident h buf len) s = .next t ∧ s.answered t h .ok false 0 ∧
        ({ addr := buf, data := identBlock s } : HostWrite) ∈ t.host.out ∧
        t.jobs.resIdent = some { bytes := identBlock s, returned := false } ∧ t.eng = s.eng ∧ t.flt = s.flt) ∧
      (s.eng.state = .idle → s.eng.setReq = none →
        (∃ t, exec (.stateSet h 8) s = .next t ∧ s.answered t h .ok false 8 ∧ t.eng.state = .service ∧ t.eng.prev = .idle ∧
          t.eng.cause = 0x01 ∧ t.eng.stateTick = s.eng.time ∧ t.eng.evStateChg = true ∧ t.eng.setReq = none) ∧
        (s.law.prgBad = false → s.law.stop = false →
          ∃ t, exec (.stateSet h 3) s = .next t ∧ t.eng.state = .idle ∧ t.eng.target = some .armed ∧
            t.eng.setReq = some (msgRef h s) ∧ t.host.out = s.host.out ∧ t.flt = s.flt) ∧
        (∃ t, exec (.stateSet h 5) s = .next t ∧ t.eng = s.eng ∧
          ∃ r, s.answered t h .state false r)) ∧
      (∀ k, 8 < k → inAny s = true → ∃ t, exec (.stateSet h k) s = .next t ∧ t.eng = s.eng ∧ ∃ r, s.answered t h .range false r)) ∧
    (∀ r, s.eng.state = .idle → s.eng.target = some .armed → s.eng.setReq = some r →
      (allLocked s = true → ∃ t, exec .armingComplete s = .next t ∧ t.eng.state = .armed ∧ t.eng.cause = 0x01 ∧
        t.eng.setReq = none ∧ t.eng.target = none ∧ t.eng.stateTick = s.eng.time ∧ t.flt = s.flt ∧ s.completed t r .ok 3) ∧
      (∃ t, exec .armTimeout s = .next t ∧ t.eng.state = .idle ∧ t.eng.cause = 0x0D ∧ t.eng.setReq = none ∧
        t.eng.target = none ∧ t.eng.evArmTmo = true ∧ t.flt = s.flt ∧ s.completed t r .timeout 2))

/-- RESULT_GET, RESULT_ACK, LOG_READ, CALIB_READ and CALIB_WRITE (R60, R61, R86, R87, R492). -/
def Obligations.ResultAndLogMessages : Prop :=
  ∀ (s : State) (h : MsgHdr), s.takes h → h.job = 0 → inAny s = true →
    (∀ b buf len, s.jobs.resIdent = some { bytes := b, returned := false } → b.length ≤ len →
      ∃ t, exec (.resultGet h 2 buf len) s = .next t ∧ s.answered t h .ok false b.length ∧
        ({ addr := buf, data := b } : HostWrite) ∈ t.host.out ∧ t.jobs.resIdent = some { bytes := b, returned := true } ∧
        t.eng = s.eng ∧ t.flt = s.flt) ∧
    (∀ b, s.jobs.resLog = some { bytes := b, returned := true } →
      ∃ t, exec (.resultAck h 5) s = .next t ∧ s.answered t h .ok false 0 ∧ t.jobs.resLog = none ∧
        t.jobs.resIdent = s.jobs.resIdent ∧ t.jobs.spoil = s.jobs.spoil ∧ t.eng = s.eng ∧ t.flt = s.flt) ∧
    (∀ log buf len, 1 ≤ log → log ≤ 8 → logMax log ≤ len →
      ∃ t, exec (.logRead h log buf len) s = .next t ∧ s.answered t h .ok false (logBytes s log).length ∧
        ({ addr := buf, data := logBytes s log } : HostWrite) ∈ t.host.out ∧
        t.jobs.resLog = some { bytes := logBytes s log, returned := false } ∧ t.eng = s.eng ∧ t.flt = s.flt) ∧
    (∀ buf, ∃ t, exec (.calibRead h buf 2296) s = .next t ∧ s.answered t h .ok false 2296 ∧ t.boot = s.boot ∧ t.eng = s.eng ∧
      (s.boot.calib.length = 2296 → ({ addr := buf, data := s.boot.calib } : HostWrite) ∈ t.host.out)) ∧
    (∀ buf record, (s.eng.state = .idle ∨ s.eng.state = .service) → calibIntact record = true → calibMine s record = true →
      calibInLimits record = true →
      ∃ t, exec (.calibWrite h buf 2296 record) s = .next t ∧ s.answered t h .ok false 0 ∧
        t.boot = { s.boot with calib := clearFresh record } ∧ t.eng = s.eng ∧ t.flt = s.flt)

/-- FAULT_CLEAR, FAULT_PIN_RELEASE and FAULT_PIN_PULSE_END (R27, R73, R423, R424, R430). -/
def Obligations.FaultClearMessage : Prop :=
  ∀ s : State,
    (∀ h, s.takes h → h.job = 0 → inAny s = true →
      (s.eng.state ≠ .safe → tickSources s = [] → (s.flt.first.any fun f => f.tick = s.now) = false →
        ∃ t, exec (.faultClear h) s = .next t ∧ s.answered t h .ok false 0 ∧ t.flt.sticky = Mask.empty ∧
          t.flt.same = Mask.empty ∧ t.flt.first = none ∧ t.flt.ovf = false ∧ t.flt.clears = min (s.flt.clears + 1) 65535 ∧
          t.flt.rearm = true ∧ t.flt.active = s.flt.active ∧ t.flt.pinLow = s.flt.pinLow ∧ t.flt.log = s.flt.log ∧
          t.eng = { s.eng with estop := false } ∧ (∀ n : Fin 8, t.sp[n].state ≠ .halted ∧ t.sp[n].firstLeg = 7) ∧
          (∀ p : Fin 16, t.aux[p].state ≠ .fault) ∧ (∀ b : Fin 4, t.bus[b].absorbLost = false)) ∧
      (s.eng.state = .safe → mayLeaveSafe s = false →
        ∃ t, exec (.faultClear h) s = .next t ∧ t.flt = s.flt ∧ t.eng = s.eng ∧ ∃ r, s.answered t h .state false r) ∧
      (s.eng.state = .safe → mayLeaveSafe s = true → s.eng.bootFail = false →
        ∃ t, exec (.faultClear h) s = .next t ∧ s.answered t h .ok false 0 ∧ t.eng.state = .idle ∧ t.eng.cause = 0x0C ∧
          t.eng.prev = .safe) ∧
      (s.flt.pinPulse = false → ∃ t, exec (.faultPinRelease h) s = .next t ∧ s.answered t h .ok false 0 ∧
        t.flt = { s.flt with pinLow := false } ∧ t.eng = s.eng) ∧
      (s.flt.pinPulse = true → ∃ t, exec (.faultPinRelease h) s = .next t ∧ t.flt = s.flt ∧ t.eng = s.eng ∧
        ∃ r, s.answered t h .busy false r)) ∧
    exec .faultPinPulseEnd s = .next (s.modFlt fun f => { f with pinPulse := false })

/-- JOB_OPEN, JOB_CLOSE, QUOTA_SET, FRAME_PUT, FRAME_PUT_RAW and FRAME_COMMIT (R74, R78 to R81, R85). -/
def Obligations.JobMessages : Prop :=
  ∀ s : State,
    (∀ h, s.takes h → inOpen s = true →
      (∀ last stations vAdm quota, h.job ≠ 0 → s.job? h.job = none → jobOpenRange last stations vAdm quota s = true →
        s.jobs.jobs.length < 16 →
        ∃ t, exec (.jobOpen h last stations vAdm quota) s = .next t ∧ s.answered t h .ok false 0 ∧
          t.jobs.jobs = s.jobs.jobs ++ [newJob h last stations vAdm quota] ∧ t.jobs.frames = s.jobs.frames ∧ t.eng = s.eng) ∧
      (∀ j, s.job? h.job = some j →
        (∀ src len rep base cycles bytes, framePutRange src len rep = true →
          (decide78 s j false len base cycles bytes = .ok →
            ∃ t, exec (.framePut h src len rep base cycles bytes) s = .next t ∧ s.answered t h .ok true 0 ∧
              t.jobs.nextEntry = s.jobs.nextEntry + 1 ∧ t.host.cmpWait = s.host.cmpWait ∧
              ∃ f, t.jobs.frames.getLast? = some f ∧ f.entry = s.jobs.nextEntry ∧ f.job = h.job ∧ f.committed = false ∧
                f.raw = false ∧ f.src = src ∧ f.len = len ∧ f.rep = rep ∧ f.size = len) ∧
          (decide78 s j true len base cycles bytes = .ok →
            ∃ t, exec (.framePutRaw h src len rep base cycles bytes) s = .next t ∧ s.answered t h .ok true 0 ∧
              t.jobs.nextEntry = s.jobs.nextEntry + 1 ∧
              ∃ f, t.jobs.frames.getLast? = some f ∧ f.entry = s.jobs.nextEntry ∧ f.job = h.job ∧ f.committed = false ∧
                f.raw = true ∧ f.len = len ∧ f.rep = rep ∧ f.size = frameSpace s.img j true len)) ∧
        (∀ quota, 1 ≤ quota → quota ≤ 8192 → j.closed = false →
          ∃ t, exec (.quotaSet h quota) s = .next t ∧ s.answered t h .ok false j.occupancy ∧ t.jobs.frames = s.jobs.frames ∧
            (∀ k ∈ t.jobs.jobs, k.id = h.job → k.quota = quota ∧ k.queue = h.q) ∧ t.eng = s.eng) ∧
        ((s.jobs.frames.any fun f => f.job = h.job && !f.committed) = true →
          ∃ t, exec (.jobClose h 0) s = .next t ∧ s.answered t h .ok false 0 ∧
            (∃ k ∈ t.jobs.jobs, k.id = h.job ∧ k.closed = true) ∧ t.eng = s.eng))) ∧
    (∀ id data j, s.job? id = some j → ∀ f, transferOf s id = some f → data.length = f.len →
      (measure s j f data).status = .ok →
      ∃ t, exec (.frameCommit id data .ok) s = .next t ∧
        (∃ g ∈ t.jobs.frames, g.entry = f.entry ∧ g.committed = true ∧ g.first = j.next ∧
          g.size = (measure s j f data).data.length) ∧
        (∃ k ∈ t.jobs.jobs, k.id = id ∧ k.next = j.next + f.rep) ∧ t.eng = s.eng)

/-- RUN_START, RUN_RESUME, RUN_ENTRY, RUN_MODIFY and RUN_STOP (R13, R180, R183, R185, R188, R218; the run number is an open
value, log 27). -/
def Obligations.RunMessages : Prop :=
  ∀ s : State,
    (∀ h, s.takes h →
      (∀ j frames speed accel, s.eng.state = .armed → s.job? h.job = some j →
        runStartRange h frames speed accel s = true → s.host.runWait = none → s.run.suspended = false →
        runReady j.stations s = true →
        ∃ t, exec (.runStart h frames speed accel) s = .next t ∧ t.host.out = s.host.out ∧ t.eng = s.eng ∧
          t.host.runWait = some { ref := msgRef h s, resume := false, job := h.job, frames := frames, speed := speed,
                                  accel := accel }) ∧
      (∀ speed accel, s.eng.state = .armed → jobRun h s = true → s.run.suspended = true → s.host.runWait = none →
        runReady s.run.stations s = true →
        speedRange s s.run.vAdm (keep0 speed s.run.speed) (keep0 accel s.run.accel) = true →
        ∃ t, exec (.runResume h speed accel) s = .next t ∧ t.eng = s.eng ∧
          t.host.runWait = some { ref := msgRef h s, resume := true, job := s.run.job, frames := s.run.frames,
                                  speed := keep0 speed s.run.speed, accel := keep0 accel s.run.accel }) ∧
      (∀ speed accel, s.eng.state = .run → jobRun h s = true → groupMember s = false →
        speedRange s s.run.vAdm speed accel = true → modifyReaches s accel = true →
        ∃ t, exec (.runModify h 0 speed accel) s = .next t ∧ t.run = s.run ∧ t.eng = s.eng ∧
          t.host.modifyWait = s.host.modifyWait ++ [{ ref := msgRef h s, speed := speed, accel := accel }]) ∧
      (s.eng.state = .run → jobRun h s = true → s.img.group = none → s.anch.still = false →
        ∃ t, exec (.runStop h) s = .next t ∧ s.answered t h .ok false 0 ∧ t.eng.state = .halting ∧ t.eng.stop = .halt ∧
          t.eng.cause = 0x04 ∧ t.run.halt.isSome = true ∧ t.flt = s.flt) ∧
      (s.eng.state = .armed → jobRun h s = true → s.run.suspended = true → s.host.evt.enable = false →
        ∃ t, exec (.runStop h) s = .next t ∧ s.answered t h .ok false 0 ∧ t.run.suspended = false ∧ t.eng = s.eng)) ∧
    (∀ w j, s.host.runWait = some w → s.job? w.job = some j → waitStale w s = false → entryBands s j = true →
      entryReady w j s = true → s.img.group = none →
      ∃ t, exec .runEntry s = .next t ∧ t.eng.state = .run ∧ t.eng.cause = (if w.resume then 0x03 else 0x02) ∧
        t.run.active = true ∧ t.run.speed = w.speed ∧ t.run.accel = w.accel ∧ t.run.started = 0 ∧ t.run.suspended = false ∧
        t.run.stretch = (if w.resume then s.run.stretch - s.run.started else w.frames) ∧ t.host.runWait = none ∧ t.flt = s.flt)

/-- PARAM_SET and PARAM_GET (R260, R315, R316). -/
def Obligations.ParamMessages : Prop :=
  ∀ (s : State) (h : MsgHdr), s.takes h → h.job = 0 → inParamSet s = true →
    (∀ space index v, s.host.paramWait = none → paramRange space index = true → paramStatus s space index v = .ok →
      ∃ t, exec (.paramSet h space index v) s = .next t ∧ t.host.out = s.host.out ∧ t.law = s.law ∧ t.sp = s.sp ∧
        ∃ w, t.host.paramWait = some w ∧ w.space = space ∧ w.index = index ∧ w.value = v ∧ w.ref = msgRef h s ∧
          w.due = (if s.now + 100 ≤ (s.now / s.img.tS + 1) * s.img.tS then s.now / s.img.tS + 1 else s.now / s.img.tS + 2)) ∧
    (∀ space index v, s.host.paramWait ≠ none → exec (.paramSet h space index v) s = .next s) ∧
    (∀ index, index ≤ 32767 →
      ((dget s index).bad = false → ∃ t, exec (.paramGet h 0 index) s = .next t ∧
        s.answered t h .ok false (Fp.flush (dget s index).v).toNat ∧ t.law = s.law ∧ t.eng = s.eng) ∧
      ((dget s index).bad = true → collectorOn s = true → ∃ t, exec (.paramGet h 0 index) s = .next t ∧
        t.law.dataUe = min (s.law.dataUe + 1) 255 ∧ t.flt.sticky.has 0x103 = true)) ∧
    (∀ n : Fin 8,
      (∃ t, exec (.paramGet h 1 (16 * n)) s = .next t ∧ s.answered t h .ok false s.sp[n].param.toNat ∧ t.sp = s.sp) ∧
      (∃ t, exec (.paramGet h 1 (16 * n + 1)) s = .next t ∧ s.answered t h .ok false (speedRpm s.sp[n]).toNat ∧ t.sp = s.sp) ∧
      (∃ t, exec (.paramGet h 1 (16 * n + 2)) s = .next t ∧ t.sp = s.sp ∧ ∃ r, s.answered t h .range false r))

/-- COMPRESS, COMPRESS_RUN, DECOMPRESS and DECOMPRESS_RUN (R145 to R155; log 24 for a failed read). -/
def Obligations.CompressionServices : Prop :=
  ∀ s : State,
    (∀ h f, s.takes h → h.job = 0 → inAny s = true →
      (compressRange f = true → s.host.cmp[0] = none → s.host.cmpWait = [] →
        ∃ t, exec (.compress h f) s = .next t ∧ t.host.cmp[0] = some (.inl (svcOf (msgRef h s) f)) ∧ t.host.cmpWait = [] ∧
          t.host.out = s.host.out ∧ t.jobs = s.jobs ∧ t.eng = s.eng) ∧
      (decompressRange f = true → s.host.dec = none → s.host.decWait = [] →
        ∃ t, exec (.decompress h f) s = .next t ∧ t.host.dec = some (svcOf (msgRef h s) f) ∧ t.host.decWait = [] ∧
          t.host.out = s.host.out ∧ t.jobs = s.jobs ∧ t.eng = s.eng)) ∧
    (∀ (u : Fin 2) v, s.host.cmp[u] = some (.inl v) →
      let ran (input : List Byte) (read : HostRead) (m : SvcSum) (st : Status) (stop : Option Nat) : Prop :=
        ∃ t, exec (.compressRun u input read) s = .next t ∧ t.eng = s.eng ∧ t.flt = s.flt ∧
          (s.host.cmpWait = [] → t.host.cmp[u] = none) ∧ s.completed t v.ref st m.out.length ∧
          t.jobs.resCompress = some { returned := false, bytes := summary m st 0 stop } ∧
          (m.out ≠ [] → ({ addr := v.dst, data := m.out } : HostWrite) ∈ t.host.out)
      (∀ input, input.length = v.srcLen →
        ran input .ok (compressAll v input).1 (compressAll v input).2.1 (compressAll v input).2.2) ∧
      (∀ input, input.length ≠ v.srcLen → exec (.compressRun u input .ok) s = .next s) ∧
      (∀ input, ran input .timeout SvcSum.zero .timeout (some v.firstLine)) ∧
      (∀ input, ran input .error SvcSum.zero .integrity (some v.firstLine) ∧
        ran input .poisoned SvcSum.zero .integrity (some v.firstLine))) ∧
    (∀ v, s.host.dec = some v →
      let ran (input : List Byte) (read : HostRead) (m : SvcSum) (st : Status) (check : Nat) (stop : Option Nat)
          (data : List Byte) : Prop :=
        ∃ t, exec (.decompressRun input read) s = .next t ∧ t.eng = s.eng ∧ t.flt = s.flt ∧
          (s.host.decWait = [] → t.host.dec = none) ∧ (∀ w r, s.host.decWait = w :: r → t.host.dec = some w ∧ t.host.decWait = r) ∧
          s.completed t v.ref st m.out.length ∧ t.jobs.resCompress = s.jobs.resCompress ∧
          t.jobs.resDecompress = some { returned := false, bytes := summary m st check stop } ∧
          (data ≠ [] → ({ addr := v.dst, data := data } : HostWrite) ∈ t.host.out)
      (∀ input, input.length = v.srcLen →
        let z := decompressBlocks v.width v.dstLen v.overlay input.length v.firstLine (List.replicate v.width 0) input SvcSum.zero
        (z.2.1 ≠ 0x0C → ran input .ok { z.1 with raw := 0 } (svcStatus z.2.1) z.2.2.1 z.2.2.2 z.1.out) ∧
        (z.2.1 = 0x0C → ran input .ok SvcSum.zero .expansion 0 z.2.2.2 [] ∧
          (v.dstLen ≠ 0 → ∃ t, exec (.decompressRun input .ok) s = .next t ∧
            ∃ w ∈ t.host.out, w.addr = v.dst ∧ w.data.length = v.dstLen))) ∧
      (∀ input, input.length ≠ v.srcLen → exec (.decompressRun input .ok) s = .next s) ∧
      (∀ input, ran input .timeout SvcSum.zero .timeout 0 (some v.firstLine) []) ∧
      (∀ input, ran input .error SvcSum.zero .integrity 0 (some v.firstLine) [] ∧
        ran input .poisoned SvcSum.zero .integrity 0 (some v.firstLine) []))

/-- STO_INPUT, ESTOP_INPUT, FLT_PAIR_CHANGE, PAIR_WIRE_FAULT and PAIR_RETURN_NORMAL (R335, R422, R426 to R428). A power failure of
the same tick keeps the state (R29, log 110). -/
def Obligations.SafetyPairs : Prop :=
  ∀ s : State, collectorOn s = true →
    let safe (t : State) : Prop :=
      (powerFails s = false → t.eng.state = .safe) ∧ (powerFails s = true → t.eng.state = s.eng.state)
    (∀ a b, (a = true ∨ b = false) → s.flt.active.has 0x000 = false → s.eng.state ≠ .down →
      ∃ t, exec (.stoInput a b) s = .next t ∧ t.flt.sto.active = true ∧ t.flt.sto.t = a ∧ t.flt.sto.c = b ∧
        t.flt.sticky.has 0x000 = true ∧ safe t ∧ (∀ n : Fin 8, t.sp[n].gates = 0 ∧ t.il.lsr[n] = false) ∧
        (∀ L : Fin 8, t.stage[L].inh = true)) ∧
    (s.flt.sto.active = false →
      exec (.stoInput false true) s = .next (s.modFlt fun f => { f with sto := { f.sto with t := false, c := true, active := false } })) ∧
    (∀ a b, (a = true ∨ b = false) → s.flt.active.has 0x007 = false →
      (s.eng.state = .idle → ∃ t, exec (.estopInput a b) s = .next t ∧ t.flt.estop.active = true ∧ t.eng.estop = true ∧
        t.flt.sticky.has 0x007 = true ∧ safe t ∧ (powerFails s = false → t.eng.cause = 0x08)) ∧
      (s.eng.state = .run → ∃ t, exec (.estopInput a b) s = .next t ∧ t.flt.estop.active = true ∧ t.eng.estop = true ∧
        t.flt.sticky.has 0x007 = true ∧ (powerFails s = false → t.eng.state = .belay ∧ t.eng.stop = .belay ∧ t.eng.markEstop = true) ∧
        (powerFails s = true → t.eng.state = .run) ∧ t.il.lsr = s.il.lsr ∧ t.sp = s.sp)) ∧
    (∀ L : Fin 8, s.flt.active.has (0x070 + 16 * L) = false → s.stage[L].pair.wire = false →
      ∃ t, exec (.fltPairChange L true false) s = .next t ∧ t.stage[L].pair.active = true ∧ t.stage[L].inhHeld = true ∧
        t.stage[L].inh = true ∧ t.flt.sticky.has (0x070 + 16 * L) = true) ∧
    (∀ L : Fin 8, s.flt.active.has (0x071 + 16 * L) = false → s.stage[L].pair.t = s.stage[L].pair.c →
      ∃ t, exec (.pairWireFault (.flt L)) s = .next t ∧ t.stage[L].pair.wire = true ∧ t.stage[L].pair.active = true ∧
        t.stage[L].inh = true ∧ t.flt.sticky.has (0x071 + 16 * L) = true) ∧
    (s.flt.sto.t = s.flt.sto.c → s.flt.active.has 0x000 = false → s.eng.state ≠ .down →
      ∃ t, exec (.pairWireFault .sto) s = .next t ∧ t.flt.sto.wire = true ∧ t.flt.sto.wireSeen = true ∧ t.flt.sto.active = true ∧
        safe t) ∧
    (s.flt.sto.t = false → s.flt.sto.c = true →
      exec (.pairReturnNormal .sto) s = .next (s.modFlt fun f =>
        { f with sto := { f.sto with active := false, wire := false }, active := f.active.drop 0x000 }))

/-- INTERLOCK_OPEN, INTERLOCK_CLOSE and LASER_ENABLE_RISE (R247 to R250; the laser blank that the rise ends is log 102's
reading). -/
def Obligations.InterlocksAndLaserEnables : Prop :=
  ∀ s : State,
    (∀ i : Interlock, collectorOn s = true → s.flt.active.has (interlockSource i) = false →
      ∃ t, exec (.interlockOpen i) s = .next t ∧ t.flt.sticky.has (interlockSource i) = true ∧
        (∀ n : Fin 8, n.val ∈ interlockStations i → t.il.lsr[n] = false ∧ t.expo[n].blank.has .interlock = true) ∧
        (match i with | .cover n => t.il.cover[n] | .web => t.il.web | .jam => t.il.jam) = true) ∧
    (∀ i : Interlock, (match i with | .cover n => s.il.cover[n] | .web => s.il.web | .jam => s.il.jam) = true →
      ∃ t, exec (.interlockClose i) s = .next t ∧ t.il.lsr = s.il.lsr ∧ t.expo = s.expo ∧ t.eng = s.eng ∧
      t.flt = { s.flt with active := s.flt.active.drop (interlockSource i) } ∧
      (match i with | .cover n => t.il.cover[n] | .web => t.il.web | .jam => t.il.jam) = false ∧
      (∀ n : Fin 8, n.val ∈ interlockStations i → gateClosed t n = false)) ∧
    (∀ i : Interlock, (match i with | .cover n => s.il.cover[n] | .web => s.il.web | .jam => s.il.jam) = false →
      exec (.interlockClose i) s = .next s) ∧
    (∀ n : Fin 8,
      (gateClosed s n = true → laserPermitted s = true →
        ∃ t, exec (.laserEnableRise n) s = .next t ∧ t.il.lsr[n] = true ∧ (∀ m : Fin 8, m ≠ n → t.il.lsr[m] = s.il.lsr[m]) ∧
          (s.il.lsr[n] = false → t.expo[n].blank.has .interlock = false ∧ t.expo[n].blank.has .laser = false) ∧ t.flt = s.flt ∧ t.eng = s.eng) ∧
      ((gateClosed s n = false ∨ laserPermitted s = false) →
        exec (.laserEnableRise n) s = .next s))

/-- REGISTER_WRITE, ENGINE_EVENT_INTERRUPT_WRITE and BAR0_UNSUPPORTED_ACCESS (R2 to R6, R497, R499, R503, R505,
R506; one tick counts as one SYS cycle, log 113). No command is a read; `readReg` is what a host finds (log 11). -/
def Obligations.RegisterWrites : Prop :=
  ∀ s : State, regOpen 1 s = true →
    (∀ v : BitVec 64, exec (.registerWrite 0x00004 false v) s = .next (s.modEng fun e =>
      { e with evStateChg := e.evStateChg && !(v.getLsbD 0 && !setThisTick s 4 0)
               evArmTmo := e.evArmTmo && !(v.getLsbD 1 && !setThisTick s 4 1)
               evStopDone := e.evStopDone && !(v.getLsbD 2 && !setThisTick s 4 2) })) ∧
    (∀ v : BitVec 64, s.eng.state = .idle → (∀ b, setThisTick s 8 b = false) →
      exec (.registerWrite 0x00008 false v) s = .next (s.modEng fun e =>
        { e with armTmo := if v.toNat % 2 ^ 16 = 0 then e.armTmo else v.toNat % 2 ^ 16
                 coastTmo := if v.toNat / 2 ^ 16 % 2 ^ 16 = 0 then e.coastTmo else v.toNat / 2 ^ 16 % 2 ^ 16 })) ∧
    (∀ v : BitVec 64, s.eng.state ≠ .idle → exec (.registerWrite 0x00008 false v) s = .next s) ∧
    (∀ (o : BitVec 20) (v : BitVec 64), 0x10000 ≤ o.toNat → o.toNat < 0x14000 → o.toNat % 4 = 0 →
      exec (.registerWrite o false v) s = .next s) ∧
    (∀ (o : BitVec 20) v, accessOk o.toNat 4 = false → ∃ t, exec (.registerWrite o false v) s = .next t ∧
      t = s.modHost fun h => { h with aer := h.aer + 1 }) ∧
    (∀ (o : BitVec 20) bytes w, accessOk o.toNat bytes = false →
      exec (.bar0UnsupportedAccess o bytes w) s = .next (s.modHost fun h => { h with aer := h.aer + 1 })) ∧
    (∀ v : Word, ∃ t, exec (.engineEventInterruptWrite v) s = .next t ∧ t.eng.irqVector = v.toNat % 64 ∧
      t.eng.irqEn = v.getLsbD 6 ∧ (∀ i : Fin 3, t.eng.irqMask.getLsbD i = v.getLsbD (8 + i)) ∧ t.eng.state = s.eng.state ∧
      (s.eng.irqEn = false → v.getLsbD 6 = true → v.getLsbD 8 = true → s.eng.evStateChg = true →
        s.eng.irqTick ≠ some s.now → s.host.msixMask.getLsbD (v.toNat % 64) = false → t.host.msix = s.host.msix ++ [Fin.ofNat 64 (v.toNat % 64)]) ∧
      (s.eng.evStateChg = false → s.eng.evArmTmo = false → s.eng.evStopDone = false → t.host = s.host)) ∧
    (∀ o, o % 4 = 0 → s.host.latch = [] →
      ((∀ b ∈ readBlocks, inR o b.1 b.2.1 = false) → (readReg o false s).1 = some 0) ∧
      (∀ b ∈ readBlocks, inR o b.1 b.2.1 = true → regOpen b.2.2.1 s = false → (readReg o false s).1 = some 0) ∧
      (reg64 o = true → (readReg o false s).1 = some (readNow o s) ∧
        ∀ u : State, barOpen u = true → u.host.latch = (readReg o false s).2.host.latch →
          (readReg (o + 4) false u).1 = some (readNow (o + 4) s)))

/-- BACK_LANE_STATUS_FRAME, EXPO_LINK_LOST, LASER_ECHO_MISMATCH, EMITTER_TEMP_STALE and EXPO_LINK_TRAINING (R238 to R242,
R252, R253). -/
def Obligations.ExposureLinkFrames : Prop :=
  ∀ (s : State) (n : Fin 8),
    (s.img.stationEn n = true → ∀ f : List Byte,
      (f.length = 16 → u16 f 14 = Poly.ccitt.crc (f.take 14) → byteAt f 1 % 16 / 2 = 1 → byteAt f 4 = s.expo[n].lastCrc →
        s.expo[n].lastCrc < 256 →
        ∃ t, exec (.backLaneStatusFrame n f) s = .next t ∧ t.expo[n].bad = 0 ∧ t.expo[n].echo = bit (byteAt f 1) 0 ∧
          t.expo[n].linkUp = s.expo[n].linkUp ∧ t.expo[n].temp = s.expo[n].temp ∧ t.flt = s.flt ∧
          (∀ m : Fin 8, m ≠ n → t.expo[m] = s.expo[m])) ∧
      (f.length = 16 → u16 f 14 ≠ Poly.ccitt.crc (f.take 14) → s.expo[n].bad + 1 < 16 →
        exec (.backLaneStatusFrame n f) s = .next (s.atExpo n fun e => { e with bad := e.bad + 1 })) ∧
      (f.length = 16 → u16 f 14 ≠ Poly.ccitt.crc (f.take 14) → 16 ≤ s.expo[n].bad + 1 → s.expo[n].linkUp = true →
        collectorOn s = true → ∃ t, exec (.backLaneStatusFrame n f) s = .next t ∧ t.expo[n].linkUp = false ∧
          t.flt.sticky.has (0x180 + 8 * n) = true)) ∧
    (s.expo[n].linkUp = true → collectorOn s = true → ∃ t, exec (.expoLinkLost n) s = .next t ∧ t.expo[n].linkUp = false ∧
      t.flt.sticky.has (0x180 + 8 * n) = true) ∧
    (collectorOn s = true → ∃ t, exec (.laserEchoMismatch n) s = .next t ∧ t.flt.sticky.has (0x180 + 8 * n) = true ∧
      t.expo[n].linkUp = s.expo[n].linkUp) ∧
    (s.expo[n].tempLimit = false → collectorOn s = true → ∃ t, exec (.emitterTempStale n) s = .next t ∧
      t.expo[n].tempLimit = true ∧ t.expo[n].blank.has .temp = true ∧ t.flt.sticky.has (0x183 + 8 * n) = true) ∧
    (expoTrains s n = true → ∃ t, exec (.expoLinkTraining n true) s = .next t ∧ t.expo[n].linkUp = true ∧ t.expo[n].bad = 0 ∧
      t.expo[n].queue = [] ∧ (∀ i : Fin 4, t.expo[n].lanes[i].span = 0 ∧ t.expo[n].lanes[i].count = 0) ∧
      (∀ m : Fin 8, m ≠ n → t.expo[m] = s.expo[m]) ∧ t.flt = s.flt ∧ t.eng = s.eng) ∧
    (expoTrains s n = true → collectorOn s = true → ∃ t, exec (.expoLinkTraining n false) s = .next t ∧
      t.expo[n].linkUp = false ∧ t.flt.sticky.has (0x180 + 8 * n) = true) ∧
    (∀ ok, expoTrains s n = false → exec (.expoLinkTraining n ok) s = .next s)

/-- TONE_ENTRY_WRITE, TONE_HOLD_WRITE, DEAD_MASK_WRITE and PARTNER_CONFIG_WRITE (R231, R245, R501; which writes are taken is log
88's reading). -/
def Obligations.ExposureRegisterWrites : Prop :=
  ∀ (s : State) (n : Fin 8) (v : Word), regOpen 5 s = true →
    (∀ t : Fin 16, t ≠ 0 → v.getLsbD 15 = false → ∃ u, exec (.toneEntryWrite n t v) s = .next u ∧
      u.expo[n].toneSet[t] = (v.toNat % 65536, s.now) :: (s.expo[n].toneSet[t].filter fun y => y.2 != s.now).take 1 ∧ u.expo[n].tone = s.expo[n].tone ∧
      (∀ k : Fin 16, k ≠ t → u.expo[n].toneSet[k] = s.expo[n].toneSet[k]) ∧ (∀ m : Fin 8, m ≠ n → u.expo[m] = s.expo[m])) ∧
    (∀ t : Fin 16, (t = 0 ∨ v.getLsbD 15 = true) → exec (.toneEntryWrite n t v) s = .next s) ∧
    (∃ u, exec (.toneHoldWrite n v) s = .next u ∧ u.expo[n].hold = v.getLsbD 0 ∧ u.expo[n].tone = s.expo[n].tone ∧
      (s.expo[n].hold = true → v.getLsbD 0 = false →
        ∀ t : Fin 16, u.expo[n].toneSet[t] = (s.expo[n].toneSet[t].take 1).map fun x => (x.1, s.now)) ∧
      ((s.expo[n].hold = false ∨ v.getLsbD 0 = true) → u.expo[n].toneSet = s.expo[n].toneSet)) ∧
    ((s.eng.state = .idle ∨ s.eng.state = .armed) →
      (∃ u, exec (.deadMaskWrite n false v) s = .next u ∧
        ∀ e : Fin 36, u.expo[n].dead.getLsbD e = (if e < 32 then v.getLsbD e else s.expo[n].dead.getLsbD e)) ∧
      (∃ u, exec (.deadMaskWrite n true v) s = .next u ∧
        ∀ e : Fin 36, u.expo[n].dead.getLsbD e = (if e < 32 then s.expo[n].dead.getLsbD e else v.getLsbD (e - 32)))) ∧
    (s.eng.state ≠ .idle → s.eng.state ≠ .armed → ∀ b, exec (.deadMaskWrite n b v) s = .next s) ∧
    (s.expo[n].cfgPend = false → ∃ u, exec (.partnerConfigWrite n v) s = .next u ∧ u.expo[n].cfgPend = true ∧
      u.expo[n].cfgAddr = s.expo[n].cfgAddr ∧ u.expo[n].cfgData = s.expo[n].cfgData % 65536 + v.toNat % 65536 * 65536) ∧
    (s.expo[n].cfgPend = true → exec (.partnerConfigWrite n v) s = .next s)

/-- ANCHOR_COUNT, ANCHOR_Z_PULSE, EYELET_ANCHOR_REPORT, ANCHOR_STALE and ANCHOR_OVERSPEED (R157 to R162, R166; the sign of a
count by log 29, the eyelet's reports by logs 32 and 120, the episode of an overspeed by log 100). -/
def Obligations.AnchorUnit : Prop :=
  ∀ s : State,
    (∀ n : Fin 2, s.anch.src = n → ∀ a b, (a = s.anch.inp[n].a ∨ b = s.anch.inp[n].b) →
      (edgeCount s.anch.inp[n] a b = 1 → s.anch.debt = 0 →
        ∃ t, exec (.anchorCount n a b) s = .next t ∧ t.anch.inp[n].count = s.anch.inp[n].count + 1 ∧
          t.anch.raw = s.anch.raw + (s.img.scaleNum + s.anch.rem) / max 1 s.img.scaleDen ∧
          (0 ≤ (s.img.scaleNum + s.anch.rem) / max 1 s.img.scaleDen →
            t.anch.follow = s.anch.follow + (s.img.scaleNum + s.anch.rem) / max 1 s.img.scaleDen ∧ t.anch.debt = 0) ∧
          t.anch.rem = (s.img.scaleNum + s.anch.rem) % max 1 s.img.scaleDen) ∧
      (edgeCount s.anch.inp[n] a b = -1 → (-s.img.scaleNum + s.anch.rem) / max 1 s.img.scaleDen < 0 →
        ∃ t, exec (.anchorCount n a b) s = .next t ∧ t.anch.inp[n].count = s.anch.inp[n].count - 1 ∧
          t.anch.raw = s.anch.raw + (-s.img.scaleNum + s.anch.rem) / max 1 s.img.scaleDen ∧ t.anch.follow = s.anch.follow ∧
          (t.anch.debt : Int) = s.anch.debt - (-s.img.scaleNum + s.anch.rem) / max 1 s.img.scaleDen)) ∧
    (∀ n : Fin 2, s.anch.src ≠ n → ∀ a b, (a = s.anch.inp[n].a ∨ b = s.anch.inp[n].b) →
      ∃ t, exec (.anchorCount n a b) s = .next t ∧ t.anch.inp[n].a = a ∧ t.anch.inp[n].b = b ∧ t.anch.raw = s.anch.raw ∧
        t.anch.follow = s.anch.follow ∧ t.anch.debt = s.anch.debt ∧ t.flt = s.flt) ∧
    (∀ n : Fin 2, collectorOn s = true → ∃ t, exec (.anchorCount n (!s.anch.inp[n].a) (!s.anch.inp[n].b)) s = .next t ∧
      t.anch.qerr = true ∧ t.anch.raw = s.anch.raw ∧ t.anch.follow = s.anch.follow ∧ t.flt.sticky.has 0x009 = true) ∧
    (∀ n : Fin 2,
      (s.anch.inp[n].zCount = none → ∃ t, exec (.anchorZPulse n) s = .next t ∧
        t.anch.inp[n].zCount = some s.anch.inp[n].count ∧ t.anch.zerr = s.anch.zerr ∧ t.flt = s.flt) ∧
      (∀ z, s.anch.inp[n].zCount = some z → s.img.zPeriod ≠ 0 → s.img.zPeriod + 2 < (s.anch.inp[n].count - z).natAbs →
        collectorOn s = true → ∃ t, exec (.anchorZPulse n) s = .next t ∧ t.anch.zerr = true ∧ t.flt.sticky.has 0x009 = true)) ∧
    (s.anch.src = 2 →
      (∀ c time, anchorReport s ≠ (c, time) → exec (.eyeletAnchorReport c time) s = .next s) ∧
      (s.anch.eyeCount = none → ∀ c time, anchorReport s = (c, time) → ∃ t, exec (.eyeletAnchorReport c time) s = .next t ∧ t.anch.eyeCount = some c ∧
        t.anch.eyeTick = time ∧ t.anch.raw = s.anch.raw ∧ t.anch.follow = s.anch.follow) ∧
      (s.anch.eyeLost = false → 2 ≤ s.anch.eyeMiss → collectorOn s = true → ∃ t, exec .anchorStale s = .next t ∧
        t.anch.stale = true ∧ t.anch.eyeOn = false ∧ t.anch.follow = s.anch.follow ∧ t.anch.raw = s.anch.raw ∧
        t.flt.sticky.has 0x00A = true) ∧
      ((s.anch.eyeLost = true ∨ s.anch.eyeMiss < 2) → exec .anchorStale s = .next s)) ∧
    (overspeed s = true → 100000 ≤ s.anch.overTime → s.anch.overEp = false → collectorOn s = true →
      ∃ t, exec .anchorOverspeed s = .next t ∧ t.flt.sticky.has 0x00C = true ∧ t.anch.overEp = true) ∧
    ((overspeed s = false ∨ s.anch.overTime < 100000 ∨ s.anch.overEp = true) → exec .anchorOverspeed s = .next s)

/-- WEB_STANDSTILL and ROPE_STANDSTILL (R12, R165, R352, table "State transitions"; the CAUSE codes of the three ends
of a belay stop are the model's choice, log 100; that a run ends at standstill where the target is passed is log 98). A power failure of
the same tick keeps the state (R29, log 110). -/
def Obligations.StandstillEndsStops : Prop :=
  ∀ s : State,
    let rest (t : State) : Prop := t.run.active = false ∧
      (s.run.active = true → t.run.suspended = (s.run.suspended || decide (s.run.started < s.run.stretch)))
    (stillLong s = false → exec .webStandstill s = .next s) ∧
    (stillLong s = true → (∀ b : Fin 4, s.bus[b].absorbLost = false) →
      (s.eng.state = .run → s.run.active = true → runTarget s ≤ s.line →
        ∃ t, exec .webStandstill s = .next t ∧ t.eng.state = .armed ∧ t.eng.cause = 0x05 ∧ t.anch.still = true ∧ rest t) ∧
      (s.eng.state = .halting → ∃ t, exec .webStandstill s = .next t ∧ t.eng.state = .armed ∧ t.eng.cause = 0x06 ∧
        t.anch.still = true ∧ t.eng.stopOpen = false ∧ rest t) ∧
      (s.eng.state = .belay → (s.eng.stop = .ramp ∨ s.eng.stop = .coast) →
        ∃ t, exec .webStandstill s = .next t ∧ t.eng.state = .safe ∧ t.eng.cause = 0x06 ∧ t.anch.still = true ∧ rest t) ∧
      (s.eng.state = .belay → s.eng.stop = .belay → noRopeAxis s.img = false →
        ∃ t, exec .webStandstill s = .next t ∧ t.eng = s.eng ∧ t.anch.still = true ∧ rest t) ∧
      (s.eng.state = .idle → ∃ t, exec .webStandstill s = .next t ∧ t.eng.state = .idle ∧ t.anch.still = true ∧ t.flt = s.flt)) ∧
    (s.eng.state = .belay → s.eng.stop = .belay →
      (ropesStill s = false → exec .ropeStandstill s = .next s) ∧
      (ropesStill s = true → s.eng.markCritical = false → s.eng.markEstop = false →
        ∃ t, exec .ropeStandstill s = .next t ∧ t.eng.state = .armed ∧ t.eng.cause = 0x06 ∧ t.eng.prev = .belay ∧ rest t) ∧
      (ropesStill s = true → s.eng.markCritical = false → s.eng.markEstop = true →
        ∃ t, exec .ropeStandstill s = .next t ∧ t.eng.state = .safe ∧ t.eng.cause = 0x08 ∧ rest t) ∧
      (ropesStill s = true → s.eng.markCritical = true →
        ∃ t, exec .ropeStandstill s = .next t ∧ (powerFails s = false → t.eng.state = .down ∧ t.eng.cause = 0x0E ∧ t.pwr.down.isSome = true) ∧ rest t))

/-- FACET_REFERENCE_PULSE, FRAME_START and FRAME_STARVED (R9, R10, R84, R167 to R170, R181, R184). A power failure of
the same tick keeps the state (R29, log 110). -/
def Obligations.FacetPulsesAndFrameStarts : Prop :=
  (∀ s : State,
    (s.eng.state ≠ .boot → s.eng.state ≠ .down →
      ∃ t, exec .facetReferencePulse s = .next t ∧ t.facet.k = s.facet.k + 1 ∧ t.facet.tick = s.now ∧ t.eng = s.eng ∧ t.anch = s.anch ∧
        t.clk = s.clk ∧ t.boot = s.boot ∧ (t.facet.anchored = false → t.facet.interval = tStby s.img) ∧
        (t.facet.anchored = true →
          (max (tMin s.img) (tBeam s.img) ≤ t.facet.interval ∨ t.facet.interval = tStby s.img) ∧
          t.facet.interval ≤ max (max (tMin s.img) (tBeam s.img)) (tStby s.img))) ∧
    ((s.eng.state = .boot ∨ s.eng.state = .down) → exec .facetReferencePulse s = .next s)) ∧
  (∀ s : State, s.eng.state = .run → s.run.active = true →
    (s.run.started < s.run.stretch →
      (∀ f, s.frameNo? s.run.job (s.run.first + s.run.started) = some f →
        s.run.f0 + (s.run.started : Int) * runLF s + dFirst s ≤ s.line →
        ∃ t, exec .frameStart s = .next t ∧ t.run = { s.run with started := s.run.started + 1 } ∧ t.anch = s.anch ∧
          t.eng = s.eng ∧ t.jobs.prog.length = s.jobs.prog.length + 1 ∧
          ∃ p, t.jobs.prog.getLast? = some p ∧ p.job = f.job ∧ p.number = s.run.first + s.run.started ∧ p.entry = f.entry ∧
            p.start = s.run.f0 + (s.run.started : Int) * runLF s ∧ p.tick = s.now ∧ p.cut = false) ∧
      (s.line < s.run.f0 + (s.run.started : Int) * runLF s + dFirst s → exec .frameStart s = .next s)) ∧
    (∀ u, firstUncommitted s = some u → frameStartLine s u + dFirst s - 64 ≤ s.line → collectorOn s = true →
      s.img.group = none → s.anch.still = false →
      ∃ t, exec .frameStarved s = .next t ∧ t.flt.sticky.has 0x1F4 = true ∧
        (powerFails s = false → t.eng.state = .halting ∧ t.eng.stop = .halt) ∧ (powerFails s = true → t.eng.state = .run)) ∧
    (firstUncommitted s = none → exec .frameStarved s = .next s))

/-- CAMERA_MARK_REPORT, REG_BASE_WRITE and REG_OFFSET_WRITE (R6, R174 to R178, R392; rounding of a step by log 30, an aliased
camera by log 111, a report of other words than those delivered by log 120). -/
def Obligations.RegistrationOffsets : Prop :=
  ∀ (s : State) (n : Fin 8),
    (regOpen 1 s = true → ∀ v : Word,
      ((s.eng.state = .idle ∨ s.eng.state = .armed) → signed 9 v.toNat ≠ -256 →
        ∃ t, exec (.regBaseWrite n v) s = .next t ∧ t.reg[n] = { s.reg[n] with k := signed 9 v.toNat } ∧
          (∀ m : Fin 8, m ≠ n → t.reg[m] = s.reg[m]) ∧ t.flt = s.flt) ∧
      (s.eng.state ≠ .idle → s.eng.state ≠ .armed → exec (.regBaseWrite n v) s = .next s) ∧
      (signed 9 v.toNat = -256 → exec (.regBaseWrite n v) s = .next s) ∧
      (∃ t, exec (.regOffsetWrite n false v) s = .next t ∧ t.reg[n].trimAlong = signed 8 v.toNat ∧
        t.reg[n].trimCross = signed 16 (v.toNat / 65536) ∧ t.reg[n].accAlong = s.reg[n].accAlong ∧
        t.reg[n].accCross = s.reg[n].accCross ∧ t.reg[n].along = s.reg[n].along ∧ t.reg[n].cross = s.reg[n].cross) ∧
      (∃ t, exec (.regOffsetWrite n true v) s = .next t ∧ t.reg[n].accAlong = signed 8 v.toNat ∧
        t.reg[n].accCross = signed 16 (v.toNat / 65536) ∧ t.reg[n].trimAlong = s.reg[n].trimAlong ∧
        t.reg[n].trimCross = s.reg[n].trimCross ∧ t.reg[n].along = s.reg[n].along ∧ t.reg[n].cross = s.reg[n].cross)) ∧
    (∀ frame along cross, (s.img.camNode n = 0 ∨ camToggled s n = false ∨ camReport s n ≠ (frame, along, cross)) →
      exec (.cameraMarkReport n frame along cross) s = .next s) ∧
    (s.img.camNode n ≠ 0 → camToggled s n = true → ∀ frame along cross, camReport s n = (frame, along, cross) →
      (reportTaken s n frame = true →
        ∃ t, exec (.cameraMarkReport n frame along cross) s = .next t ∧ t.reg[n].seen = frame :: s.reg[n].seen ∧
          t.reg[n].camNew = camStatus s n ∧ t.facet.regDropped = s.facet.regDropped ∧
          (-128 ≤ s.reg[n].accAlong → s.reg[n].accAlong ≤ 127 →
            (t.reg[n].accAlong - s.reg[n].accAlong).natAbs ≤ s.img.regStep ∧ -128 ≤ t.reg[n].accAlong ∧ t.reg[n].accAlong ≤ 127) ∧
          (-32768 ≤ s.reg[n].accCross → s.reg[n].accCross ≤ 32767 →
            (t.reg[n].accCross - s.reg[n].accCross).natAbs ≤ s.img.regXStep)) ∧
      (reportTaken s n frame = false → ∃ t, exec (.cameraMarkReport n frame along cross) s = .next t ∧
        t.reg[n] = { s.reg[n] with camNew := camStatus s n } ∧ t.facet.regDropped = min 65535 (s.facet.regDropped + 1) ∧ (∀ m : Fin 8, m ≠ n → t.reg[m] = s.reg[m]) ∧
        t.flt = s.flt))

/-- SOS_PULSE, SOS_WINDOW_EXPIRY and SCAN_CROSS_WRITE (R201 to R205, R207, R208, R210, R212; an open S_now before sixteen
test edges by log 34). -/
def Obligations.ScanTiming : Prop :=
  ∀ (s : State) (n : Fin 8),
    (∀ coarse cell fine : Nat,
      let x := sosTime s n coarse cell
      ((s.img.stationEn n = false ∨ s.eng.state = .boot ∨ s.eng.state = .down ∨
          (s.scan[n].learned = true ∧ (s.scan[n].tSos.isSome = true ∨ inWindow s n x = false))) →
        ∃ t, exec (.sosPulse n coarse cell fine) s = .next t ∧ t.scan = s.scan ∧ t.flt = s.flt ∧ t.sp = s.sp ∧ t.expo = s.expo) ∧
      (s.img.stationEn n = true → s.eng.state ≠ .boot → s.eng.state ≠ .down →
        (s.scan[n].learned = false ∨ (s.scan[n].tSos = none ∧ inWindow s n x = true)) →
        ∃ t, exec (.sosPulse n coarse cell fine) s = .next t ∧ t.scan[n].tSos = some x ∧
          t.scan[n].e = x - s.img.sosPhase n ∧ t.scan[n].subst = false ∧ t.scan[n].subRow = 0 ∧
          t.scan[n].missed = s.scan[n].missed ∧ t.scan[n].fines = (fine :: s.scan[n].fines).take 16 ∧
          t.scan[n].lastPulse = some (s.facet.tick * 1250 + refPart s + x).toNat ∧
          (∀ m : Fin 8, m ≠ n → t.scan[m].tSos = s.scan[m].tSos ∧ t.scan[m].model = s.scan[m].model ∧
            t.scan[m].eMean = s.scan[m].eMean ∧ t.scan[m].missed = s.scan[m].missed) ∧ t.anch = s.anch ∧ t.clk = s.clk)) ∧
    (s.scan[n].learned = true → s.scan[n].tSos = none →
      ∃ t, exec (.sosWindowExpiry n) s = .next t ∧ t.scan[n].tSos = some (divNear (predict s n (nextFacet s n)) 256) ∧
        t.scan[n].subst = true ∧ t.scan[n].missed = min 65535 (s.scan[n].missed + 1) ∧ t.scan[n].facet = nextFacet s n ∧
        t.scan[n].subRow = s.scan[n].subRow + 1 ∧
        (nextFacet s n + 1 ≠ max 1 s.img.facets → t.scan[n].model = s.scan[n].model ∧ t.scan[n].eMean = s.scan[n].eMean) ∧
        (s.scan[n].subRow + 1 = s.img.missMax → collectorOn s = true → t.flt.sticky.has (0x186 + 8 * n) = true)) ∧
    ((s.scan[n].learned = false ∨ s.scan[n].tSos.isSome = true) → exec (.sosWindowExpiry n) s = .next s) ∧
    (∀ (f : Fin 8) (v : Word),
      (regOpen 8 s = true → ∃ t, exec (.scanCrossWrite n f v) s = .next t ∧
        t.scan[n].crossSet[f] = signed 16 (v.toNat / 65536) ∧ t.scan[n].cross = s.scan[n].cross ∧
        (∀ g : Fin 8, g ≠ f → t.scan[n].crossSet[g] = s.scan[n].crossSet[g]) ∧
        (∀ m : Fin 8, m ≠ n → t.scan[m] = s.scan[m]) ∧ t.flt = s.flt) ∧
      (regOpen 8 s = false → exec (.scanCrossWrite n f v) s = .next s))

/-- REF_LOST, CLOCK_MONITOR_WINDOW, REF_RETURN, PLL_UNLOCK and TEMPERATURE_COMPENSATION_UPDATE (R196 to R200, R213, R214, R368
and table "Consequences of an unlock"; REF_LOST and BACKUP_FAIL as conditions by log 23, one window judged for both by log 63). A power failure of
the same tick keeps the state (R29, log 110). -/
def Obligations.ClocksAndCompensation : Prop :=
  ∀ s : State, collectorOn s = true →
    (s.clk.refOk = true → s.flt.active.has 0x030 = false →
      ∃ t, exec .refLost s = .next t ∧ t.clk.refOk = false ∧ t.clk.refLostSeen = true ∧
        t.clk.onBackup = (s.clk.onBackup || s.clk.backupOk) ∧ t.clk.pll = s.clk.pll ∧ t.flt.sticky.has 0x030 = true ∧
        (s.eng.state = .boot → t.boot.fail = .xtal ∧ (powerFails s = false → t.eng.state = .safe))) ∧
    (s.clk.refOk = false → exec .refLost s = .next s) ∧
    (∀ k : Nat,
      (990 ≤ k → k ≤ 1010 → s.eng.state ≠ .boot → ∃ t, exec (.clockMonitorWindow k) s = .next t ∧ t.clk.refOk = true ∧
        t.clk.backupOk = s.clk.backupOk ∧ t.flt.active = s.flt.active.drop 0x030 ∧ t.flt.sticky = s.flt.sticky) ∧
      ((k < 980 ∨ 1020 < k) → s.flt.active.has 0x031 = false → ∃ t, exec (.clockMonitorWindow k) s = .next t ∧
        t.clk.backupOk = false ∧ t.clk.refOk = false ∧ t.flt.sticky.has 0x031 = true)) ∧
    (s.clk.onBackup = true → s.clk.refOk = true →
      ((s.eng.state = .idle ∨ s.eng.state = .safe ∨ s.eng.state = .service) → s.img.refReturn = true →
        ∃ t, exec .refReturn s = .next t ∧ t.clk.onBackup = false ∧ t.clk.pll[6] = s.clk.pll[6] ∧
          (∀ i : Fin 8, i ≠ 6 → t.clk.pll[i].locked = false ∧ t.clk.pll[i].band = s.clk.pll[i].band)) ∧
      ((s.img.refReturn = false ∨ (s.eng.state ≠ .idle ∧ s.eng.state ≠ .safe ∧ s.eng.state ≠ .service)) →
        ∃ t, exec .refReturn s = .next t ∧ t.clk = { s.clk with returnReady := true } ∧ t.flt = s.flt)) ∧
    ((s.clk.onBackup = false ∨ s.clk.refOk = false) → exec .refReturn s = .next s) ∧
    (∀ i : Fin 8,
      ((s.clk.pll[i].locked = false ∨ unlockOff s i = true) → exec (.pllUnlock i) s = .next s) ∧
      (s.clk.pll[i].locked = true → unlockOff s i = false → s.flt.active.has (0x032 + i) = false →
        ∃ t, exec (.pllUnlock i) s = .next t ∧ t.clk.pll[i].locked = false ∧ t.clk.pll[i].unlockSeen = true ∧
          t.clk.pll[i].band = s.clk.pll[i].band ∧ t.flt.sticky.has (0x032 + i) = true ∧
          (i = 0 → t.clk.onBackup = (s.clk.onBackup || s.clk.backupOk)) ∧
          (∀ n : Fin 8, (i : Nat) = n / 2 + 1 → t.expo[n].blank.has .pll = true) ∧
          (i = 5 → ∀ p : Fin 4, t.ring.port[p].up = false) ∧
          (i = 6 → tab s.pwr.domain 0 6 = 2 → s.boot.linkTrained = true → ∀ q : Fin 8, t.host.q[q].enable = false))) ∧
    (∀ a b : Int,
      (s.boot.trimDefault = true → ∃ t, exec (.temperatureCompensationUpdate a b) s = .next t ∧
        t.clk = { s.clk with tempActive := false } ∧ t.flt = s.flt) ∧
      (s.boot.trimDefault = false → ∃ t, exec (.temperatureCompensationUpdate a b) s = .next t ∧ t.clk.tempActive = true ∧
        t.clk.pll = s.clk.pll ∧
        let x := dieReading s 0 a
        let y := dieReading s 1 b
        (s.clk.backupTrim < 4096 → ((t.clk.backupTrim : Int) - s.clk.backupTrim).natAbs ≤ 1 ∧ t.clk.backupTrim < 4096) ∧
        (s.clk.aonTrim < 1024 → ((t.clk.aonTrim : Int) - s.clk.aonTrim).natAbs ≤ 1 ∧ t.clk.aonTrim < 1024) ∧
        ((-400 ≤ x ∧ x ≤ 1250) → (-400 ≤ y ∧ y ≤ 1250) → t.clk.clamped = s.clk.clamped ∧ t.flt.sticky = s.flt.sticky) ∧
        ((x < -400 ∨ 1250 < x ∨ y < -400 ∨ 1250 < y) → s.flt.active.has 0x03A = false →
          t.clk.clamped = true ∧ t.flt.sticky.has 0x03A = true)))

/-- SCRUB_BURST, SCRUB_WRITE_BACK, MERGE_BUFFER_FLUSH, PAGE_RETIRE and MIGRATION_COMPLETE (R98 to R101, R105 to R107,
R110, R111, R113, R114, R116 to R119; the lowest free page by log 25, what stored poison keeps by log 104, the
pace of a copy by log 106). -/
def Obligations.StoreUpkeep : Prop :=
  ∀ s : State, Memory.wf s.store.mem = true →
    (s.store.scrubEnable = true → storeOn s = true → scrubDue s = true →
      let l := (scrubAt s).1
      (mergeOf s l = none → isPoison s l = false → remapped s l = false → ∀ (w : Fin 8) (syn : Nat),
        (∃ t, exec (.scrubBurst (.uncorrectable w syn [] [])) s = .next t ∧ l ∈ t.store.poison ∧ t.store.mem = s.store.mem ∧
          (∃ e ∈ t.store.log, e.addr = 64 * l + 8 * w ∧ e.kind = .uncorrectable ∧ e.agent = .scrubber) ∧
          ((∃ k : Fin 8, s.store.remap[k] = none) → remapped t l = true) ∧
          t.store.ue = min 255 (s.store.ue + 1) ∧ (collectorOn s = true → t.flt.sticky.has 0x1C1 = true)) ∧
        (∀ hard, ∃ t, exec (.scrubBurst (.corrected w syn [] hard)) s = .next t ∧
          t.store.scrubFix = s.store.scrubFix ++ [{ line := l, word := w.val, syndrome := syn, hard := hard }] ∧
          t.store.poison = s.store.poison ∧ t.store.mem = s.store.mem ∧ t.store.ce = min 65535 (s.store.ce + 1) ∧
          t.store.ceAddr = 64 * l + 8 * w)) ∧
      (∀ e : EccRead, mergeOf s l = none → (e = .clean ∨ isPoison s l = true ∨ remapped s l = true) → (scrubAt s).2 = false →
        (l + 1) % 16384 ≠ 0 →
        ∃ t, exec (.scrubBurst e) s = .next t ∧
          t.store = { s.store with scrubLine := l + 1, lastBurst := some (max (10 * s.eng.sincePor) (scrubFrom s)) } ∧ t.flt = s.flt) ∧
      (∀ e k, mergeOf s l = some k → ∃ t, exec (.scrubBurst e) s = .next t ∧ tab t.store.merge none k = none)) ∧
    ((s.store.scrubEnable = false ∨ storeOn s = false ∨ scrubDue s = false) → ∀ e, exec (.scrubBurst e) s = .next s) ∧
    (∀ x r, s.store.scrubFix = x :: r → storeOn s = true →
      (x.hard = false → ∃ t, exec .scrubWriteBack s = .next t ∧ t.store = { s.store with scrubFix := r } ∧ t.flt = s.flt) ∧
      (x.hard = true → (∃ k : Fin 8, s.store.remap[k] = none) → ∃ t, exec .scrubWriteBack s = .next t ∧ t.store.scrubFix = r ∧
        remapped t x.line = true ∧ t.store.mem = s.store.mem ∧ t.store.poison = s.store.poison)) ∧
    ((s.store.scrubFix = [] ∨ storeOn s = false) → exec .scrubWriteBack s = .next s) ∧
    (∀ k : Fin 16, storeOn s = true →
      (s.store.merge[k] = none → ∀ e, exec (.mergeBufferFlush k e) s = .next s) ∧
      (∀ m, s.store.merge[k] = some m → ∀ e : EccRead,
        ∃ t, exec (.mergeBufferFlush k e) s = .next t ∧ t.store.merge[k] = none ∧
          (∀ a, lineOf a = m.line → memGet t.store.mem a = (entryBytes s.store.mem m).getD (a % 64) 0) ∧
          (∀ a, lineOf a ≠ m.line → (s.store.migActive = false ∨ pageOf a ≠ s.store.migDest) →
            memGet t.store.mem a = memGet s.store.mem a) ∧
          (m.bytes.length = 64 → isPoison t m.line = m.poison ∧ t.flt = s.flt ∧ t.store.log = s.store.log) ∧
          (m.bytes.length < 64 → isPoison s m.line = true → isPoison t m.line = true ∧ t.flt = s.flt) ∧
          (m.bytes.length < 64 → isPoison s m.line = false → remapped s m.line = false → ∀ w syn more fixed,
            e = .uncorrectable w syn more fixed →
            isPoison t m.line = true ∧ (collectorOn s = true → t.flt.sticky.has 0x1C0 = true)))) ∧
    (∀ h page, s.takes h → h.job = 0 → inAny s = true → page ≤ 8191 →
      (page ∈ s.store.retired → ∃ t, exec (.pageRetire h page) s = .next t ∧ s.answered t h .ok false 0 ∧ t.store = s.store) ∧
      (page ∉ s.store.retired → s.store.migActive = true →
        ∃ t, exec (.pageRetire h page) s = .next t ∧ (∃ r, s.answered t h .busy false r) ∧ t.store = s.store) ∧
      (page ∉ s.store.retired → s.store.migActive = false → 512 ≤ s.store.retired.length →
        ∃ t, exec (.pageRetire h page) s = .next t ∧ (∃ r, s.answered t h .noRoom false r) ∧ t.store = s.store) ∧
      (page ∉ s.store.retired → s.store.migActive = false → s.store.retired.length < 512 →
        (s.heldPages.contains page = false → ∃ t, exec (.pageRetire h page) s = .next t ∧ s.answered t h .ok false 0 ∧
          page ∈ t.store.retired ∧ t.store.mem = s.store.mem ∧ t.jobs.jobs = s.jobs.jobs) ∧
        (s.heldPages.contains page = true → ∀ d, (s.freePages 1).head? = some d → ∃ t, exec (.pageRetire h page) s = .next t ∧
          t.store = { s.store with migSource := page, migActive := true, migAbandoned := false, migDone := 0, migDest := d } ∧
          t.host.retireReq = some (msgRef h s) ∧ t.host.out = s.host.out ∧ t.jobs.jobs = s.jobs.jobs))) ∧
    (s.store.migActive = true → storeOn s = true → ∀ upto,
      (16384 ≤ max s.store.migDone upto →
        ∃ t, exec (.migrationComplete { upto := upto, ecc := [] }) s = .next t ∧ t.store.migActive = false ∧ t.store.migDone = 16384 ∧
          s.store.migSource ∈ t.store.retired ∧ t.host.retireReq = none ∧
          t.jobs.jobs = s.jobs.jobs.map (Job.replacePage s.store.migSource s.store.migDest)) ∧
      (max s.store.migDone upto < 16384 →
        ∃ t, exec (.migrationComplete { upto := upto, ecc := [] }) s = .next t ∧ t.store.migActive = true ∧
          t.store.migDone = max s.store.migDone upto ∧ t.store.retired = s.store.retired ∧ t.jobs.jobs = s.jobs.jobs ∧
          t.host.retireReq = s.host.retireReq) ∧
      ((∀ k : Fin 16, s.store.merge[k] = none) → s.store.poison = [] →
        ∃ t, exec (.migrationComplete { upto := upto, ecc := [] }) s = .next t ∧
          (∀ i, 64 * s.store.migDone ≤ i → i < 64 * min 16384 (max s.store.migDone upto) →
            memGet t.store.mem (s.store.migDest * pageBytes + i) = memGet s.store.mem (s.store.migSource * pageBytes + i)) ∧
          (∀ a, pageOf a ≠ s.store.migDest → memGet t.store.mem a = memGet s.store.mem a) ∧ t.flt = s.flt)) ∧
    ((s.store.migActive = false ∨ storeOn s = false) → ∀ x, exec (.migrationComplete x) s = .next s)

/-- BAR2_READ, BAR2_WRITE and BAR2_BASE_WRITE (R124 to R127). -/
def Obligations.Bar2Aperture : Prop :=
  ∀ s : State, regOpen 4 s = true → Memory.wf s.store.mem = true →
    let own (a : Nat) : Prop := s.store.migActive = false ∨ pageOf a ≠ s.store.migDest
    let at' (x : BitVec 28) : Nat := s.store.bar2Base * 0x100000 + x.toNat
    (∀ (x : BitVec 28) (d : List Byte), s.eng.state ≠ .service → ∃ t, exec (.bar2Write x d) s = .next t ∧
      t.store = { s.store with wrDrop := min 65535 (s.store.wrDrop + 1) } ∧ t.host = s.host ∧ t.flt = s.flt ∧ t.eng = s.eng) ∧
    (∀ (x : BitVec 28) (d : List Byte), s.eng.state = .service → ∃ t, exec (.bar2Write x d) s = .next t ∧
      (storeOn s = true → t.store.wrDrop = if hitsRetired (at' x) (min d.length (0x10000000 - x.toNat)) s then
        min 65535 (s.store.wrDrop + 1) else s.store.wrDrop) ∧ t.eng = s.eng ∧
      (storeOn s = true → (∀ i, i < min d.length (0x10000000 - x.toNat) → pageOf (at' x + i) ∈ s.store.retired) →
        d ≠ [] → t = s.modStore fun u => { u with wrDrop := min 65535 (u.wrDrop + 1) }) ∧
      (∀ a, own a → pageOf a ∈ s.store.retired → (∀ k : Fin 16, ∀ m, s.store.merge[k] = some m → m.line ≠ lineOf a) →
        memGet t.store.mem a = memGet s.store.mem a) ∧
      ((∀ k : Fin 16, s.store.merge[k] = none) → storeOn s = true → x.toNat % 8 = 0 → d.length % 8 = 0 → t.host = s.host ∧ t.flt = s.flt ∧
        (∀ i, i < d.length → x.toNat + i < 0x10000000 → own (at' x + i) → pageOf (at' x + i) ∉ s.store.retired →
          memGet t.store.mem (at' x + i) = d.getD i 0) ∧
        (∀ a, own a → a < at' x ∨ at' x + min d.length (0x10000000 - x.toNat) ≤ a → memGet t.store.mem a = memGet s.store.mem a))) ∧
    (∀ (x : BitVec 28) (len : Nat), s.eng.state ≠ .boot →
      ∃ t, exec (.bar2Read x len []) s = .next t ∧ t.eng = s.eng ∧ t.host.bar2Out.dropLast = s.host.bar2Out ∧
        ∃ r, t.host.bar2Out.getLast? = some r ∧
        r.1.length = min len (0x10000000 - x.toNat) ∧
        (∀ i, i < r.1.length → pageOf (at' x + i) ∈ s.store.retired → r.1.getD i 0 = 0xFF) ∧
        ((∀ k : Fin 16, s.store.merge[k] = none) → s.store.poison = [] → storeOn s = true → r.2 = false ∧ t.store = s.store ∧
          (∀ i, i < r.1.length → pageOf (at' x + i) ∉ s.store.retired → r.1.getD i 0 = memGet s.store.mem (at' x + i)))) ∧
    (∀ (x : BitVec 28) (len : Nat), s.eng.state = .boot → exec (.bar2Read x len []) s = .next s) ∧
    (∀ v : Word,
      (v.toNat % 8192 ≤ 7936 → ∃ t, exec (.bar2BaseWrite v) s = .next t ∧
        t.store = { s.store with bar2Base := v.toNat % 8192 } ∧ t.host = s.host) ∧
      (7936 < v.toNat % 8192 → exec (.bar2BaseWrite v) s = .next s))

/-- DECODE_LINE, SPOIL_RECORD_POST, WASTE_MARKER and WASTE_MIN_EXPIRY (R88, R91, R92, R135 to R144, R217; the span that WASTE_L
follows by log 80, re-synchronisation by log 96). -/
def Obligations.DecodersAndSpoilReports : Prop :=
  ∀ s : State,
    (∀ (n : Fin 8) (ecc : List (Nat × EccRead)), (∀ src, inR src 0x1C0 0x1CA = true → codeOf s src 0 < 2) →
      (decodeJob s = none → exec (.decodeLine n ecc) s = .next s) ∧
      (∀ x, decodeJob s = some x → ∀ j, s.job? x.1 = some j →
        (j.stations.getLsbD n = false → exec (.decodeLine n ecc) s = .next s) ∧
        (∀ k, decodeNumber s j n = some k → ∀ f, s.frameNo? x.1 k = some f →
          storeOn s = true → j.stations.getLsbD n = true → k < x.2 → s.dec[n].band.length < 64 →
          s.dec[n].cur = some (f.entry, k) → s.dec[n].blankTo = [] → f.base = none →
          let d := s.dec[n]
          let o := (sourceOf s j f n true d.own ecc).fullLine d.own d.nextLine (unpack d.above) (unpack d.aboveOver) true
          ∃ t, exec (.decodeLine n ecc) s = .next t ∧ t.dec[n].nextLine = d.nextLine + 1 ∧ t.dec[n].cur = d.cur ∧
            (∀ m : Fin 8, m ≠ n → t.dec[m] = s.dec[m]) ∧
            (linePassed s j.id k n d.nextLine = true → t.dec[n].band = d.band) ∧
            (linePassed s j.id k n d.nextLine = false → o.resync ++ o.bad = [] → o.ovr = none →
              t.dec[n].band = d.band ++ [{ number := k, entry := f.entry, line := d.nextLine, pixels := pack (o.base.getD []),
                                           blank := none }] ∧ t.dec[n].blanked = d.blanked) ∧
            (lineCode (o.resync ++ o.bad) = some 0 → t.dec[n].blanked = d.blanked ∧
              (linePassed s j.id k n d.nextLine = false →
                t.dec[n].band = d.band ++ [{ number := k, entry := f.entry, line := d.nextLine, pixels := [],
                                             blank := some (0x01, 0x1C0) }])) ∧
            (∀ c, lineCode (o.resync ++ o.bad) = some c → c ≠ 0 →
              t.dec[n].blanked = min 65535 (d.blanked + 1) ∧
              t.dec[n].check = (o.bad.filter (· != 0)).getLast?.getD c ∧ t.dec[n].lastLine = d.nextLine ∧
              (linePassed s j.id k n d.nextLine = false →
                t.dec[n].band = d.band ++ [{ number := k, entry := f.entry, line := d.nextLine, pixels := [],
                                             blank := some (0x02, if c = 13 then 0x1C8 else 0x1C9) }]) ∧
              (collectorOn s = true → t.flt.sticky.has (if c = 13 then 0x1C8 else 0x1C9) = true))))) ∧
    (s.jobs.outcome = [] → exec .spoilRecordPost s = .next s) ∧
    (∀ p, s.jobs.outcome = [p] →
      ∃ t, exec .spoilRecordPost s = .next t ∧ t.jobs.outcome = [] ∧ t.jobs.waste = s.jobs.waste ++ [wasteSpan s p] ∧
        (s.jobs.spoil.length < 1024 → t.jobs.spoil = s.jobs.spoil ++ [p.record s.jobs.spoilSeq] ∧
          t.jobs.spoilSeq = s.jobs.spoilSeq + 1) ∧
        (1024 ≤ s.jobs.spoil.length → t.jobs.spoilMerged = true ∧ t.jobs.spoilSeq = s.jobs.spoilSeq ∧
          t.jobs.spoil.length = s.jobs.spoil.length) ∧
        (960 ≤ t.jobs.spoil.length → s.flt.active.has 0x1F3 = false → collectorOn s = true → t.flt.sticky.has 0x1F3 = true)) ∧
    (s.jobs.wasteLow = none →
      (wasteDue s = true → ∃ t, exec .wasteMarker s = .next t ∧ t.jobs.wasteLow = some false ∧ t.jobs.spoil = s.jobs.spoil ∧
        t.flt = s.flt) ∧
      (wasteDue s = false → exec .wasteMarker s = .next s) ∧ exec .wasteMinExpiry s = .next s) ∧
    (s.jobs.wasteLow ≠ none →
      (wasteDue s = true → ∃ t, exec .wasteMinExpiry s = .next t ∧ t.jobs.wasteLow ≠ none ∧ t.flt = s.flt) ∧
      (wasteDue s = false → ∃ t, exec .wasteMinExpiry s = .next t ∧ t.jobs.wasteLow = none ∧ t.flt = s.flt) ∧
      exec .wasteMarker s = .next s)

/-- SPINDLE_RUN_COMMAND, SPINDLE_SENSE_TIMEOUT, ALIGN_TIMEOUT, ZERO_CROSSING, ZERO_CROSSING_TIMEOUT, PWM_PERIOD, SHORT_TIMEOUT,
STOP_TIMEOUT, CATCH_TIMEOUT and COAST_BACK_EMF_TIMEOUT (R258, R262 to R264, R267 to R269, R275 to R281, table "Channel
transitions"; legs of a sector by log 38, loop arithmetic by log 37, commutation in steps of a PWM period by log 97, TRIES
of the last start by log 99, what a row owes at the tick's end by log 126). -/
def Obligations.SpindleChannelTransitions : Prop :=
  ∀ (s : State) (n : Fin 8),
    let c := s.sp[n]
    let run := runWanted s n
    let mild (src : Nat) : Prop := codeOf s src 0 < 2
    let goes (i : Instr) (toV : SpState) (p : Spindle → Prop) : Prop :=
      ∃ t, exec i s = .next t ∧ t.sp[n].state = toV ∧ p t.sp[n] ∧ (∀ m : Fin 8, m ≠ n → t.sp[m] = s.sp[m])
    (c.state = .off → run = true → c.barred = false →
      (gatesInhibited s = false → goes (.spindleRunCommand n) .sense fun d => d.tries = 0 ∧ d.gates = 0) ∧
      (gatesInhibited s = true → goes (.spindleRunCommand n) .coast fun d => d.gates = 0)) ∧
    (c.state = .off → run = false → goes (.spindleRunCommand n) .off fun d => d.gates = c.gates ∧ d.barred = false) ∧
    (c.state = .sense → run = true → s.spBus.vcpUv = false → c.bsHold = 0 →
      goes (.spindleSenseTimeout n) .align fun d => d.reverse = dirWanted s n ∧ d.gates = 0b101001 ∧ d.iCmd = spQ s.img n 40) ∧
    (c.state = .sense → run = false → goes (.spindleSenseTimeout n) .short fun d => d.duty = 0) ∧
    (c.state = .sense → ∀ m, goes (.zeroCrossing n m) .coast fun d => d.gates = 0 ∧ d.catching = true) ∧
    (c.state = .align → goes (.alignTimeout n) .ramp fun d => d.sector = 0 ∧ d.rampRate = 0 ∧ d.iCmd = spQ s.img n 44) ∧
    ((c.state = .align ∨ c.state = .ramp) → run = false → goes (.spindleRunCommand n) .short fun d => d.duty = 0) ∧
    (c.state = .ramp → ∀ m : ZcMeas, m.openErr.natAbs ≤ 240 →
      (s.img.spB n 12 ≤ c.agree + 1 → goes (.zeroCrossing n m) .closed fun d => d.integ = 0 ∧ d.setPoint = d.forward) ∧
      (c.agree + 1 < s.img.spB n 12 → goes (.zeroCrossing n m) .ramp fun d => d.agree = c.agree + 1)) ∧
    (c.state = .closed →
      (run = false → goes (.spindleRunCommand n) .brake fun d => d.locked = false ∧ d.freqOk = false) ∧
      (∀ m : ZcMeas, 80 ≤ m.rampDist → implausible s.img n c m.interval = false →
        goes (.zeroCrossing n m) .closed fun d => d.speed = m.speed ∧
          d.comm = some ((30 * 8 - (c.adv : Int)) * 2 ^ 21) ∧ d.lastInterval = some m.interval ∧
          d.sector = if c.comm.any fun x => decide (0 < x) then (c.sector + if c.reverse then 5 else 1) % 6 else c.sector) ∧
      (∀ m : ZcMeas, m.rampDist < 80 → exec (.zeroCrossing n m) s = .next s) ∧
      (∃ t, exec (.zeroCrossingTimeout n) s = .next t ∧ t.sp[n].state = .coast ∧ t.sp[n].gates = 0 ∧ t.sp[n].freqOk = false ∧
        t.sp[n].syncLosses = min 255 (c.syncLosses + 1) ∧ t.scan[n].learned = false ∧ t.flt = s.flt ∧
        (t.sp[n].turn.any fun u => u.owed.contains .syncLoss) = true)) ∧
    (s.pending = [] → collectorOn s = true →
      ((c.turn.any fun u => u.owed.contains .syncLoss) = true →
        ∃ t, step s = .next t ∧ t.sp[n].turn = none ∧ t.flt.sticky.has (0x043 + 5 * n) = true) ∧
      ((c.turn.any fun u => u.owed.contains .drive) = true →
        ∃ t, step s = .next t ∧ t.sp[n].turn = none ∧ t.flt.sticky.has (0x044 + 5 * n) = true)) ∧
    (c.state ≠ .closed → exec (.zeroCrossingTimeout n) s = .next s) ∧
    (c.state = .brake → run = true → dirWanted s n = c.reverse → goes (.spindleRunCommand n) .closed fun d => d.integ = 0) ∧
    (c.state = .short → c.barred = false →
      (run = true → (c.fresh = true ∨ c.tries < s.img.spB n 13) →
        goes (.shortTimeout n) .align fun d => d.tries = if c.fresh then 0 else c.tries) ∧
      (c.fresh = false → s.img.spB n 13 ≤ c.tries → goes (.shortTimeout n) .off fun d => d.startFail = true ∧ d.barred = run ∧
        d.gates = 0 ∧ (d.turn.any fun u => u.owed.contains .drive) = true) ∧
      (run = false → (c.fresh = true ∨ c.tries < s.img.spB n 13) → goes (.shortTimeout n) .off fun d => d.gates = 0 ∧ d.speed = 0)) ∧
    ((c.state = .brake ∨ c.braking = true ∧ (c.state = .short ∨ c.state = .coast ∧ c.resting = false)) → mild (0x044 + 5 * n) → collectorOn s = true →
      ∃ t, exec (.stopTimeout n) s = .next t ∧ t.sp[n].state = .coast ∧ t.sp[n].gates = 0 ∧ t.sp[n].resting = true ∧
        t.flt.sticky.has (0x044 + 5 * n) = true) ∧
    (c.state ≠ .brake → c.braking = false → exec (.stopTimeout n) s = .next s) ∧
    (c.state = .coast →
      ((run = false ∨ c.barred = true) → goes (.coastBackEmfTimeout n) .off fun d => d.speed = 0 ∧ d.gates = 0) ∧
      (c.catching = true → c.resting = false → gatesInhibited s = false → run = true → atLow s n = false →
        goes (.catchTimeout n) .coast fun d => d.catching = false ∧ d.catchFail = true) ∧
      (c.catching = false → exec (.catchTimeout n) s = .next s) ∧
      (∀ m : ZcMeas, c.catching = true → c.resting = false → gatesInhibited s = false → run = true →
        decide (m.speed < 0) = dirWanted s n → c.lastInterval = some m.interval → s.img.spB n 12 ≤ c.agree + 1 →
        spQ s.img n 52 < 2 * (m.speed.natAbs : Int) * 1048576 → spQ s.img n 68 ≤ (m.speed.natAbs : Int) * 1048576 →
        goes (.zeroCrossing n m) .closed fun d => d.setPoint = d.forward ∧ d.speed = m.speed ∧ d.reverse = dirWanted s n)) ∧
    (s.img.spindleEn n = true → s.img.has 9 = true → ∀ m : PwmMeas,
      (∃ t, exec (.pwmPeriod n m) s = .next t ∧ t.spBus.vbus = m.vbus ∧ t.sp[n].speed = m.speed ∧ t.sp[n].id = m.id ∧
        t.sp[n].regenLim = decide (s.img.vbusCeil < m.vbus + s.img.regenBand)) ∧
      (c.state = .closed → goes (.pwmPeriod n m) .closed fun d => d.duty = min 4095 m.duty ∧
        (-(brakeLimit s.img n m.vbus) ≤ spQ s.img n 36 → d.iCmd ≤ spQ s.img n 36 ∧ -(brakeLimit s.img n m.vbus) ≤ d.iCmd)) ∧
      (c.state = .ramp → (m.speed.natAbs : Int) * 1048576 < spQ s.img n 52 →
        goes (.pwmPeriod n m) .ramp fun d => d.rampRate = c.rampRate + spQ s.img n 48 / (max 1 (pwmHz s.img n) : Nat) ∧
          d.tries = c.tries) ∧
      (c.state = .ramp → spQ s.img n 52 ≤ (m.speed.natAbs : Int) * 1048576 →
        goes (.pwmPeriod n m) .short fun d => d.tries = c.tries + 1) ∧
      (c.state = .brake → 2 * (m.speed.natAbs : Int) * 1048576 ≤ spQ s.img n 52 →
        goes (.pwmPeriod n m) .short fun d => d.fresh = true ∧ d.tries = c.tries) ∧
      (c.state = .coast → c.resting = false → gatesInhibited s = false →
        2 * (m.speed.natAbs : Int) * 1048576 ≤ spQ s.img n 52 → goes (.pwmPeriod n m) .short fun d => d.fresh = true ∧ d.tries = c.tries))

/-- SP_DESAT, SP_OVERCURRENT, SP_BOOT_UV, VCP_UV, VCP_UV_RELEASE, VBUS_SP_UV, VBUS_SP_OV, VBUS_SP_INHIBIT_RELEASE, RPS_BLOCK and the
pin commands of a channel (R259, R263, R283, R285 to R289, R291, R292; RPS_BLOCK as a condition by log 23). -/
def Obligations.GateDriveAndBridgeSupplies : Prop :=
  ∀ s : State, collectorOn s = true →
    let allOff (t : State) : Prop := (∀ n : Fin 8, t.sp[n].gates = 0 ∧
      (s.sp[n].state ≠ .off → s.sp[n].state ≠ .halted → t.sp[n].state = .coast))
    (∀ (n : Fin 8) (g : Fin 6), ∃ t, exec (.spDesat n g) s = .next t ∧ t.sp[n].desat = s.sp[n].desat ||| (1#6 <<< g.val) ∧
      t.sp[n].events = min 65535 (s.sp[n].events + 1) ∧ (s.sp[n].firstLeg = 7 → t.sp[n].firstLeg = g ∧ t.sp[n].ovf = s.sp[n].ovf) ∧
      (s.sp[n].firstLeg ≠ 7 → t.sp[n].ovf = true) ∧ t.flt.sticky.has (0x040 + 5 * n) = true ∧
      t.sp[n].state = .halted ∧ t.sp[n].gates = 0 ∧ (∀ m : Fin 8, m ≠ n → t.sp[m] = s.sp[m])) ∧
    (∀ n : Fin 8, ∃ t, exec (.spOvercurrent n) s = .next t ∧ t.sp[n].oc = true ∧ t.sp[n].desat = s.sp[n].desat ∧
      t.sp[n].events = min 65535 (s.sp[n].events + 1) ∧ t.flt.sticky.has (0x041 + 5 * n) = true ∧ t.sp[n].state = .halted ∧
      t.sp[n].gates = 0 ∧ (∀ m : Fin 8, m ≠ n → t.sp[m] = s.sp[m])) ∧
    (∀ (n : Fin 8) (l : Fin 3), ∃ t, exec (.spBootUv n l) s = .next t ∧ t.sp[n].bsUv.getLsbD l = true ∧
      t.sp[n].gates.getLsbD (2 * l) = false ∧ t.sp[n].bsHold.getLsbD l = true ∧ t.flt.sticky.has (0x042 + 5 * n) = true) ∧
    (∀ v : Nat,
      (v < 85 → s.flt.active.has 0x068 = false → ∃ t, exec (.vcpUv v) s = .next t ∧
        t.spBus = { s.spBus with vcp := v, vcpUv := true } ∧ t.flt.sticky.has 0x068 = true ∧ allOff t) ∧
      (85 ≤ v → exec (.vcpUv v) s = .next s) ∧
      (90 < v → ∃ t, exec (.vcpUvRelease v) s = .next t ∧ t.spBus = { s.spBus with vcp := v, vcpUv := false } ∧
        t.flt.active.has 0x068 = false ∧ t.flt.sticky = s.flt.sticky ∧ (∀ n : Fin 8, t.sp[n].state = s.sp[n].state)) ∧
      (v ≤ 90 → exec (.vcpUvRelease v) s = .next s) ∧
      (v < 160 → s.flt.active.has 0x069 = false → ∃ t, exec (.vbusSpUv v) s = .next t ∧
        t.spBus = { s.spBus with vbus := v, vbusUv := true } ∧ t.flt.sticky.has 0x069 = true ∧ allOff t) ∧
      (160 ≤ v → exec (.vbusSpUv v) s = .next s) ∧
      (s.img.vbusCeil + 20 < v → s.flt.active.has 0x06A = false → ∃ t, exec (.vbusSpOv v) s = .next t ∧
        t.spBus = { s.spBus with vbus := v, vbusOv := true } ∧ t.flt.sticky.has 0x06A = true ∧ allOff t) ∧
      (v ≤ s.img.vbusCeil + 20 → exec (.vbusSpOv v) s = .next s) ∧
      (∃ t, exec (.vbusSpInhibitRelease v) s = .next t ∧ t.spBus = { s.spBus with
        vbus := v, vbusUv := s.spBus.vbusUv && decide (v ≤ 170), vbusOv := s.spBus.vbusOv && decide (s.img.vbusCeil ≤ v) } ∧
        t.flt.sticky = s.flt.sticky ∧ (∀ n : Fin 8, t.sp[n].state = s.sp[n].state))) ∧
    (∀ a b : Int, (s.img.rpsFitted = false → exec (.rpsBlock a b) s = .next s) ∧
      (s.img.rpsFitted = true → ∃ t, exec (.rpsBlock a b) s = .next t ∧
        t.spBus = { s.spBus with rpsOn := decide (16000 ≤ a ∧ b - a ≤ 30), rpsRev := decide (a < -1000) } ∧
        (a < -1000 → s.flt.active.has 0x06B = false → t.flt.sticky.has 0x06B = true) ∧
        (-1000 ≤ a → t.flt.sticky = s.flt.sticky))) ∧
    (∀ n : Fin 8,
      (∀ mV : Nat,
        (s.img.spSource n = 1 → ∃ t, exec (.spindleCommandSample n mV) s = .next t ∧
          t.sp[n].samples = (mV :: s.sp[n].samples).take 16 ∧ t.sp[n].state = s.sp[n].state ∧ t.flt = s.flt ∧
          ((∀ x ∈ (mV :: s.sp[n].samples).take 16, x < 100) → t.sp[n].cmd = 0)) ∧
        (s.img.spSource n ≠ 1 → exec (.spindleCommandSample n mV) s = .next s)) ∧
      (∀ high period : Nat,
        (s.img.spSource n = 2 → 20000 ≤ period → period ≤ 10000000 →
          ∃ t, exec (.spindleCommandEdge n high period) s = .next t ∧ t.flt = s.flt ∧
            t.sp[n] = { s.sp[n] with cmd := if 50 * high < period then 0 else spQ s.img n 100 * (high : Int) / (period : Int) }) ∧
        (s.img.spSource n = 3 → 10000 ≤ period → period ≤ 1000000000 →
          ∃ t, exec (.spindleCommandEdge n high period) s = .next t ∧ t.flt = s.flt ∧
            t.sp[n] = { s.sp[n] with cmd := spQ s.img n 100 * 1000000000 / (period : Int) }) ∧
        (s.img.spSource n ≠ 2 → s.img.spSource n ≠ 3 → exec (.spindleCommandEdge n high period) s = .next s)) ∧
      (s.img.spSource n = 2 → ∃ t, exec (.spindleCommandTimeout n) s = .next t ∧ t.sp[n].cmd = 0 ∧ t.sp[n].cmdLost = true ∧
        t.flt.sticky.has (0x044 + 5 * n) = true) ∧
      (s.img.spSource n = 3 → ∃ t, exec (.spindleCommandTimeout n) s = .next t ∧ t.sp[n] = { s.sp[n] with cmd := 0 } ∧ t.flt = s.flt) ∧
      (s.img.spSource n ≠ 2 → s.img.spSource n ≠ 3 → exec (.spindleCommandTimeout n) s = .next s))

/-- LD to BRF (R294 to R296, R299 to R301, R304; NaN and unlike zeros of MIN and MAX by log 41, where a command executes by log 43,
STALE of an indexed word by log 84). -/
def Obligations.LawPlainInstructions : Prop :=
  ∀ (s : State) (x : LawExec), s.canonical → x.fetchBad = false → x.differ = false →
    let u := lawUpsets x s
    let w (i : Nat) := opd u i
    let st (l : List Nat) : Bool := anyStale u l
    let e := LawExec.clean
    let does (c i : Instr) (puts : List (Nat × Fp.FNum × Bool)) : Prop :=
      s.fetches c → ∃ t, exec i s = .next t ∧ s.retires t u puts
    (∀ d a b : Nat,
      (∀ j : Nat, Fp.finite (w b).v = true → (j : Int) = clampI 0 255 (Fp.trunc (w b).v) →
        does (.ld e d a b) (.ld x d a b) [(d, w (a + j), st [a + j])] ∧
        does (.st e d a b) (.st x d a b) [(d + j, w a, st [a])]) ∧
      (Fp.finite (w b).v = true → (Fp.trunc (w b).v < 0 ∨ 255 < Fp.trunc (w b).v) → s.fetches (.ld e d a b) →
        ∃ t, exec (.ld x d a b) s = .next t ∧ t.law.clamp = true) ∧
      does (.mov e false d a b) (.mov x false d a b) [(d, w a, st [a])] ∧
      does (.mov e true d a b) (.mov x true d a b) [(d, Fp.FNum.of (BitVec.ofNat 32 (a * 65536 + b)), false)] ∧
      does (.add e d a b) (.add x d a b) [(d, (w a).add (w b), st [a, b])] ∧
      does (.sub e d a b) (.sub x d a b) [(d, (w a).sub (w b), st [a, b])] ∧
      does (.mul e d a b) (.mul x d a b) [(d, (w a).mul (w b), st [a, b])] ∧
      does (.mac e d a b) (.mac x d a b) [(d, (w d).mac (w a) (w b), st [d, a, b])] ∧
      does (.min e d a b) (.min x d a b) [(d, (w a).min (w b), st [a, b])] ∧
      does (.max e d a b) (.max x d a b) [(d, (w a).max (w b), st [a, b])] ∧
      does (.sel e d a b) (.sel x d a b) [(d, if s.law.c then w a else w b, st [a, b])] ∧
      (∀ c : Fin 6, let h := match c with
          | 0 => (w b).lt (w a) | 1 => (w b).le (w a) | 2 => (w a).eq (w b) | 3 => !(w a).eq (w b) | 4 => (w a).lt (w b)
          | 5 => (w a).le (w b)
        s.fetches (.cmp e c d a b) → ∃ t, exec (.cmp x c d a b) s = .next t ∧ t.law.c = h ∧
          s.retires t u [(d, if h then Fp.FNum.one else Fp.FNum.of 0, st [a, b])])) ∧
    (∀ d a : Nat, does (.abs e d a) (.abs x d a) [(d, (w a).abs, st [a])]) ∧
    (∀ (inv : Bool) (a n : Nat), s.fetches (.brf e inv a n) → ∃ t, exec (.brf x inv a n) s = .next t ∧
      t.law.pc = s.law.pc + 1 + (if (w a).zero = inv then n else 0) ∧ (∀ k, dget t k = dget u k) ∧ t.law.due = s.law.due ∧
      t.law.c = s.law.c) ∧
    (∀ d a b : Nat, decodeLaw (progWord s s.law.pc) ≠ some (.add e d a b) → s.law.progBad.contains s.law.pc = false →
      exec (.add x d a b) s = .next s)

/-- LIM to SVM (R296, R299, R302, R304, tables "Instruction set" and "Bypass behaviour"; quotients, sines and cosines within
their bound of R296). -/
def Obligations.LawBlockAndTransformInstructions : Prop :=
  ∀ (s : State) (x : LawExec), s.canonical → x.fetchBad = false → x.differ = false →
    let u := lawUpsets x s
    let w (i : Nat) := opd u i
    let st (l : List Nat) : Bool := anyStale u l
    let e := LawExec.clean
    let does (c i : Instr) (puts : List (Nat × Fp.FNum × Bool)) : Prop :=
      s.fetches c → ∃ t, exec i s = .next t ∧ s.retires t u puts
    (∀ (y : Bool) (d a b : Nat),
      let k := if y then b + 1 else b
      let off := y && !(w b).zero
      let g := st [a]
      let sl := (w (k + 2)).add (Fp.FNum.limit (w (k + 1)).neg (w k) ((w a).sub (w (k + 2))))
      let lp := (w (k + 1)).add ((w k).mul ((w a).sub (w (k + 1))))
      let by' := ((w k).mul (w a)).add (w (k + 5))
      let pre := biqPreload (w k) (w (k + 1)) (w (k + 2)) (w (k + 3)) (w (k + 4)) (w a)
      let pi := Fp.FNum.limit (w (k + 2)) (w (k + 3)) ((w (k + 4)).add ((w (k + 1)).mul (w a)))
      let it := Fp.FNum.limit (w (k + 1)) (w (k + 2)) ((w (k + 3)).add ((w k).mul (w a)))
      does (.lim e y d a b) (.lim x y d a b) [(d, if off then w a else Fp.FNum.limit (w k) (w (k + 1)) (w a), g)] ∧
      does (.slew e y d a b) (.slew x y d a b) [(k + 2, if off then w a else sl, g), (d, if off then w a else sl, g)] ∧
      does (.lpf e y d a b) (.lpf x y d a b) [(k + 1, if off then w a else lp, g), (d, if off then w a else lp, g)] ∧
      does (.biq e y d a b) (.biq x y d a b) (if off then [(d, w a, g), (k + 5, pre.1, g), (k + 6, pre.2, g)] else
        [(d, by', g), (k + 5, (((w (k + 1)).mul (w a)).sub ((w (k + 3)).mul by')).add (w (k + 6)), g),
         (k + 6, ((w (k + 2)).mul (w a)).sub ((w (k + 4)).mul by'), g)]) ∧
      does (.pi e y d a b) (.pi x y d a b) (if off then [(d, w a, g)] else
        [(k + 4, pi, g), (d, Fp.FNum.limit (w (k + 2)) (w (k + 3)) (((w k).mul (w a)).add pi), g)]) ∧
      does (.intg e y d a b) (.intg x y d a b) [(k + 3, if off then w a else it, g), (d, if off then w a else it, g)] ∧
      does (.diff e y d a b) (.diff x y d a b)
        (if off then [(d, w a, g), (k + 1, w a, g)] else [(d, (w k).mul ((w a).sub (w (k + 1))), g), (k + 1, w a, g)])) ∧
    (∀ d a b : Nat,
      let g := st [a, a + 1, b, b + 1]
      does (.clarke e false d a) (.clarke x false d a)
        [(d, w a, st [a, a + 1]), (d + 1, ((w a).add (Fp.FNum.two.mul (w (a + 1)))).mul Fp.FNum.invSqrt3, st [a, a + 1])] ∧
      does (.clarke e true d a) (.clarke x true d a)
        [(d, (((Fp.FNum.two.mul (w a)).sub (w (a + 1))).sub (w (a + 2))).mul Fp.FNum.third, st [a, a + 1, a + 2]),
         (d + 1, ((w (a + 1)).sub (w (a + 2))).mul Fp.FNum.invSqrt3, st [a, a + 1, a + 2])] ∧
      does (.park e d a b) (.park x d a b)
        [(d, ((w a).mul (w (b + 1))).add ((w (a + 1)).mul (w b)), g),
         (d + 1, ((w a).neg.mul (w b)).add ((w (a + 1)).mul (w (b + 1))), g)] ∧
      does (.ipark e d a b) (.ipark x d a b)
        [(d, ((w a).mul (w (b + 1))).sub ((w (a + 1)).mul (w b)), g),
         (d + 1, ((w a).mul (w b)).add ((w (a + 1)).mul (w (b + 1))), g)] ∧
      does (.sincos e d a) (.sincos x d a) [(d, (w a).sin, st [a]), (d + 1, (w a).cos, st [a])] ∧
      does (.svm e d a b) (.svm x d a b)
        (let r := svmDuties (w a) (w (a + 1)) (w b)
         [(d, r.1, st [a, a + 1, b]), (d + 1, r.2.1, st [a, a + 1, b]), (d + 2, r.2.2, st [a, a + 1, b])]))

/-- OBS, HOLD, SHARE, IN, OUT and END, and what a fetch error and a difference do to any instruction (R303, R305, R306, R308, R319,
R321 to R325). -/
def Obligations.LawPortsSupervisionAndTraps : Prop :=
  ∀ s : State, s.canonical →
    (∀ x : LawExec, x.fetchBad = false → x.differ = false →
      let u := lawUpsets x s
      let w (i : Nat) := opd u i
      let e := LawExec.clean
      (∀ d a b : Nat, s.fetches (.obs e d a b) →
        let pred := (w (b + 7)).add ((w b).mul (w a))
        let r := (w (a + 1)).sub pred
        let rl := residualLimit u (quantity (w (b + 5))) (w (b + 3))
        let rf := (w (b + 8)).add ((w (b + 2)).mul (r.sub (w (b + 8))))
        let est := pred.add ((w (b + 1)).mul r)
        let n := if (w (b + 10)).zero then (if rl.lt rf.abs then (w (b + 9)).add Fp.FNum.one else Fp.FNum.of 0) else w (b + 9)
        ((anyStale u [a + 1] = false ∧ ((w (b + 10)).zero = true ∨ r.abs.le rl = true)) →
          ∃ t, exec (.obs x d a b) s = .next t ∧ s.retires t u
            [(b + 8, rf, false), (b + 7, est, false), (b + 11, Fp.FNum.one, false), (b + 9, n, false), (d, est, false), (d + 1, rf, false)] ∧
            ((t.law.plaus.getLsbD (quantity (w (b + 5)))) = (w (b + 4)).le n)) ∧
        ((anyStale u [a + 1] = true ∨ ((w (b + 10)).zero = false ∧ r.abs.le rl = false)) →
          ∃ t, exec (.obs x d a b) s = .next t ∧ s.retires t u
            [(b + 7, pred, false), (b + 11, Fp.FNum.of 0, false), (d, pred, false), (d + 1, w (b + 8), false)])) ∧
      (∀ d a b : Nat, s.fetches (.hold e d a b) →
        let h := ((w (b + 10)).add Fp.FNum.one).min (Fp.FNum.of 0x42820000)
        ((anyStale u [a] = false ∧ ((w (b + 10)).zero = true ∨ (w (b + 11)).zero = false)) →
          ∃ t, exec (.hold x d a b) s = .next t ∧ s.retires t u [(d, w a, false), (b + 10, Fp.FNum.of 0, false)] ∧
            t.law.hold.getLsbD (quantity (w (b + 5))) = false) ∧
        ((anyStale u [a] = true ∨ ((w (b + 10)).zero = false ∧ (w (b + 11)).zero = true)) →
          ∃ t, exec (.hold x d a b) s = .next t ∧ s.retires t u [(d, w (b + 7), false), (b + 10, h, false)] ∧
            t.law.hold.getLsbD (quantity (w (b + 5))) = (Fp.FNum.of 0).lt h ∧
            (h.eq ((w (b + 6)).add Fp.FNum.one) = true → s.law.holdEp.getLsbD (quantity (w (b + 5))) = false →
              collectorOn s = true → t.flt.sticky.has (0x111 + 2 * quantity (w (b + 5))) = true))) ∧
      (∀ d a c : Nat, s.fetches (.share e d a c) →
        ∃ t, exec (.share x d a c) s = .next t ∧
          (∀ v, s.law.shareIn.lookup c = some (v, false) → s.retires t u [(d, Fp.FNum.of v, anyStale u [a])]) ∧
          (∀ v, s.law.shareIn.lookup c = some (v, true) → s.retires t u [(d, w d, true)]) ∧
          (s.law.shareIn.lookup c = none → s.retires t u [(d, w d, false)]) ∧
          (s.img.chanSender c = some s.ring.index → t.law.shareNew.lookup c = some (w a).norm.v) ∧
          (s.img.chanSender c ≠ some s.ring.index → t.law.shareNew = s.law.shareNew)) ∧
      (∀ d p : Nat, s.fetches (.inp e d p) → ∀ l, (s.law.latched.find? fun y => y.port = p) = some l →
        ∃ t, exec (.inp x d p) s = .next t ∧ s.retires t u [(d, Fp.FNum.of l.v, !l.fresh)]) ∧
      (∀ a p : Nat, s.fetches (.out e a p) →
        ∃ t, exec (.out x a p) s = .next t ∧ t.law.outNew.lookup p = some (w a).norm.v ∧ t.law.outPorts = s.law.outPorts ∧
          (∀ k, dget t k = dget u k) ∧ t.law.pc = s.law.pc + 1) ∧
      (s.fetches (.endp e) → (∀ i ∈ linkReads u (s.law.due.headD 0), (dget u i).bad = false) →
        (∀ p r, s.law.due = p :: r → r ≠ [] → ∃ t, exec (.endp x) s = .next t ∧ t.law.due = r ∧
          t.law.pc = s.img.prEntry (r.headD 0) ∧ t.law.c = false ∧ t.law.outPorts = s.law.outPorts) ∧
        (∀ p, s.law.due = [p] → s.ramp.active = false → ∃ t, exec (.endp x) s = .next t ∧ t.law.due = [] ∧ t.law.outNew = [] ∧
          t.law.outPorts = s.law.outNew.foldl (fun o y => putPort y.1 y.2 o) s.law.outPorts ∧
          t.law.shareOut = s.law.shareNew ∧ t.law.last = min 65535 (s.law.cycles + 1)))) ∧
    (∀ (c : Instr) (x : LawExec), lawRunning s = true → s.law.due ≠ [] →
      (Instr.isLaw c = true → (x.fetchBad = true ∨ s.law.progBad.contains s.law.pc = true) →
        ∃ t, exec (Instr.withMarks x c) s = .next t ∧ t.law.halted = true ∧ t.law.trapKind = .fetch ∧ t.law.trapPc = s.law.pc ∧
          t.law.trapProg = s.law.due.headD 0 ∧ t.law.due = [] ∧ t.law.outPorts = s.law.outPorts ∧
          (∀ k, dget t k = dget s k) ∧ (collectorOn s = true → t.flt.sticky.has 0x101 = true)) ∧
      (s.fetches c → x.fetchBad = false → x.differ = true →
        ∃ t, exec (Instr.withMarks x c) s = .next t ∧ t.law.halted = true ∧ t.law.trapKind = .lockstep ∧ t.law.trapPc = s.law.pc ∧
          t.law.trapProg = s.law.due.headD 0 ∧ t.law.due = [] ∧ t.law.outPorts = s.law.outPorts ∧
          (collectorOn s = true → t.flt.sticky.has 0x100 = true)))

/-- BASE_SAMPLE_BOUNDARY, INPUT_WINDOW_CLOSE, OUTPUT_RESERVE_START, LAW_CONTROL_WRITE and RAMP_AXIS_TIMEOUT (R297, R303, R308,
R311 to R313, R326, R327, R331, R347, R354; what the checks of a restart cover by log 89). -/
def Obligations.LawSample : Prop :=
  ∀ s : State, s.canonical →
    (s.eng.state = .down →
      (tab s.pwr.domain 0 6 ≠ 2 → exec .baseSampleBoundary s = .next s ∧ exec .inputWindowClose s = .next s) ∧
      (tab s.pwr.domain 0 6 = 2 →
        (∃ t, exec .baseSampleBoundary s = .next t ∧ t.law = s.law ∧ t.eng = s.eng ∧ t.flt = s.flt ∧
          (∀ b : Fin 4, t.bus[b].duty = chopDuty s b) ∧
          ∀ i : Fin 8, s.img.linkUse i ≠ 0 → t.stage[i].sample = s.now / s.img.tS % 65536 ∧ t.stage[i].valid = false) ∧
        (∃ t, exec .inputWindowClose s = .next t ∧ t.law = s.law ∧ t.eng = s.eng ∧ t.flt = s.flt))) ∧
    (s.eng.state ≠ .down →
      (∃ t, exec .baseSampleBoundary s = .next t ∧ t.law.sample = s.now / s.img.tS % 2 ^ 32 ∧ t.law.stopped = s.law.stop ∧
        t.law.stop = s.law.stop ∧ t.law.outPorts = s.law.outPorts ∧ t.law.rawAt = s.anch.raw ∧
        (∀ i : Fin 8, s.img.linkUse i ≠ 0 → t.stage[i].sample = s.now / s.img.tS % 65536 ∧ t.stage[i].valid = false ∧
          t.stage[i].echoed = false ∧ (∀ k : Fin 2, t.stage[i].slot[k].fresh = false)) ∧
        (s.host.paramWait = none → s.host.modifyWait = [] → ∀ a, s.law.links = [a] →
          (s.law.data.all fun x => !x.2.bad) = true →
          dget t a.dest = { v := if a.steps ≤ a.i + 1 then a.x else Fp.flush (Fp.ofRat
              (Fp.exact a.v * a.steps + (Fp.exact a.x - Fp.exact a.v) * (a.i + 1 : Nat)) (2 ^ 149 * a.steps)), stale := a.stale, bad := false } ∧
          (∀ i, i ≠ a.dest → dget t i = dget s i) ∧
          t.law.links = (if a.i + 1 < a.steps then [{ a with i := a.i + 1 }] else [])) ∧
        (s.law.restart = true → s.law.prgBad = false → s.law.progBad = [] → t.law.restart = false ∧ t.law.halted = false ∧
          t.law.due = [] ∧ t.law.c = false) ∧
        (s.law.restart = true → (s.law.prgBad = true ∨ s.law.progBad ≠ []) → t.law.restart = false ∧ t.law.halted = true ∧
          t.law.prgBad = true) ∧
        (s.law.restart = false → t.law.halted = s.law.halted)) ∧
      (∃ t, exec .inputWindowClose s = .next t ∧
        (∀ i : Fin 8, s.stage[i].up = true →
          t.stage[i].echoErr = (if s.stage[i].echoed then s.stage[i].echoErr else min 255 (s.stage[i].echoErr + 1))) ∧
        (lawRunning s = true → t.law.due = dueIn s.img (s.now / s.img.tS) ∧ t.law.c = false ∧ t.law.cycles = 0 ∧
          t.law.pc = s.img.prEntry ((dueIn s.img (s.now / s.img.tS)).headD 0) ∧ t.law.outNew = []) ∧
        (lawRunning s = false → t.law.due = s.law.due ∧ t.law.pc = s.law.pc) ∧
        t.law.latched.map (·.port) = portsRead s ∧ t.law.outPorts = s.law.outPorts ∧ (∀ i, dget t i = dget s i))) ∧
    (s.law.due ≠ [] → lawRunning s = true →
      ∃ t, exec .outputReserveStart s = .next t ∧ t.law.halted = true ∧ t.law.trapKind = .overrun ∧ t.law.trapPc = s.law.pc ∧
        t.law.trapProg = s.law.due.headD 0 ∧ t.law.due = [] ∧ t.law.outNew = [] ∧ t.law.outPorts = s.law.outPorts ∧
        (∀ h : Fin 4, t.htr.on[h] = false) ∧ (collectorOn s = true → t.flt.sticky.has 0x102 = true)) ∧
    ((s.law.due = [] ∨ lawRunning s = false) → exec .outputReserveStart s = .next s) ∧
    (∀ v : Word, regOpen 2 s = true →
      ((s.eng.state = .idle ∨ s.eng.state = .service) →
        (s.law.stop = false → v.getLsbD 0 = true → ∃ t, exec (.lawControlWrite v) s = .next t ∧
          t.law = { s.law with stop := true } ∧ (∀ h : Fin 4, t.htr.on[h] = false) ∧ t.flt = s.flt) ∧
        (s.law.stop = true → v.getLsbD 0 = false →
          (programRamOk s = true → ∃ t, exec (.lawControlWrite v) s = .next t ∧
            t.law = { s.law with stop := false, restart := true, worst := worstCost s.img s.law.prog }) ∧
          (programRamOk s = false → ∃ t, exec (.lawControlWrite v) s = .next t ∧ t.law = { s.law with checkFail := true })) ∧
        (v.getLsbD 0 = s.law.stop → exec (.lawControlWrite v) s = .next s)) ∧
      (s.eng.state ≠ .idle → s.eng.state ≠ .service → exec (.lawControlWrite v) s = .next s)) ∧
    (∀ a : Fin 16,
      ((s.ramp.active = false ∨ rampOver s a = false) → exec (.rampAxisTimeout a) s = .next s) ∧
      (s.ramp.active = true → rampOver s a = true → ∃ t, exec (.rampAxisTimeout a) s = .next t ∧
        ((s.eng.state ≠ .belay ∨ s.eng.stop ≠ .ramp ∨ (∃ b ∈ enabledAxes s.img, b ≠ a ∧ tab s.ramp.off true b = false)) →
          t.ramp.off[a] = true ∧ t.eng = s.eng) ∧
        (s.eng.state = .belay → s.eng.stop = .ramp → (∀ b ∈ enabledAxes s.img, b ≠ a → tab s.ramp.off true b = true) →
          t.eng.state = .safe ∧ t.eng.prev = .belay ∧ t.eng.cause = if s.anch.still then 0x06 else 0x10)))

/-- Round trip of the instruction words of the law engine and of the DMA engine (R298, R299, R307, R473, tables "Instruction set"
and "DMA instruction encodings"). -/
def Obligations.WordsSpellTheirCommands : Prop :=
  (∀ c : Instr, Instr.isLaw c = true → c.wf = true →
    ∃ w, encodeLaw c = some w ∧ w < 2 ^ 64 ∧ decodeLaw w = some (Instr.withMarks LawExec.clean c)) ∧
  (∀ o : DmaOp, o.wf = true →
    (encodeDma o).1 < 2 ^ 64 ∧ (encodeDma o).2 < 2 ^ 64 ∧ decodeDma (encodeDma o) = some o)

/-- Rounding of R296: to nearest, ties to even, with a result past the largest finite value written as that value. Values are in
2⁻¹⁴⁹, and the exact result of ADD, MUL and MAC is e ÷ 2ᵏ of them. -/
def Obligations.LawArithmeticIsRounded : Prop :=
  ∀ d x y : F32, Fp.finite d = true → Fp.finite x = true → Fp.finite y = true →
    let big : Int := (2 ^ 24 - 1) * 2 ^ 253
    let rounded (r : Fp.FNum) (e : Int) (k : Nat) : Prop :=
      r.nan = false ∧ Fp.finite r.v = true ∧
      (2 ^ 23 * 2 ^ k ≤ e.natAbs → (e.natAbs : Int) ≤ big * 2 ^ k → ∀ z : F32, Fp.finite z = true →
        (Fp.exact r.v * 2 ^ k - e).natAbs ≤ (Fp.exact z * 2 ^ k - e).natAbs ∧
        ((Fp.exact r.v * 2 ^ k - e).natAbs = (Fp.exact z * 2 ^ k - e).natAbs → Fp.exact z ≠ Fp.exact r.v → r.v.toNat % 2 = 0)) ∧
      (big * 2 ^ k < e → Fp.exact r.v = big) ∧ (e < -(big * 2 ^ k) → Fp.exact r.v = -big)
    rounded ((Fp.FNum.of x).add (Fp.FNum.of y)) (Fp.val x + Fp.val y) 0 ∧
    rounded ((Fp.FNum.of x).mul (Fp.FNum.of y)) (Fp.val x * Fp.val y) 149 ∧
    rounded ((Fp.FNum.of d).mac (Fp.FNum.of x) (Fp.FNum.of y)) (Fp.val d * 2 ^ 149 + Fp.val x * Fp.val y) 149

/-- UPSTREAM_FRAME, STAGE_LOST, BUS_ABSORB_LOST and BUS_TRIP (R331, R348, R350, R351, tables "Upstream frame" and "Upstream
slot"). A power failure of
the same tick keeps the state (R29, log 110). -/
def Obligations.StageLinksAndBuses : Prop :=
  ∀ s : State,
    (∀ (L : Fin 8) (f : List Byte) (ns : Nat),
      ((s.img.linkUse L = 0 ∨ f.length ≠ 38) → exec (.upstreamFrame L f ns) s = .next s) ∧
      (s.img.linkUse L ≠ 0 → f.length = 38 →
        (u16 f 36 ≠ Poly.ccitt.crc (f.take 36) → collectorOn s = true →
          ∃ t, exec (.upstreamFrame L f ns) s = .next t ∧ t.stage[L].crcErr = min 255 (s.stage[L].crcErr + 1) ∧
            t.stage[L].slot = s.stage[L].slot ∧ t.stage[L].vdc = s.stage[L].vdc ∧ t.flt.sticky.has (0x073 + 16 * L) = true) ∧
        (u16 f 36 = Poly.ccitt.crc (f.take 36) → (byteAt f 0 ≠ 0x10 + L ∨ s.img.tIn ≤ ns) →
          exec (.upstreamFrame L f ns) s = .next s) ∧
        (u16 f 36 = Poly.ccitt.crc (f.take 36) → byteAt f 0 = 0x10 + L → ns < s.img.tIn → u16 f 1 = s.stage[L].sample →
          (∀ k : Fin 2, u16 f (18 + 16 * k) % 64 = 0) →
          ∃ t, exec (.upstreamFrame L f ns) s = .next t ∧ t.stage[L].valid = true ∧ t.stage[L].flags0 = u16 f 18 ∧
            t.stage[L].flags1 = u16 f 34 ∧ t.stage[L].echoErr = s.stage[L].echoErr ∧ t.stage[L].crcErr = s.stage[L].crcErr ∧
            (∀ k : Fin 2, s.img.slotKind L k ≠ 0 → u16 f (10 + 16 * k) ≤ t.stage[L].vdc) ∧
            (∀ k : Fin 2, s.img.slotKind L k ≠ 0 →
              (s.img.slotKind L k ≠ 1 ∨ s.stage[L].slot[k].alive ≠ some (bit (byteAt f (16 + 16 * k)) 0)) →
              let x := t.stage[L].slot[k]
              x.fresh = true ∧ x.missing = 0 ∧ x.iu = s16 f (4 + 16 * k) ∧ x.iv = s16 f (6 + 16 * k) ∧
                x.iw = s16 f (8 + 16 * k) ∧ x.vdc = u16 f (10 + 16 * k) ∧ x.pos = u32 f (12 + 16 * k) ∧
                x.alive = some (bit (byteAt f (16 + 16 * k)) 0) ∧ x.temp = s8 f (17 + 16 * k) ∧ x.flags = u16 f (18 + 16 * k)) ∧
            (∀ k : Fin 2, (s.img.slotKind L k = 0 ∨ s.img.slotKind L k = 1 ∧
                s.stage[L].slot[k].alive = some (bit (byteAt f (16 + 16 * k)) 0)) →
              t.stage[L].slot[k] = s.stage[L].slot[k]) ∧
            (∀ M : Fin 8, M ≠ L → t.stage[M] = s.stage[M]) ∧ t.eng = s.eng ∧ t.flt.log = s.flt.log))) ∧
    (∀ (L : Fin 8) (k : Fin 2), s.stage[L].up = true → s.img.slotKind L k ≠ 0 →
      (s.stage[L].slot[k].missing < 4 → exec (.stageLost L k) s = .next s) ∧
      (4 ≤ s.stage[L].slot[k].missing → s.stage[L].slot[k].lostEp = false → collectorOn s = true →
        ∃ t, exec (.stageLost L k) s = .next t ∧ t.stage[L].up = false ∧ t.flt.sticky.has (0x072 + 16 * L) = true)) ∧
    (∀ b : Fin 4,
      (chopperFailed s b = true → s.bus[b].absorbLost = false → collectorOn s = true →
        ∃ t, exec (.busAbsorbLost b) s = .next t ∧ t.bus[b] = { s.bus[b] with absorbLost := true } ∧
          t.flt.sticky.has (0x0F0 + b) = true ∧
          (s.anch.still = true → s.eng.state ≠ .down → t.flt.sticky.has 0x0F8 = true ∧
            (powerFails s = false → t.eng.state = .safe) ∧ (powerFails s = true → t.eng.state = s.eng.state))) ∧
      ((chopperFailed s b = false ∨ s.bus[b].absorbLost = true) → exec (.busAbsorbLost b) s = .next s) ∧
      (2 ≤ s.bus[b].ovr → collectorOn s = true →
        ∃ t, exec (.busTrip b) s = .next t ∧ t.bus[b].trip = true ∧ t.flt.sticky.has (0x0F4 + b) = true ∧
          (∀ n : Fin 8, t.sp[n].gates = 0) ∧ (∀ L : Fin 8, t.stage[L].inh = true)) ∧
      (s.bus[b].ovr < 2 → exec (.busTrip b) s = .next s))

/-- TENSION_LIMIT, SHARE_STALE, SPLICE_EDGE, SPLICE_WINDOW_EXPIRY, BELAY_SLOW, COAST_TIMEOUT, ROPE_REMOTE_STOP and
GROUP_REMOTE_STOP (R343, R345, R346, R353, R355, R407, row 21). A power failure of
the same tick keeps the state (R29, log 110). -/
def Obligations.RopesAndRemoteStops : Prop :=
  ∀ s : State,
    (∀ (i : Fin 4), ∃ t, exec (.spliceEdge i) s = .next t ∧ t.flt = s.flt ∧ t.eng = s.eng ∧
      ∀ r : Fin 32, t.rope[r] = { s.rope[r] with
        splice := s.rope[r].splice || (s.img.ropes.contains r.val && bit (s.img.ropeSplice r) i) }) ∧
    (∀ r : Fin 32,
      (∃ t, exec (.spliceWindowExpiry r) s = .next t ∧ t.rope[r] = { s.rope[r] with splice := false } ∧
        (∀ q : Fin 32, q ≠ r → t.rope[q] = s.rope[q]) ∧ t.flt = s.flt ∧ t.eng = s.eng) ∧
      (8 ≤ s.rope[r].tens → s.rope[r].tensEp = false → collectorOn s = true →
        ∃ t, exec (.tensionLimit r) s = .next t ∧ t.rope[r].tensEp = true ∧ t.flt.sticky.has (0x150 + r) = true) ∧
      ((s.rope[r].tens < 8 ∨ s.rope[r].tensEp = true) → exec (.tensionLimit r) s = .next s) ∧
      ((s.img.shareMiss ≤ s.rope[r].shareMiss ∨ s.img.shareMiss ≤ s.rope[r].backMiss) → collectorOn s = true →
        ∃ t, exec (.shareStale r) s = .next t ∧ t.flt.sticky.has 0x170 = true) ∧
      (s.rope[r].shareMiss < s.img.shareMiss → s.rope[r].backMiss < s.img.shareMiss → exec (.shareStale r) s = .next s)) ∧
    (s.eng.state = .belay →
      (s.eng.stop = .belay → collectorOn s = true →
        ∃ t, exec .belaySlow s = .next t ∧ t.flt.sticky.has 0x171 = true) ∧
      (s.eng.stop = .coast →
        ∃ t, exec .coastTimeout s = .next t ∧ t.eng.state = .safe ∧ t.eng.cause = 0x0F ∧
          (∀ n : Fin 8, t.sp[n].gates = 0 ∧ t.il.lsr[n] = false) ∧ (∀ L : Fin 8, t.stage[L].inh = true)) ∧
      (s.eng.stop ≠ .belay → exec .belaySlow s = .next s) ∧ (s.eng.stop ≠ .coast → exec .coastTimeout s = .next s)) ∧
    (s.eng.state ≠ .belay → exec .belaySlow s = .next s ∧ exec .coastTimeout s = .next s) ∧
    (collectorOn s = true → s.eng.state = .run → s.anch.still = false → ∀ k : RemoteStop,
      let taken (t : State) : Prop :=
        (powerFails s = true → t.eng.state = .run) ∧ (powerFails s = false → t.eng.cause = 0x07 ∧
          (k = .safe → t.eng.state = .safe) ∧ (k ≠ .safe → t.eng.state = .belay) ∧ (k = .belay → t.eng.stop = .belay) ∧
          (k = .ramp → t.eng.stop = .ramp) ∧ (k = .coast → t.eng.stop = .coast))
      (inPressRope s.img = true → ∃ t, exec (.ropeRemoteStop k) s = .next t ∧ t.flt.sticky.has 0x172 = true ∧ taken t) ∧
      (s.img.group.isSome = true → ∃ t, exec (.groupRemoteStop k) s = .next t ∧ t.flt.sticky.has 0x1E7 = true ∧ taken t)) ∧
    (∀ k, (inPressRope s.img = false → exec (.ropeRemoteStop k) s = .next s) ∧
      (s.img.group = none → exec (.groupRemoteStop k) s = .next s))

/-- AUX_START, AUX_STOP, AUX_RESUME, AUX_ABORT, AUX_STEP, AUX_FLT_INPUT, AUX_FLT_RELEASE and AUX_PROFILE_WRITE (R357 to R360,
tables "Auxiliary axis states" and "Auxiliary commands"; the ramp by log 46). -/
def Obligations.AuxiliaryAxes : Prop :=
  ∀ (s : State) (p : Fin 16),
    let others (t : State) : Prop := ∀ q : Fin 16, q ≠ p → t.aux[q] = s.aux[q]
    let x := s.aux[p]
    let noAlarm : Prop := ¬ (x.fltIn = true ∧ s.img.auxFltMode p = 2)
    (regOpen 1 s = true →
      (auxBarred s p x.target = false → (x.state = .idle ∨ x.state = .suspended) → noAlarm →
        ∃ t, exec (.auxStart p) s = .next t ∧ others t ∧ t.aux[p].held = x.target ∧ t.aux[p].pos = x.pos ∧
          t.aux[p].reject = x.reject ∧ t.flt = s.flt ∧ (x.target = x.pos → t.aux[p].state = .idle) ∧
          (x.target ≠ x.pos → t.aux[p].state = .moving ∧ (t.aux[p].dir = true ↔ x.pos < x.target))) ∧
      (auxBarred s p x.held = false → x.state = .suspended → noAlarm →
        ∃ t, exec (.auxResume p) s = .next t ∧ others t ∧ t.aux[p].held = x.held ∧ t.aux[p].pos = x.pos ∧
          (x.held ≠ x.pos → t.aux[p].state = .moving ∧ (t.aux[p].dir = true ↔ x.pos < x.held))) ∧
      ((auxBarred s p x.target = true ∨ x.state = .moving ∨ x.state = .stopping ∨ x.state = .fault) →
        exec (.auxStart p) s = .next (setsBit (0x8414 + 0x20 * p.val) 3 (s.atAux p fun x => { x with reject := true }))) ∧
      ((auxBarred s p x.held = true ∨ x.state ≠ .suspended) →
        exec (.auxResume p) s = .next (setsBit (0x8414 + 0x20 * p.val) 3 (s.atAux p fun x => { x with reject := true }))) ∧
      ((s.eng.state = .boot ∨ s.eng.state = .belay ∨ s.eng.state = .safe ∨ s.img.auxEn p = false) →
        auxBarred s p x.target = true ∧ auxBarred s p x.held = true) ∧
      (x.state = .moving →
        (0 < x.rampSteps → ∃ t, exec (.auxStop p) s = .next t ∧ others t ∧ t.aux[p] = { x with state := .stopping, abort := false }) ∧
        (0 < x.rampSteps → ∃ t, exec (.auxAbort p) s = .next t ∧ others t ∧ t.aux[p] = { x with state := .stopping, abort := true })) ∧
      (x.state ≠ .moving → ∃ t, exec (.auxStop p) s = .next t ∧ t.aux[p] = x ∧ others t) ∧
      ((x.state = .suspended ∨ x.state = .fault) → ∃ t, exec (.auxAbort p) s = .next t ∧ others t ∧
        t.aux[p] = { x with state := .idle, held := x.pos }) ∧
      (∀ v : Word, ∃ t, exec (.auxProfileWrite p v) s = .next t ∧ others t ∧ t.aux[p].state = x.state ∧ t.aux[p].held = x.held ∧
        t.aux[p].target = x.target ∧ t.aux[p].pos = x.pos ∧
        (1 ≤ v.toNat % 65536 → v.toNat % 65536 ≤ 20000 → t.aux[p].speed = v.toNat % 65536) ∧
        ((v.toNat % 65536 = 0 ∨ 20000 < v.toNat % 65536) → t.aux[p].speed = x.speed) ∧
        (v.toNat / 65536 = 0 → t.aux[p].accel = x.accel ∧ t.aux[p].reject = x.reject) ∧
        (v.toNat / 65536 ≠ 0 → x.state ≠ .moving → t.aux[p].accel = v.toNat / 65536 ∧ t.aux[p].reject = x.reject) ∧
        (v.toNat / 65536 ≠ 0 → accelRefused s.img p x (v.toNat / 65536) = true →
          t.aux[p].accel = x.accel ∧ t.aux[p].reject = true))) ∧
    (∃ t, exec (.auxStep p) s = .next t ∧ others t ∧ t.flt = s.flt ∧ t.aux[p].held =
        (if x.state = .stopping ∧ t.aux[p].state = .idle then t.aux[p].pos else x.held) ∧
      (x.state ≠ .moving → x.state ≠ .stopping → t.aux[p] = x) ∧
      ((x.state = .moving ∨ x.state = .stopping) → -2147483648 < x.pos → x.pos < 2147483647 →
        t.aux[p].pos = (if x.dir then x.pos + 1 else x.pos - 1)) ∧
      (x.state = .moving → t.aux[p].pos = x.held → t.aux[p].state = .idle) ∧
      (x.state = .moving → t.aux[p].pos ≠ x.held → t.aux[p].state = .moving) ∧
      (x.state = .stopping → (t.aux[p].rampSteps ≠ 0 → t.aux[p].state = .stopping) ∧
        (t.aux[p].rampSteps = 0 → t.aux[p].state = (if x.abort then .idle else .suspended)))) ∧
    (x.fltIn = false → s.img.auxEn p = true →
      (s.img.auxFltMode p = 1 → collectorOn s = true → ∃ t, exec (.auxFltInput p) s = .next t ∧ t.aux[p].fltIn = true ∧
        t.flt.sticky.has 0x173 = true ∧ t.aux[p].limitDir = x.dir ∧ t.aux[p].pos = x.pos ∧
        ((x.state = .moving ∨ x.state = .stopping) → t.aux[p].state = .suspended)) ∧
      (s.img.auxFltMode p = 2 → collectorOn s = true → ∃ t, exec (.auxFltInput p) s = .next t ∧ t.aux[p].fltIn = true ∧
        t.flt.sticky.has 0x174 = true ∧ t.aux[p].pos = x.pos ∧
        ((x.state = .moving ∨ x.state = .stopping) → t.aux[p].state = .fault))) ∧
    (∃ t, exec (.auxFltRelease p) s = .next t ∧ t.aux[p] = { x with fltIn := false } ∧ others t ∧ t.flt = s.flt)

/-- SENSOR_CONVERSION, ZERO_CROSS_EDGE, ZERO_CROSS_LOST and HV_NODE_LOST (R364, R366, R368, R369, R371 to R375, R380; the
formulas' rounding by log 22). A power failure of
the same tick keeps the state (R29, log 110). -/
def Obligations.TemperaturesAndSupplies : Prop :=
  ∀ s : State,
    (collectorOn s = true → s.eng.state ≠ .down → ∀ r : SensorReadings, ∃ t, exec (.sensorConversion r) s = .next t ∧
      (∀ i : Fin 26,
        (sensorUse s.img i = false → t.therm.value[i] = s.therm.value[i] ∧ t.therm.broken[i] = s.therm.broken[i]) ∧
        (sensorUse s.img i = true → s.therm.broken[i] = false →
          (sensorOut r i = false → t.therm.broken[i] = false ∧ t.therm.run[i] = 0 ∧
            (20 ≤ i.val → t.therm.value[i] = Fp.ofRat (r.die.getD (i - 20) 0) 10) ∧
            (∀ v, i < 16 → ntcTemp s.img i (r.ntc.getD i 0) = some v → t.therm.value[i] = v)) ∧
          (sensorOut r i = true → s.therm.run[i] < 2 → t.therm.broken[i] = false ∧ t.therm.run[i] = s.therm.run[i] + 1) ∧
          (sensorOut r i = true → 2 ≤ s.therm.run[i] → t.therm.broken[i] = true ∧ t.therm.value[i] = hot ∧
            t.flt.sticky.has 0x022 = true)) ∧
        (sensorUse s.img i = true → s.therm.broken[i] = true →
          (sensorOut r i = true → t.therm.broken[i] = true ∧ t.therm.value[i] = hot) ∧
          (sensorOut r i = false → s.therm.run[i] < 2 → t.therm.broken[i] = true ∧ t.therm.value[i] = hot) ∧
          (sensorOut r i = false → 2 ≤ s.therm.run[i] → t.therm.broken[i] = false))) ∧
      ((∀ k : Fin 6, t.therm.broken[20 + k.val]'(by omega) = false) → ∀ tj : Int, t.therm.tj = tj →
        (∀ k : Fin 6, r.die.getD k 0 ≤ tj) ∧ (∃ k : Fin 6, r.die.getD k 0 = tj) ∧ t.therm.pinned = false ∧
        (s.therm.level < levelOf s tj → t.therm.level = levelOf s tj ∧ (s.therm.level = 0 → t.flt.sticky.has 0x020 = true)) ∧
        (levelOf s tj ≤ s.therm.level → 0 < s.therm.level → tj < s.img.thr (s.therm.level - 1) - s.img.tHyst →
          t.therm.level = s.therm.level - 1) ∧
        (levelOf s tj ≤ s.therm.level → 0 < s.therm.level → s.img.thr (s.therm.level - 1) - s.img.tHyst ≤ tj →
          t.therm.level = s.therm.level) ∧
        (t.therm.critical = true ↔ s.img.thr 3 ≤ tj)) ∧
      (s.img.thr 3 ≤ t.therm.tj → s.flt.active.has 0x021 = false → t.flt.sticky.has 0x021 = true ∧
        (s.eng.state = .idle → s.flt.log = [] → powerFails s = false → t.eng.state ≠ .idle)) ∧
      (∀ h : Fin 4, s.img.htrUse h = true → s.img.htrMax h * 2 ^ 149 ≤ 10 * Fp.exact (tab t.therm.value 0 (s.img.htrSensor h)) →
        t.htr.cutoff[h] = true ∧ t.htr.on[h] = false ∧ (s.flt.active.has (0x024 + h) = false → t.flt.sticky.has (0x024 + h) = true))) ∧
    (∀ us : Nat,
      ((us < 7500 ∨ 11500 < us) → ∃ t, exec (.zeroCrossEdge us) s = .next t ∧ t.htr.good = 0 ∧
        (s.htr.zcOk = true → collectorOn s = true → t.htr.zcOk = false ∧ (∀ h : Fin 4, t.htr.on[h] = false) ∧
          t.flt.sticky.has 0x023 = true)) ∧
      (7500 ≤ us → us ≤ 11500 → ∃ t, exec (.zeroCrossEdge us) s = .next t ∧ t.htr.zcPeriod = us ∧ t.flt = s.flt ∧
        t.eng = s.eng ∧ (s.htr.zcOk = false → s.htr.good < 7 → t.htr.zcOk = false ∧ t.htr.on = s.htr.on) ∧
        (7 ≤ s.htr.good → t.htr.zcOk = true) ∧
        (s.htr.zcOk = true → ∀ h : Fin 4,
          ((s.img.htrUse h = false ∨ lawOutputsOff s = true ∨ s.htr.cutoff[h] = true) → t.htr.on[h] = false ∧ t.htr.acc[h] = 0) ∧
          (s.img.htrUse h = true → lawOutputsOff s = false → s.htr.cutoff[h] = false → s.img.htrMode h = 0 →
            let acc := s.htr.acc[h] + heaterDuty s h
            (2 ^ 149 ≤ acc → t.htr.on[h] = true ∧ t.htr.acc[h] = acc - 2 ^ 149) ∧
            (acc < 2 ^ 149 → t.htr.on[h] = false ∧ t.htr.acc[h] = acc))))) ∧
    (s.htr.zcOk = true → collectorOn s = true → ∃ t, exec .zeroCrossLost s = .next t ∧ t.htr.zcOk = false ∧
      (∀ h : Fin 4, t.htr.on[h] = false) ∧ t.flt.sticky.has 0x023 = true) ∧
    (s.htr.zcOk = false → ∃ t, exec .zeroCrossLost s = .next t ∧ t.htr.good = 0 ∧ t.flt = s.flt ∧ t.htr.on = s.htr.on) ∧
    (∀ c : Fin 24, s.img.hvUsed.contains c.val = true →
      (s.img.hvLost ≤ s.hv.missing[c] → s.hv.lostEp.getLsbD c = false → collectorOn s = true →
        ∃ t, exec (.hvNodeLost c) s = .next t ∧ t.hv.lostEp.getLsbD c = true ∧ t.flt.sticky.has 0x02A = true) ∧
      (s.hv.missing[c] < s.img.hvLost → exec (.hvNodeLost c) s = .next s))

/-- CONSUMABLE_SYNC, CONSUMABLE_SYNC_TIMER, TAG_SYNCHRONISATION, TAG_POLL, USAGE_MIRROR_PERSIST and LIFETIME_COUNTER_PERSIST
(R461 to R467, R493; the readings of log 40, where the discarded usage is logged by log 127, heater time in ticks by log 128). -/
def Obligations.Consumables : Prop :=
  ∀ s : State,
    (∀ h (m : BitVec 32), s.takes h → h.job = 0 → syncState s = true →
      (s.host.syncReq = none → maskTags s m ≠ [] → ∃ t, exec (.consumableSync h m) s = .next t ∧ t.cons = s.cons ∧
        t.host.syncReq = some (msgRef h s, maskTags s m, 0) ∧ t.host.out = s.host.out ∧ t.flt = s.flt) ∧
      (s.host.syncReq = none → maskTags s m = [] → ∃ t, exec (.consumableSync h m) s = .next t ∧ s.answered t h .ok false 0) ∧
      (s.host.syncReq.isSome = true → ∃ t, exec (.consumableSync h m) s = .next t ∧ t.host.syncReq = s.host.syncReq ∧
        ∃ r, s.answered t h .busy false r)) ∧
    (syncState s = true → s.cons.queue = [] → ∃ t, exec .consumableSyncTimer s = .next t ∧ t.cons.queue = s.img.tagsUsed ∧
      t.cons.tag = s.cons.tag ∧ t.flt = s.flt) ∧
    (∀ i : Fin 32, syncState s = true → (syncList s).head? = some i.val → s.cons.cur = none →
      (∀ h : List Byte, rootUsable s = true → h.take 8 = s.cons.tag[i].id → (s.img.tagKind i = 0 ∨ s.img.tagKind i = byteAt h 8) →
        let u := chargeHeaters s
        let f := u.cons.tag[i].flight.getD ((u.cons.tag[i].txn + 1) % 2 ^ 32, u.cons.tag[i].pending)
        let n := tagNonce (tagKey s (h.take 8) (byteAt h 8)) s.now s.cons.counter
        ∃ t, exec (.tagSynchronisation i (some h)) s = .next t ∧ t.cons.tag[i].flight = some f ∧ t.cons.tag[i].txn = f.1 ∧
          t.cons.tag[i].present = true ∧ t.cons.tag[i].pending = u.cons.tag[i].pending ∧
          t.cons.counter = (s.cons.counter + 1) % 2 ^ 64 ∧ t.flt = s.flt ∧
          t.cons.out = s.cons.out ++ [(i.val, n ++ toLE 4 f.1 ++ toLE 4 (serial s % 2 ^ 32) ++ toLE 4 f.2 ++ toLE 4 0)] ∧
          (∃ x, t.cons.cur = some x ∧ x.tag = i ∧ x.tries = 1 ∧ x.header = h ∧ x.nonce = n ∧ x.polls = 0)) ∧
      (∀ h : List Byte, rootUsable s = true → h.take 8 ≠ s.cons.tag[i].id → (s.img.tagKind i = 0 ∨ s.img.tagKind i = byteAt h 8) →
        let p := (chargeHeaters s).cons.tag[i].pending
        ∃ t, exec (.tagSynchronisation i (some h)) s = .next t ∧ t.cons.tag[i].id = h.take 8 ∧ t.cons.tag[i].pending = 0 ∧
          t.cons.tag[i].confirmed = u32 h 12 ∧ t.cons.tag[i].stored = u32 h 12 ∧
          t.cons.discarded = s.cons.discarded ++ (if p = 0 then [] else [(i.val, s.cons.tag[i].id, p)])) ∧
      (∀ h : List Byte, rootUsable s = false → collectorOn s = true → ∃ t, exec (.tagSynchronisation i (some h)) s = .next t ∧
        t.cons.tag[i].auth = false ∧ t.cons.cur = none ∧ t.cons.counter = s.cons.counter ∧ t.cons.rootRaised = true ∧
        (s.cons.rootRaised = false → t.flt.sticky.has 0x1F8 = true)) ∧
      (∃ t, exec (.tagSynchronisation i none) s = .next t ∧ t.cons.tag[i] = (chargeHeaters s).cons.tag[i] ∧ t.flt = s.flt ∧
        ∃ x, t.cons.cur = some x ∧ x.tag = i ∧ x.tries = 1 ∧ x.header = [])) ∧
    (∀ x, s.cons.cur = some x → x.header ≠ [] →
      let i := x.tag
      let f := s.cons.tag[i].flight.getD (0, 0)
      (∀ a : List Byte, byteAt a 0 = 0 →
        let good := Crypto.cmac x.key (macInput s x f.1 f.2 (u32 a 4)) = (a.drop 8).take 16 ∧ u32 x.header 12 ≤ u32 a 4
        (good → ∃ t, exec (.tagPoll (some a)) s = .next t ∧ t.cons.cur = none ∧ t.cons.tag[i].auth = true ∧
          t.cons.tag[i].confirmed = u32 a 4 ∧ t.cons.tag[i].pending = s.cons.tag[i].pending - f.2 ∧
          t.cons.tag[i].flight = none ∧ t.cons.tag[i].stored = min (2 ^ 32 - 1) (u32 a 4 + (s.cons.tag[i].pending - f.2)) ∧ t.flt = s.flt) ∧
        (¬ good → collectorOn s = true → ∃ t, exec (.tagPoll (some a)) s = .next t ∧ t.cons.cur = none ∧
          t.cons.tag[i].auth = false ∧ t.cons.tag[i].flight = s.cons.tag[i].flight ∧
          t.cons.tag[i].pending = s.cons.tag[i].pending ∧ t.flt.sticky.has 0x1F8 = true)) ∧
      (∀ a : List Byte, byteAt a 0 ≠ 0 → x.polls < 9 → ∃ t, exec (.tagPoll (some a)) s = .next t ∧ t.cons.tag = s.cons.tag ∧
        t.cons.cur = some { x with polls := x.polls + 1 } ∧ t.flt = s.flt) ∧
      (3 ≤ x.tries → collectorOn s = true → ∃ t, exec (.tagPoll none) s = .next t ∧ t.cons.cur = none ∧
        t.cons.tag[i].present = false ∧ t.cons.tag[i].flight = s.cons.tag[i].flight ∧ t.flt.sticky.has 0x1F9 = true)) ∧
    (∃ t, exec .usageMirrorPersist s = .next t ∧ t.flt = s.flt ∧ t.eng = s.eng ∧ ∀ i : Fin 32,
      let x := (chargeHeaters s).cons.tag[i]
      t.cons.tag[i] = { x with stored := min (2 ^ 32 - 1) (x.confirmed + x.pending) }) ∧
    (∃ t, exec .lifetimeCounterPersist s = .next t ∧ t.pers.life = s.pers.lifeRam ∧ t.pers.lifeRam = s.pers.lifeRam ∧ t.flt = s.flt ∧
      t.eng = s.eng)

/-- RING_PORT_TRAINING, RING_PORT_DOWN, RING_PORT_RETRAIN_TIMER, SLOT_LAUNCH, SLOT_RECEIVE, NODE_LOST, TS_REQ, TS_RSP, TS_FUP and
RING_TIME (R384 to R389, R391, R392, R398 to R402;
block lock of a port that goes down by log 111). -/
def Obligations.RingPortsAndSlots : Prop :=
  ∀ s : State,
    (∀ p : Fin 4,
      let q := otherPort p
      let others (t : State) : Prop := ∀ r : Fin 4, r ≠ p → t.ring.port[r] = s.ring.port[r]
      (∀ kind index port serial : Nat,
        (portTrains s p = true → helloAgrees s p kind index port = true →
          ∃ t, exec (.ringPortTraining p kind index port serial) s = .next t ∧ t.ring.port[p].up = true ∧
            t.ring.port[p].lock = true ∧ t.ring.port[p].training = false ∧ t.ring.port[p].forwards = false ∧
            t.ring.port[p].serial = serial ∧ t.ring.port[p].noRsp = 0 ∧
            t.ring.port[p].control.head? = some (helloBlock s p) ∧ others t ∧ t.flt = s.flt ∧ t.eng = s.eng) ∧
        (portTrains s p = true → helloAgrees s p kind index port = false →
          ∃ t, exec (.ringPortTraining p kind index port serial) s = .next t ∧ t.ring.port[p].up = false ∧
            t.ring.port[p].lock = true ∧ others t ∧ t.flt = s.flt) ∧
        (portTrains s p = false → exec (.ringPortTraining p kind index port serial) s = .next s)) ∧
      (s.ring.port[p].up = true → ∃ t, exec (.ringPortDown p) s = .next t ∧ t.ring.port[p].up = false ∧
        t.ring.port[p].lock = decide (8 ≤ s.ring.port[p].noRsp) ∧ t.ring.port[p].downSeen = true ∧ t.ring.port[p].forwards = false ∧ others t ∧
        ((ringPort s q).up = true → (if p < 2 then t.ring.upperWrap else t.ring.subWrap) = true ∧
          (collectorOn s = true → t.flt.sticky.has (if p < 2 then 0x1E0 else 0x1E1) = true)) ∧
        ((ringPort s q).up = false → (if p < 2 then t.ring.upperWrap else t.ring.subWrap) = false ∧ t.flt = s.flt)) ∧
      (s.ring.port[p].up = false → exec (.ringPortDown p) s = .next s) ∧
      (portTrains s p = true → portUsed s p = true →
        ∃ t, exec (.ringPortRetrainTimer p) s = .next t ∧ t.ring.port[p] =
          { s.ring.port[p] with training := true, control := helloBlock s p :: s.ring.port[p].control.take 8 } ∧ others t ∧
          t.flt = s.flt) ∧
      ((portTrains s p = false ∨ portUsed s p = false) → exec (.ringPortRetrainTimer p) s = .next s) ∧
      (∀ x : Slot, s.ring.port[p].up = true →
        (x.src = 128 * s.ring.index → exec (.slotReceive p x) s = .next s) ∧
        (x.src ≠ 128 * s.ring.index → ∃ t, exec (.slotReceive p x) s = .next t ∧
          (x.hops + 1 < nodeCount s p → (ringPort s q).up = true → (ringPort s q).forwards = true →
            t.ring.forwarded = s.ring.forwarded ++ [(q, x.src, x.hops + 1)]) ∧
          ((nodeCount s p ≤ x.hops + 1 ∨ (ringPort s q).up = false ∨ (ringPort s q).forwards = false) →
            t.ring.forwarded = s.ring.forwarded) ∧
          (slotCrc x ≠ x.crc → t.ring.port[p].crcErr = min 255 (s.ring.port[p].crcErr + 1) ∧ t.ring.ctrl = s.ring.ctrl ∧
            t.ring.node = s.ring.node ∧ t.ring.late = s.ring.late ∧ t.flt = s.flt) ∧
          (slotCrc x = x.crc → x.cycle ≠ dueCycle s → t.ring.late = min 255 (s.ring.late + 1) ∧ t.ring.ctrl = s.ring.ctrl ∧
            t.ring.node = s.ring.node ∧
            (s.ring.lateCycle ≠ some (dueCycle s) → collectorOn s = true → t.flt.sticky.has 0x1E3 = true)) ∧
          (slotCrc x = x.crc → x.cycle = dueCycle s →
            (p < 2 → x.src % 128 = 0 → (otherControllers s).contains (x.src / 128) = true →
              (ctrlNode s (x.src / 128)).delivered = false →
              (ctrlNode t (x.src / 128)).words = x.words ∧ (ctrlNode t (x.src / 128)).delivered = true) ∧
            (2 ≤ p.val → x.src / 128 = s.ring.index → s.img.eyelets.contains (x.src % 128) = true →
              (eyelet s (x.src % 128)).delivered = false →
              (eyelet t (x.src % 128)).words = x.words ∧ (eyelet t (x.src % 128)).delivered = true ∧
              (s.img.nodeKind (x.src % 128) ≠ 3 → bit (x.words.headD 0) 1 = true → (eyelet s (x.src % 128)).faultEp = false →
                collectorOn s = true → t.flt.sticky.has 0x1E8 = true))))) ∧
      (∀ x : Slot, s.ring.port[p].up = false → exec (.slotReceive p x) s = .next s) ∧
      (∀ t1 a d : Nat, s.ring.port[p].up = true → ∃ t, exec (.tsReq p t1 a d) s = .next t ∧
        t.ring.port[p] = { s.ring.port[p] with
          answer := some (a % 2 ^ 56, d % 2 ^ 56)
          control := [stampBlock 0x4C a, stampBlock 0x4D d] ++ s.ring.port[p].control.take 8 } ∧ others t) ∧
      (∀ t2 a : Nat, s.ring.port[p].t1.isSome = true → ∃ t, exec (.tsRsp p t2 a) s = .next t ∧
        t.ring.port[p] = { s.ring.port[p] with t2 := some t2, t4 := some a, noRsp := 0 } ∧ others t) ∧
      (∀ t1, s.ring.port[p].t1 = some t1 → ∀ t2, s.ring.port[p].t2 = some t2 → ∀ t4, s.ring.port[p].t4 = some t4 → ∀ t3 : Nat,
        let d := linkDelay t1 t2 t3 t4
        0 ≤ d → d < 65536 → ∃ t, exec (.tsFup p t3) s = .next t ∧ others t ∧ t.ring.port[p].delay = d.toNat ∧
          t.ring.port[p].t1 = none ∧ t.flt = s.flt ∧
          (p < 2 → s.ring.timeMaster = false → p = steeringPort s → t.ring.err = stampDiff t4 (t3 + d) ∧
            (t.ring.synced = true ↔ (t.ring.err.natAbs ≤ 128 ∧ 64 ≤ s.ring.within + 1))) ∧
          ((2 ≤ p.val ∨ s.ring.timeMaster = true) → t.ring.err = s.ring.err ∧ t.ring.synced = s.ring.synced))) ∧
    (slotsRun s = true → ringOn s = true → ∃ t, exec .slotLaunch s = .next t ∧
      t.ring.sent.length = (if 1 < s.img.controllers then 1 else 0) + (if s.img.subTopo ≠ 0 then 1 else 0) ∧
      (∀ x ∈ t.ring.sent, x.cycle = (s.boundary + 1) % 2 ^ 24 ∧ x.words.head? = some (statusWord s) ∧
        x.src = 128 * s.ring.index ∧ x.blocks = slotBlocksOut x.src x.cycle x.words) ∧
      (∀ r : Fin 4, t.ring.port[r] = { s.ring.port[r] with forwards := s.ring.port[r].up }) ∧ t.flt = s.flt ∧ t.eng = s.eng) ∧
    ((slotsRun s = false ∨ ringOn s = false) → exec .slotLaunch s = .next s) ∧
    (∀ i : Fin 32, i.val ≠ s.ring.index → s.ring.ctrl[i].live = true →
      (s.img.lostCyc ≤ s.ring.ctrl[i].missing → collectorOn s = true →
        ∃ t, exec (.nodeLost (BitVec.ofNat 12 (128 * i))) s = .next t ∧ t.ring.ctrl[i].live = false ∧ t.flt.sticky.has 0x1E4 = true) ∧
      (s.ring.ctrl[i].missing < s.img.lostCyc → exec (.nodeLost (BitVec.ofNat 12 (128 * i))) s = .next s)) ∧
    (∀ k : Fin 128, 0 < k.val → s.ring.index < 32 → s.img.eyelets.contains k.val = true → s.ring.node[k].live = true →
      s.img.lostCyc ≤ s.ring.node[k].missing → collectorOn s = true →
      ∃ t, exec (.nodeLost (BitVec.ofNat 12 (128 * s.ring.index + k))) s = .next t ∧ t.ring.node[k].live = false ∧
        t.flt.sticky.has (if s.img.nodeUse k = 1 then 0x1E5 else 0x1E6) = true) ∧
    (∀ (a : BitVec 12) (k : Fin 128), a.toNat / 128 ≠ s.ring.index → a.toNat % 128 ≠ 0 → s.img.nodeUse k = 3 →
      s.img.nodeType k = a.toNat → s.img.lostCyc ≤ s.ring.node[k].missing →
      ∃ t, exec (.nodeLost a) s = .next t ∧ t.ring.node[k].live = false ∧ t.flt = s.flt) ∧
    (16 ≤ s.ring.beyond → collectorOn s = true → ∃ t, exec .ringTime s = .next t ∧ t.flt.sticky.has 0x1E2 = true) ∧
    (s.ring.beyond < 16 → exec .ringTime s = .next s)

/-- SEQ, SEQ_STEP_TIMEOUT, GROUP_READY, GROUP_START, GROUP_HALT, GROUP_HALT_POSITION and GROUP_TIMEOUT (R404, R406, R408 to R410,
R442, R443; ITEM of an aborted boot by log 48, optional slaves in a shut-down by log 111). A power failure of
the same tick keeps the state (R29, log 110). -/
def Obligations.SequencingAndRunGroups : Prop :=
  ∀ s : State,
    let safe (t : State) : Prop :=
      (powerFails s = false → t.eng.state = .safe) ∧ (powerFails s = true → t.eng.state = s.eng.state)
    (∀ (p : Fin 2) (b : SeqBlock),
      ((ringOn s = false ∨ (ringPort s p).up = false ∨ b.source = s.ring.index ∨
          s.ring.seqSeen.contains (b.source, b.number) = true) → exec (.seq p b) s = .next s) ∧
      (ringOn s = true → (ringPort s p).up = true → b.source ≠ s.ring.index → s.ring.seqSeen.contains (b.source, b.number) = false →
        let mine := b.target = 0xFF ∨ b.target = s.ring.index
        ∃ t, exec (.seq p b) s = .next t ∧ t.ring.seqSeen = s.ring.seqSeen ++ [(b.source, b.number)] ∧
          ((ringPort s (otherPort p)).up = true → (otherPort p, seqRingBlock b) ∈ t.ring.seqOut) ∧
          (¬ mine → t.eng = s.eng ∧ t.pwr = s.pwr ∧ t.flt = s.flt) ∧
          (mine → b.command = 3 →
            (s.eng.state ≠ .boot → s.eng.state ≠ .down → (powerFails s = true → t.eng = s.eng) ∧
              (powerFails s = false → t.eng.state = .down ∧ t.eng.cause = 0x01 ∧ t.pwr.down.isSome = true)) ∧
            (s.eng.state = .boot → collectorOn s = true → t.boot.fail = .powerSeq ∧ t.boot.item = 0 ∧ t.flt.sticky.has 0x001 = true ∧
              safe t) ∧
            (s.eng.state = .down → t.eng = s.eng ∧ t.pwr.en = s.pwr.en ∧
              ∀ d, s.pwr.down = some d → t.pwr.down = some (if d.done then d else { d with cause := .abort, owed := none }))) ∧
          (mine → b.command = 2 →
            (isSlave s = true → s.pwr.down = none → (s.eng.state = .idle ∨ s.eng.state = .safe) →
              (powerFails s = true → t.eng = s.eng) ∧
              (powerFails s = false → t.eng.state = .down ∧ t.eng.cause = 0x01 ∧ t.eng.prev = s.eng.state)) ∧
            (isSlave s = true → s.pwr.down = none → s.eng.state ≠ .idle → s.eng.state ≠ .safe → t.eng = s.eng ∧ t.pwr = s.pwr) ∧
            (isSlave s = false → t.eng = s.eng ∧ t.pwr = s.pwr)) ∧
          (mine → b.command = 1 → isSlave s = true → s.eng.state = .boot → s.boot.step = 8 → tab s.pwr.domain 0 4 ≠ 2 → t.eng = s.eng ∧
            (slotsReady s = false → t.pwr.en = s.pwr.en ∧ t.flt = s.flt ∧ (t.pwr.up.bind fun u => u.owed) = some b.railSlot) ∧
            (slotsReady s = true → ∀ n : Fin 12, n.val ∈ onRails s b.railSlot → t.pwr.en.getLsbD n = true)) ∧
          (mine → b.command = 0x81 → isMaster s = true → ∀ i : Fin 32, b.source = i.val →
            (∀ u, s.pwr.up = some u → u.slot = b.railSlot → ∃ v, t.pwr.up = some v ∧ v.acks.getLsbD i = true ∧ v.slot = u.slot) ∧
            (∀ d, s.pwr.down = some d → d.slot = b.railSlot → ∃ v, t.pwr.down = some v ∧ v.acks.getLsbD i = true)))) ∧
    (s.eng.state = .boot → s.boot.step = 8 → collectorOn s = true →
      (isSlave s = true → s.pwr.up = none → ∃ t, exec .seqStepTimeout s = .next t ∧ t.boot.fail = .powerSeq ∧ t.boot.item = 0 ∧
        safe t) ∧
      (isMaster s = true → ∀ u, s.pwr.up = some u →
        ((requiredSlaves s).all (fun i => u.acks.getLsbD i) = true → exec .seqStepTimeout s = .next s) ∧
        (∀ i : Fin 32, (requiredSlaves s).find? (fun i => !u.acks.getLsbD i) = some i.val →
          ∃ t, exec .seqStepTimeout s = .next t ∧ t.boot.fail = .powerSeq ∧ t.boot.item = i.val ∧ safe t))) ∧
    (s.eng.state = .down → isMaster s = true → ∀ d, s.pwr.down = some d → d.cause = .host → d.begun = true → d.done = false →
      ∃ t, exec .seqStepTimeout s = .next t ∧ t.eng = s.eng ∧
        ∀ i : Fin 32, t.pwr.slaveNoack.getLsbD i =
          (s.pwr.slaveNoack.getLsbD i || ((shutSlaves s).contains i.val && !d.acks.getLsbD i))) ∧
    (∀ i : Fin 32, (groupLeader s = true → ∃ t, exec (.groupReady i) s = .next t ∧ t.ring.group.ready.getLsbD i = true ∧
        (∀ j : Fin 32, j ≠ i → t.ring.group.ready.getLsbD j = s.ring.group.ready.getLsbD j) ∧ t.eng = s.eng) ∧
      (groupLeader s = false → exec (.groupReady i) s = .next s)) ∧
    (∀ w, s.host.runWait = some w →
      (∀ j, s.job? w.job = some j → ∀ f0 : Int, groupMember s = true → s.ring.group.msg = .ready → waitStale w s = false →
        entryReady w j s = true → ∃ t, exec (.groupStart f0) s = .next t ∧ t.eng.state = .run ∧ t.run.f0 = f0 ∧
          t.eng.cause = (if w.resume then 0x03 else 0x02) ∧ t.host.runWait = none ∧ t.ring.group.msg = .none ∧ t.flt = s.flt) ∧
      (s.img.group.isSome = true → ∃ t, exec .groupTimeout s = .next t ∧ t.host.runWait = none ∧ t.eng.state = s.eng.state ∧
        t.ring.group.msg ≠ .ready ∧ t.run = s.run) ∧
      (groupMember s = false → ∀ f0, exec (.groupStart f0) s = .next s)) ∧
    (s.img.group.isSome = true → s.eng.state = .run →
      (∀ h : Int, s.ring.group.halts = [] → s.line < h → ∃ t, exec (.groupHalt h) s = .next t ∧ t.ring.group.halts = [h] ∧
        t.eng = s.eng ∧ t.run = s.run) ∧
      (∀ h : Int, (∀ x ∈ s.ring.group.halts, s.line < x) → h ≤ s.line → ∃ t, exec (.groupHalt h) s = .next t ∧
        t.eng.state = .halting ∧ t.eng.stop = .halt ∧ t.eng.cause = 0x04 ∧ t.ring.group.halts = [] ∧ t.run.halt.isSome = true)) ∧
    (s.eng.state = .run → s.ring.group.halts ≠ [] →
      ((∀ x ∈ s.ring.group.halts, s.line < x) → exec .groupHaltPosition s = .next s) ∧
      ((∃ x ∈ s.ring.group.halts, x ≤ s.line) → ∃ t, exec .groupHaltPosition s = .next t ∧ t.eng.state = .halting ∧
        t.eng.cause = 0x04 ∧ t.ring.group.halts = [] ∧ t.run.halt.isSome = true)) ∧
    (s.eng.state = .armed → ∀ h, exec (.groupHalt h) s = .next s)

/-- PROGRAM, READ, LOCK_W, LOCK_R and OTP_PULSE_END (R453; also R451, R455 to R459; whether a pulsed bit that fails its margin read
reads 1 at nominal level is log 42's open value). -/
def Obligations.ProgrammingNeverChangesTheShadow : Prop :=
  (∀ (c : Instr) (s t : State), s.willReset c = false → exec c s = .next t →
    (c ≠ .otpShadowLoad → t.otp.shadow = s.otp.shadow ∧ t.otp.valid = s.otp.valid ∧ t.otp.blank = s.otp.blank ∧
      t.otp.wlock = s.otp.wlock ∧ t.otp.rlock = s.otp.rlock) ∧
    ((∀ v, c ≠ .otpPulseEnd v) → t.otp.cells = s.otp.cells ∧ t.otp.wFuse = s.otp.wFuse ∧ t.otp.rFuse = s.otp.rFuse)) ∧
  (∀ (straps : BitVec 5) (s : State), s.pwr.writing = none →
    ∃ t, exec (.aonPowerOnReset true straps normalPins) s = .next t ∧ t.eng.state = .boot ∧ t.boot.step = 2 ∧
      t.otp.cells = s.otp.cells ∧ t.otp.wFuse = s.otp.wFuse ∧ t.otp.rFuse = s.otp.rFuse) ∧
  (∀ s : State, s.canonical → s.eng.state = .boot → s.boot.step = 2 → ∃ t, exec .otpShadowLoad s = .next t ∧
    (∀ a, shadow t a = (otpCell s a).nominal) ∧
    (∀ r : Fin 16, t.otp.wlock.getLsbD r = s.otp.wFuse[r].nominal.getLsbD 0 ∧ t.otp.rlock.getLsbD r = s.otp.rFuse[r].nominal.getLsbD 0 ∧
      t.otp.valid.getLsbD r = (!wordsBlank (freshRegion s r) && wordsValid (freshRegion s r)))) ∧
  (∀ s : State, regOpen 0 s = true →
    let ends (c : Instr) (st : Status) : Prop := exec c s = .next (otpEnd st s)
    let a := s.otp.addr
    let begins (t : State) (k : OtpKind) (w : Nat) (d : Word) : Prop :=
      t.otp = { s.otp with job := some { kind := k, addr := w, data := d, copy := 0, pulses := 0, verified := 0, extra := 0 } }
    (∀ (key : BitVec 8) (r : Fin 16), (key ≠ 0x5A ∨ s.otp.job.isSome = true) → exec (.program key) s = .next s ∧
      exec (.read key) s = .next s ∧ exec (.lockW key r) s = .next s ∧ exec (.lockR key r) s = .next s) ∧
    (s.otp.job = none → s.eng.state ≠ .service → ∀ r : Fin 16, ends (.program 0x5A) .state ∧ ends (.read 0x5A) .state ∧
      ends (.lockW 0x5A r) .state ∧ ends (.lockR 0x5A r) .state) ∧
    (s.otp.job = none → s.eng.state = .service →
      (s.otp.wlock.getLsbD (a / 256) = true → ends (.program 0x5A) .locked) ∧
      (s.otp.wlock.getLsbD (a / 256) = false → otpConditions s = false → ends (.program 0x5A) .range) ∧
      (s.otp.wlock.getLsbD (a / 256) = false → otpConditions s = true →
        (freshWord s a &&& ~~~s.otp.data ≠ 0 → ends (.program 0x5A) .field) ∧
        (freshWord s a &&& ~~~s.otp.data = 0 → s.otp.data &&& ~~~(otpCell s a).n0 ≠ 0 →
          ∃ t, exec (.program 0x5A) s = .next t ∧ begins t .program a s.otp.data) ∧
        (otpCell s a = { n0 := s.otp.data, n1 := s.otp.data, n2 := s.otp.data, m0 := s.otp.data, m1 := s.otp.data, m2 := s.otp.data } →
          ∃ t, exec (.program 0x5A) s = .next t ∧ t.otp.job = none ∧ t.otp.result = 0 ∧ t.otp.copies = 3 ∧ t.otp.marg = false ∧
            t.otp.retries = 0 ∧ t.otp.done = true)) ∧
      (s.otp.rlock.getLsbD (a / 256) = true → ∃ t, exec (.read 0x5A) s = .next t ∧ t.otp.result = Status.locked.code ∧ t.otp.data = 0) ∧
      (s.otp.rlock.getLsbD (a / 256) = false → ∃ t, exec (.read 0x5A) s = .next t ∧ t.otp.data = (otpCell s a).nominal ∧
        t.otp.copies = (otpCell s a).agreeing ∧ t.otp.marg = (otpCell s a).isMarginal ∧ t.otp.result = 0 ∧ t.otp.job = none ∧
        t.otp.done = true) ∧
      (∀ r : Fin 16,
        (s.otp.wlock.getLsbD r = true → ends (.lockW 0x5A r) .locked) ∧
        (s.otp.wlock.getLsbD r = false → otpConditions s = true → freshMarginal s r = true → ends (.lockW 0x5A r) .verify) ∧
        (s.otp.wlock.getLsbD r = false → otpConditions s = true → freshMarginal s r = false → wordsValid (freshRegion s r) = false →
          ends (.lockW 0x5A r) .otpCrc) ∧
        (s.otp.wlock.getLsbD r = false → otpConditions s = true → freshMarginal s r = false → wordsValid (freshRegion s r) = true →
          (s.otp.wFuse[r].nominal.getLsbD 0 = true → ends (.lockW 0x5A r) .ok) ∧
          (s.otp.wFuse[r] = OtpCell.blank → ∃ t, exec (.lockW 0x5A r) s = .next t ∧ begins t .lockW r 1)) ∧
        (s.otp.wlock.getLsbD r = false → otpConditions s = true → ends (.lockR 0x5A r) .state) ∧
        (s.otp.wlock.getLsbD r = true → otpConditions s = true → freshMarginal s r = false → wordsValid (freshRegion s r) = true →
          s.otp.rFuse[r] = OtpCell.blank → ∃ t, exec (.lockR 0x5A r) s = .next t ∧ begins t .lockR r 1)))) ∧
  (∀ (s : State) (seen : Word), s.canonical → (s.otp.job = none → exec (.otpPulseEnd seen) s = .next s) ∧
    ∀ j, s.otp.job = some j → ∃ t, exec (.otpPulseEnd seen) s = .next t ∧
      (j.kind = .program → j.copy < 3 →
        let x := otpCell s j.addr
        let y := otpCell t j.addr
        (∀ k : Fin 3, k.val ≠ j.copy → y.copy k = x.copy k) ∧ (x.copy j.copy).1 &&& ~~~(y.copy j.copy).1 = 0 ∧
          (x.copy j.copy).2 &&& ~~~(y.copy j.copy).2 = 0 ∧ seen &&& j.data &&& ~~~(y.copy j.copy).2 = 0 ∧
          seen &&& j.data &&& ~~~(y.copy j.copy).1 = 0 ∧ (y.copy j.copy).1 &&& ~~~((x.copy j.copy).1 ||| (x.copy j.copy).2 ||| j.data) = 0 ∧
          ∀ a, a ≠ j.addr → otpCell t a = otpCell s a) ∧
      (j.copy = 2 → j.data &&& ~~~seen = 0 → t.otp.job = none ∧ t.otp.done = true ∧ t.otp.copies = j.verified + 1 ∧
        (1 ≤ j.verified → t.otp.result = 0) ∧ (j.verified = 0 → t.otp.result = Status.verify.code) ∧
        (t.otp.marg = true ↔ j.verified = 1)) ∧
      (j.copy < 2 → j.pulses < 7 → s.eng.state ≠ .service → seen = 0 → j.data &&& ~~~((jobCell s j).copy j.copy).2 ≠ 0 →
        t.otp.job = none ∧ t.otp.result = Status.state.code))

/-- DMA_START to CHECK_UNIT_RUN_WRITE (R470, R473 to R482, R484, R485, tables "Channel commands" and "DMA instruction
encodings"; address errors by log 54, STOP at a boundary by log 58, the turn of the round robin by log 55). -/
def Obligations.DmaChannelsAndPrograms : Prop :=
  ∀ (s : State) (k : Fin 16), s.canonical →
    let c := s.dma.ch[k]
    let noWork : Prop := ∀ j : Fin 16, s.dma.ch[j].work = none
    let others (t : State) : Prop := (∀ j : Fin 16, j ≠ k → t.dma.ch[j] = s.dma.ch[j]) ∧ t.flt = s.flt
    let goes (i : Instr) (st : ChState) (p : Chan → Bool) : Prop :=
      ∃ t, exec i s = .next t ∧ t.dma.ch[k].state = st ∧ p t.dma.ch[k] = true ∧ others t
    (dmaWritable s = true →
      (c.state = .idle → goes (.dmaStart k) .running fun d => d.pc = c.entry && d.loops = [] && !d.dbPend && d.cur = none) ∧
      (c.state ≠ .idle → exec (.dmaStart k) s = .next s) ∧
      (c.state = .waiting → noWork → goes (.dmaStop k) .stopped fun d => d.pc = c.pc && d.loops = c.loops && d.cur = none) ∧
      (c.state = .running → noWork → c.cur = none → goes (.dmaStop k) .stopped fun d => d.pc = c.pc && d.loops = c.loops) ∧
      (c.state = .running → noWork → c.cur.isSome = true → goes (.dmaStop k) .running fun d => d = { c with stopReq := true }) ∧
      (c.state ≠ .waiting → c.state ≠ .running → noWork → exec (.dmaStop k) s = .next s) ∧
      ((c.state = .stopped ∨ c.state = .halted) → goes (.dmaResume k) .running fun d => d.pc = c.pc && d.loops = c.loops && d.cur = none) ∧
      (c.state ≠ .stopped → c.state ≠ .halted → exec (.dmaResume k) s = .next s) ∧
      ((c.state = .ended ∨ c.state = .stopped ∨ c.state = .halted) → goes (.dmaReset k) .idle fun d => d.loops = [] && d.endAt = c.endAt) ∧
      ((c.state = .idle ∨ c.state = .running ∨ c.state = .waiting) → exec (.dmaReset k) s = .next s) ∧
      (∀ v : Word,
        (c.state = .ended → goes (.dmaTailWrite k v) .running fun d => d.pc = c.endAt && d.dbPend && d.tail = v.toNat % 16384) ∧
        (c.state ≠ .ended → goes (.dmaTailWrite k v) c.state fun d => d = { c with tail := v.toNat % 16384, dbPend := true }) ∧
        ((c.state = .running ∨ c.state = .waiting) → goes (.dmaConfigWrite k v) c.state fun d => d = c) ∧
        (c.state ≠ .running → c.state ≠ .waiting → goes (.dmaConfigWrite k v) c.state fun d =>
          d = { c with vector := v.toNat % 64, irqEn := v.getLsbD 6, poison := v.getLsbD 7 }) ∧
        (∀ u : Fin 4, (s.dma.cu[u].busy = true → ∃ t, exec (.checkUnitRunWrite u v) s = .next t ∧ t.dma = s.dma) ∧
          (s.dma.cu[u].busy = false → ∃ t, exec (.checkUnitRunWrite u v) s = .next t ∧ t.dma.ch = s.dma.ch ∧
            t.dma.cu[u] = { s.dma.cu[u] with run := v.toNat % 2 ^ (polyOf s.dma.cu[u].poly).width, done := false })))) ∧
    (dmaOn s = true → c.state = .running → c.issued = false → c.work = none → c.cur = none → c.failed = none → c.hostOut = none →
      slotBad s c.pc = false → c.pc + 1 < 16384 →
      let w := dmaSlot s c.pc
      let st : ChState := if c.stopReq then .stopped else .running
      (decodeDma w = some .nop → goes (.nop k) st fun d => d.pc = c.pc + 1 && d.loops = c.loops) ∧
      (decodeDma w = some .done → goes (.dmaEnd k) .ended fun d => d.endAt = c.pc) ∧
      (∀ j < 16384, decodeDma w = some (.jump j) → goes (.jump k) st fun d => d.pc = j && d.loops = []) ∧
      (∀ kind e n, decodeDma w = some (.wait kind e n) → goes (.wait k) .waiting fun d =>
        d.cur = some w && d.pc = c.pc && d.waitStart = s.eng.sincePor && !d.seen) ∧
      (∀ n b, decodeDma w = some (.loop n b) →
        (loopOnTop c = false → c.loops.length < 4 → n = 1 → goes (.loop k) st fun d => d.pc = c.pc + 1 && d.loops = c.loops) ∧
        (loopOnTop c = false → c.loops.length < 4 → 1 < n → b ≤ c.pc → goes (.loop k) st fun d =>
          d.pc + b = c.pc && d.loops = { slot := c.pc, remain := n - 2, jumps := 1 } :: c.loops) ∧
        (loopOnTop c = false → 4 ≤ c.loops.length → collectorOn s = true → ∃ t, exec (.loop k) s = .next t ∧
          t.dma.ch[k].state = .halted ∧ t.dma.ch[k].errKind = .loopOverflow ∧ t.dma.ch[k].errPc = c.pc ∧ t.flt.sticky.has 0x1F5 = true) ∧
        (∀ f r, c.loops = f :: r → f.slot = c.pc →
          (f.remain = 0 → goes (.loop k) st fun d => d.pc = c.pc + 1 && d.loops = r) ∧
          (0 < f.remain → b ≤ c.pc → goes (.loop k) st fun d =>
            d.pc + b = c.pc && d.loops = { f with remain := f.remain - 1, jumps := f.jumps + 1 } :: r))) ∧
      (∀ irq half full ev e, decodeDma w = some (.signal irq half full ev e) → ∃ t, exec (.signal k) s = .next t ∧ others t ∧
        t.dma.ch[k].pc = c.pc + 1 ∧ t.dma.ch[k].sig = (c.sig || irq) ∧ t.dma.ch[k].half = (c.half || half) ∧
        t.dma.ch[k].full = (c.full || full) ∧ (∀ i : Fin 16, t.dma.flags.getLsbD i = (s.dma.flags.getLsbD i || (ev && i.val = e))) ∧
        (irq = true → c.irqEn = true → c.vector < 64 → s.host.msixMask.getLsbD c.vector = false →
          t.host.msix = s.host.msix ++ [Fin.ofNat 64 c.vector]) ∧
        ((irq = false ∨ c.irqEn = false) → t.host = s.host)) ∧
      (∀ x y ss ds src dst len, decodeDma w = some (.move x y ss ds src dst len) → dmaAlone s k = true → ∀ h ecc,
        let a := if x then src + c.jumps * len else src
        let b := if y then dst + c.jumps * len else dst
        ∃ t, exec (.move k h ecc) s = .next t ∧ t.dma.ch[k].state = .running ∧ t.dma.ch[k].pc = c.pc ∧
          t.dma.ch[k].cur = some w ∧ t.dma.ch[k].issued = true ∧ t.dma.ch[k].loops = c.loops ∧
          (5 ≤ ss → t.dma.ch[k].failed = some (.address, a, ss) ∧ t.host.out = s.host.out ∧ t.store = s.store ∧ t.dma.ram = s.dma.ram) ∧
          (ss = 4 → ds = 0 → s.dma.ramBad = [] → (∀ y ∈ ecc, y.2 = .clean) → a + len ≤ 0x40000 → b + len ≤ 2 ^ 44 → t.dma.ch[k].failed = none ∧
            t.dma.ch[k].hostOut = none ∧
            (t.host.out.drop s.host.out.length).flatMap (fun o => o.data) = (List.range len).map fun i => ramByte s (a + i)) ∧
          (ss = 0 → ds = 4 → h.missing = [] → h.poisoned = [] → len ≤ h.bytes.length → a + len ≤ 2 ^ 44 → b + len ≤ 0x40000 →
            t.dma.ch[k].failed = none ∧ t.dma.ch[k].hostOut = none ∧ (∀ i < len, ramByte t (b + i) = h.bytes.getD i 0) ∧
            ∀ i, (i < b ∨ b + len ≤ i) → ramByte t i = ramByte s i)) ∧
      (∀ init final adv sp addr len, ∀ u : Fin 4, decodeDma w = some (.scan init final adv u sp addr len) → ∀ h ecc,
        let a := if adv then addr + c.jumps * len else addr
        (s.dma.cu[u].busy = true → noWork → ∃ t, exec (.scan k h ecc) s = .next t ∧ t.dma.ch[k].unitWait = some u.val ∧
          t.dma.ch[k].issued = false ∧ t.dma.ch[k].pc = c.pc ∧ t.dma.cu = s.dma.cu) ∧
        (s.dma.cu[u].busy = false → lowerScan s k u = false → dmaAlone s k = true → ∃ t, exec (.scan k h ecc) s = .next t ∧ t.dma.ch[k].issued = true ∧
          t.dma.ch[k].pc = c.pc ∧ t.dma.cu[u].busy = true ∧ t.dma.cu[u].owner = k ∧
          (sp = 4 → s.dma.ramBad = [] → (∀ y ∈ ecc, y.2 = .clean) → s.dma.cu[u].fold = false → a + len ≤ 0x40000 → t.dma.ch[k].failed = none ∧
            t.dma.cu[u].run = ((List.range len).map fun i => ramByte s (a + i)).foldl (polyOf s.dma.cu[u].poly).feed
              ((if init then (polyOf s.dma.cu[u].poly).init else s.dma.cu[u].run) % 2 ^ (polyOf s.dma.cu[u].poly).width))))) ∧
    (dmaOn s = true → c.state = .waiting → c.pc + 1 < 16384 → ∀ w, c.cur = some w → ∀ kind e n, decodeDma w = some (.wait kind e n) →
      let st : ChState := if c.stopReq then .stopped else .running
      (kind = 0 → c.dbPend = true → goes (.waitComplete k) st fun d => d.pc = c.pc + 1 && !d.dbPend) ∧
      (kind = 0 → c.dbPend = false → exec (.waitComplete k) s = .next s) ∧
      (kind = 1 → c.waitStart + n ≤ s.eng.sincePor → goes (.waitComplete k) st fun d => d.pc = c.pc + 1 && d.dbPend = c.dbPend) ∧
      (kind = 1 → s.eng.sincePor < c.waitStart + n → exec (.waitComplete k) s = .next s) ∧
      (kind = 2 → e < 16 → s.dma.flags.getLsbD e = true → lowerWaits s k e = false → ∃ t, exec (.waitComplete k) s = .next t ∧
        others t ∧ t.dma.ch[k].pc = c.pc + 1 ∧ ∀ i : Fin 16, t.dma.flags.getLsbD i = (s.dma.flags.getLsbD i && i.val ≠ e)) ∧
      (kind = 2 → e < 16 → (s.dma.flags.getLsbD e = false ∨ lowerWaits s k e = true) → exec (.waitComplete k) s = .next s) ∧
      (kind = 2 → 16 ≤ e → c.seen = true → goes (.waitComplete k) st fun d => d.pc = c.pc + 1) ∧
      (kind = 2 → 16 ≤ e → c.seen = false → exec (.waitComplete k) s = .next s)) ∧
    (dmaOn s = true → c.state = .running → collectorOn s = true →
      let halts (x : DmaAnswer) (e : DmaErr) (a sp : Nat) : Prop := ∃ t, exec (.dmaInstructionComplete k x) s = .next t ∧
        t.dma.ch[k].state = .halted ∧ t.dma.ch[k].pc = c.pc ∧ t.dma.ch[k].errPc = c.pc ∧ t.dma.ch[k].errKind = e ∧
        t.dma.ch[k].errAddr = a ∧ t.dma.ch[k].errSpace = sp ∧ t.flt.sticky.has (if e = .poison then 0x1F6 else 0x1F5) = true
      (c.issued = true → c.pc + 1 < 16384 →
        (c.hostOut = none → c.failed = none → ∃ t, exec (.dmaInstructionComplete k .ok) s = .next t ∧ t.flt = s.flt ∧
          t.dma.ch[k].pc = c.pc + 1 ∧ t.dma.ch[k].state = (if c.stopReq then .stopped else .running) ∧ t.dma.ch[k].issued = false ∧
          ∀ w, c.cur = some w → ∀ init final adv sp addr len, ∀ u : Fin 4, decodeDma w = some (.scan init final adv u sp addr len) →
            t.dma.cu[u].busy = false ∧ (final = true → t.dma.cu[u].done = true)) ∧
        (c.hostOut.isSome = true → c.failed = none → exec (.dmaInstructionComplete k .ok) s = .next s ∧
          (∀ a, halts (.readError a) .readError a 0) ∧ (∀ a, halts (.timeout a) .timeout a 0)) ∧
        (∀ f, c.failed = some f → halts .ok f.1 f.2.1 f.2.2)) ∧
      (c.issued = false → c.work = none → decodeDma (chanWords s c) = none → ∃ t, exec (.dmaInstructionComplete k .ok) s = .next t ∧
        t.dma.ch[k].state = .halted ∧ t.dma.ch[k].errKind = .illegal ∧ t.dma.ch[k].errPc = c.pc ∧ t.flt.sticky.has 0x1F5 = true))

/-- IST_TEST_STEP and the TAP instructions (R486 to R491, R494, R495); items, laps, pace and the parts of a lap by logs 65 and
129, the agreement of the reference cells by log 122, the tick of an empty queue by log 9. -/
def Obligations.InServiceTestAndBoundaryScan : Prop :=
  ∀ s : State, s.canonical →
    (∀ (i : Fin 7) (x : IstStep),
      let a := s.ist.test[i]
      let live := istOn s = true ∧ s.ist.en.getLsbD i = true ∧ istTestOf x = i.val
      let b : IstTest := { a with running := true, start := if a.running then a.start else s.eng.sincePor }
      let late := a.running = true ∧ a.lapRaised = false ∧ s.ist.lapLim * 100000000 < s.eng.sincePor - a.start
      let fresh : IstTest := { b with running := false, start := 0, lapRaised := false, passed := [], failed := false }
      let ms := min (2 ^ 32 - 1) ((s.eng.sincePor - b.start) / 100000)
      let ended : IstTest := { fresh with lastFailed := a.failed, laps := a.laps + 1, lap := ms }
      let p := insertNat (istPart x) a.passed
      let after (q : Bool) := lapDone (s.modIst fun c => { c with test := c.test.set i { b with passed := p } }) i = q
      let others (t : State) : Prop := ∀ j : Fin 7, j ≠ i → t.ist.test[j] = s.ist.test[j]
      let quiet (t : State) : Prop := t.flt = s.flt ∧ t.ist.fails = s.ist.fails ∧ t.ist.seen = s.ist.seen ∧ others t
      let counts (f : State → Prop) : Prop := ∃ t, exec (.istTestStep i x) s = .next t ∧ t.ist.test[i] = b ∧ quiet t ∧
        t.law = s.law ∧ t.store = s.store ∧ f t
      let passes (f : State → Prop) : Prop := ∃ t, exec (.istTestStep i x) s = .next t ∧ quiet t ∧ t.law = s.law ∧ f t ∧
        (after false → t.ist.test[i] = { b with passed := p }) ∧
        (after true → t.ist.test[i] = ended)
      let fails (f : State → Prop) : Prop := ∃ t, exec (.istTestStep i x) s = .next t ∧ f t ∧ others t ∧
        t.ist.test[i] = { b with item := istItem s x % 65536, failed := true, failLap := some (a.laps % 2 ^ 32) } ∧
        (a.failed = true → t.ist.fails = s.ist.fails ∧ t.ist.seen = s.ist.seen) ∧
        (a.failed = false → t.ist.fails = min 65535 (s.ist.fails + 1) ∧ t.ist.seen.getLsbD i = true)
      let once (t : State) : Prop := (a.failed = true → t.flt = s.flt) ∧ (a.failed = false → t.flt.sticky.has 0x1FA = true)
      (¬ live → exec (.istTestStep i x) s = .next s) ∧
      (live → late → ∃ t, exec (.istTestStep i x) s = .next t ∧ t.flt.sticky.has 0x1FB = true) ∧
      (live → ¬ late → istFree s x = false → counts fun t => t = s.modIst fun c => { c with test := c.test.set i b }) ∧
      (live → ¬ late → istFree s x = true →
        (∀ n pol seen, x = .lane n pol seen →
          (seen = true → passes fun t => t.ist.injected = some s.law.sample ∧ t.store = s.store) ∧
          (seen = false → fails fun t => t.ist.injected = some s.law.sample ∧ once t)) ∧
        (∀ page l low high, x = .march page l low high → (∀ r : Fin 8, s.store.remap[r] = none) → mergeOf s (16384 * page + l) = none →
          (low = .clean → high = .clean → passes fun t => t.ist.marched = some s.eng.sincePor ∧
            (∀ j : Fin 64, memGet t.store.mem (64 * (16384 * page + l) + j) = 0xAA) ∧
            (∀ q, lineOf q ≠ 16384 * page + l → memGet t.store.mem q = memGet s.store.mem q)) ∧
          (∀ w syn more fixed, (low = .uncorrectable w syn more fixed ∨ high = .uncorrectable w syn more fixed) →
            fails fun t => t.ist.marched = some s.eng.sincePor)) ∧
        (∀ data w ecc ue, x = .word data w ecc ue →
          (ecc = false → ue = false → passes fun t => t.ist.words.1 = s.law.sample ∧ t.store = s.store) ∧
          ((ecc = true ∨ ue = true) → fails fun t => once t ∧ (ue = true → data = false → t.law.prgBad = true) ∧
            ((ue = false ∨ data = true) → t.law.prgBad = s.law.prgBad))) ∧
        (∀ ppm, x = .cell ppm →
          (trefNear (istItem s x) ppm = true → passes fun t => t.ist.converted = some s.eng.sincePor ∧ t.store = s.store) ∧
          (trefNear (istItem s x) ppm = false → fails fun t => t.ist.converted = some s.eng.sincePor ∧ once t)) ∧
        (∀ n hits dnl span, x = .tdc n hits dnl span →
          (s.ist.tdc[n] + hits < 65536 → counts fun t => t.ist.tdc[n] = s.ist.tdc[n] + hits) ∧
          (65536 ≤ s.ist.tdc[n] + hits → (dnl < 512 ∧ 9500 ≤ span ∧ span ≤ 10500) → passes fun t => t.ist.tdc[n] = 0) ∧
          (65536 ≤ s.ist.tdc[n] + hits → ¬ (dnl < 512 ∧ 9500 ≤ span ∧ span ≤ 10500) → fails fun t => t.ist.tdc[n] = 0 ∧ once t)) ∧
        (∀ c g k, x = .gate c g k →
          ((∃ d, k = some d ∧ d ≤ 2000) → passes fun t => t.sp = s.sp ∧ t.store = s.store) ∧
          ((¬ ∃ d, k = some d ∧ d ≤ 2000) → fails once)) ∧
        (∀ n headers, x = .port n headers →
          let start := (s.ist.ring[n].map (·.1)).getD s.eng.sincePor
          let base := (s.ist.ring[n].map (·.2.1)).getD s.ring.port[n].endBad
          let h := (s.ist.ring[n].map (·.2.2)).getD 0 + headers
          let errors := h + (s.ring.port[n].endBad - base)
          (s.ist.berLim < errors → fails fun t => t.ist.ring[n] = none ∧ once t) ∧
          (errors ≤ s.ist.berLim → 825 * (s.eng.sincePor - start) < 8 * 10 ^ 12 → counts fun t =>
            t.ist.ring[n] = some (start, base, h)) ∧
          (errors ≤ s.ist.berLim → 8 * 10 ^ 12 ≤ 825 * (s.eng.sincePor - start) → passes fun t =>
            after false → t.ist.ring[n] = some (start, base, h)))) ∧
      (s.pending = [] → istOn s = true → (s.eng.state = .idle ∨ s.eng.state = .service) → s.flt.rearm = false → s.flt.evtTick = none →
        (∀ n : Fin 8, s.sp[n].turn = none) → s.anch.eyeOn = false → s.clk.returnReady = false →
        a.running = true → a.lapRaised = false → s.ist.lapLim * 100000000 < s.eng.sincePor + 1 - a.start →
        ∃ t, step s = .next t ∧ t.flt.sticky.has 0x1FB = true ∧ t.ist.test[i] = { a with lapRaised := true })) ∧
    (let held := s.eng.state = .safe ∨ s.eng.state = .service
     let loads (c : Instr) (x : TapInstr) : Prop := ∃ t, exec c s = .next t ∧
       t = s.modTap fun _ => { ir := x, cells := if held then x else .samplePreload, holds := decide held }
     let releases (c : Instr) (x : TapInstr) : Prop := ∃ t, exec c s = .next t ∧
       t = s.modTap fun _ => { ir := x, cells := x, holds := false }
     loads .extest .extest ∧ loads .extestPulse .extestPulse ∧ loads .extestTrain .extestTrain ∧ loads .clamp .clamp ∧
       loads .highz .highz ∧ releases .bypass .bypass ∧ releases .idcode .idcode ∧ releases .samplePreload .samplePreload) ∧
    (s.eng.state ≠ .down → collectorOn s = true → s.flt.active.has 0x000 = false →
      ∃ t, exec (.stoInput true false) s = .next t ∧ t.tap.holds = false)
end

