-- ==== Sys2Proof/Laws/Calib.lean ====
section
/-! SUPPORT. Byte order and CRC bounds, and that a sealed calibration record is intact. -/

namespace Sys2Proof.Machine

open Sys2Proof.Bits

theorem Bits.byteAt_append_right (a b : List Byte) (i : Nat) : byteAt (a ++ b) (a.length + i) = byteAt b i := by
  simp [byteAt, List.getD_eq_getElem?_getD, List.getElem?_append_right]

theorem Bits.byteAt_append_left (a b : List Byte) (i : Nat) (h : i < a.length) : byteAt (a ++ b) i = byteAt a i := by
  simp [byteAt, List.getD_eq_getElem?_getD, List.getElem?_append_left h]

theorem Bits.le_append_right (a b : List Byte) (n i : Nat) : le (a ++ b) (a.length + i) n = le b i n := by
  induction n generalizing i with
  | zero => rfl
  | succ n ih => simp only [le, Bits.byteAt_append_right, ← ih (i + 1), Nat.add_assoc]

theorem Bits.le_append_left (a b : List Byte) (n i : Nat) (h : i + n ≤ a.length) : le (a ++ b) i n = le a i n := by
  induction n generalizing i with
  | zero => rfl
  | succ n ih => simp only [le, Bits.byteAt_append_left a b i (by omega), ih (i + 1) (by omega)]

theorem Bits.le_cons (x : Byte) (b : List Byte) (n i : Nat) : le (x :: b) (i + 1) n = le b i n := by
  induction n generalizing i with
  | zero => rfl
  | succ n ih => simp [le, byteAt, ih]

theorem Bits.toLE_length (n v : Nat) : (toLE n v).length = n := by
  induction n generalizing v with
  | zero => rfl
  | succ n ih => simp [toLE, ih]

/-- Bytes written little-endian read back. -/
theorem Bits.le_toLE (n v : Nat) : le (toLE n v) 0 n = v % 256 ^ n := by
  induction n generalizing v with
  | zero => simp [le, Nat.mod_one]
  | succ n ih =>
    have h : le (toLE (n + 1) v) 0 (n + 1) = v % 256 + 256 * le (toLE n (v / 256)) 0 n := by
      simp [le, toLE, Bits.le_cons, byteAt]
    rw [h, ih, Nat.pow_succ, Nat.mul_comm (256 ^ n) 256, Nat.mod_mul]

theorem Bits.shift_lt (r : Nat) (h : r < 2 ^ 32) : Poly.crc32c.shift r < 2 ^ 32 := by
  have h2 : r / 2 < 2 ^ 32 := by omega
  simp only [Poly.shift]
  split
  · exact Nat.xor_lt_two_pow h2 (by decide)
  · exact h2

theorem Bits.iterate_shift_lt (n r : Nat) (h : r < 2 ^ 32) : iterate Poly.crc32c.shift n r < 2 ^ 32 := by
  induction n generalizing r with
  | zero => exact h
  | succ n ih => exact ih _ (Bits.shift_lt r h)

theorem Bits.foldl_feed_lt (bs : List Byte) (r : Nat) (h : r < 2 ^ 32) : bs.foldl Poly.crc32c.feed r < 2 ^ 32 := by
  induction bs generalizing r with
  | nil => exact h
  | cons b bs ih =>
    refine ih _ (Bits.iterate_shift_lt 8 _ (Nat.xor_lt_two_pow h ?_))
    have := b.isLt
    omega

/-- A CRC-32C has 32 bits. -/
theorem Bits.crc32c_lt (bs : List Byte) : crc32c bs < 2 ^ 32 :=
  Nat.xor_lt_two_pow (Bits.foldl_feed_lt bs _ (by decide)) (by decide)

/-- A record that carries its own CRC is intact. -/
theorem calibIntact_sealCalib (b : List Byte) (h : b.length = 2292) (hv : u16 b 0 = 1) (hl : u16 b 2 = 2296) :
    calibIntact (sealCalib b) = true := by
  have h1 : u16 (sealCalib b) 0 = 1 := (Bits.le_append_left b _ 2 0 (by omega)).trans hv
  have h2 : u16 (sealCalib b) 2 = 2296 := (Bits.le_append_left b _ 2 2 (by omega)).trans hl
  have h3 : u32 (sealCalib b) 2292 = crc32c b := by
    have := Bits.le_append_right b (toLE 4 (crc32c b)) 4 0
    rw [h, Nat.add_zero] at this
    exact this.trans ((Bits.le_toLE 4 _).trans (Nat.mod_eq_of_lt (Bits.crc32c_lt b)))
  have h4 : (sealCalib b).take 2292 = b := by rw [← h]; exact List.take_left' rfl
  have h5 : (sealCalib b).length = 2296 := by simp [sealCalib, Bits.toLE_length, h]
  simp [calibIntact, calibLen, h1, h2, h3, h4, h5]

end Sys2Proof.Machine
end

