-- ==== Sys2Proof/Laws/State.lean ====
section
/-! SUPPORT. What each update of one unit of the state does to each field: the field itself, and no other. -/

namespace Sys2Proof.Machine

variable (s : State)

section
variable (f : Engine → Engine)
@[simp] theorem State.modEng_eng : (s.modEng f).eng = f s.eng := rfl
@[simp] theorem State.modEng_flt : (s.modEng f).flt = s.flt := rfl
@[simp] theorem State.modEng_boot : (s.modEng f).boot = s.boot := rfl
@[simp] theorem State.modEng_host : (s.modEng f).host = s.host := rfl
@[simp] theorem State.modEng_jobs : (s.modEng f).jobs = s.jobs := rfl
@[simp] theorem State.modEng_store : (s.modEng f).store = s.store := rfl
@[simp] theorem State.modEng_dec : (s.modEng f).dec = s.dec := rfl
@[simp] theorem State.modEng_anch : (s.modEng f).anch = s.anch := rfl
@[simp] theorem State.modEng_facet : (s.modEng f).facet = s.facet := rfl
@[simp] theorem State.modEng_reg : (s.modEng f).reg = s.reg := rfl
@[simp] theorem State.modEng_run : (s.modEng f).run = s.run := rfl
@[simp] theorem State.modEng_clk : (s.modEng f).clk = s.clk := rfl
@[simp] theorem State.modEng_scan : (s.modEng f).scan = s.scan := rfl
@[simp] theorem State.modEng_expo : (s.modEng f).expo = s.expo := rfl
@[simp] theorem State.modEng_il : (s.modEng f).il = s.il := rfl
@[simp] theorem State.modEng_sp : (s.modEng f).sp = s.sp := rfl
@[simp] theorem State.modEng_spBus : (s.modEng f).spBus = s.spBus := rfl
@[simp] theorem State.modEng_law : (s.modEng f).law = s.law := rfl
@[simp] theorem State.modEng_stage : (s.modEng f).stage = s.stage := rfl
@[simp] theorem State.modEng_bus : (s.modEng f).bus = s.bus := rfl
@[simp] theorem State.modEng_rope : (s.modEng f).rope = s.rope := rfl
@[simp] theorem State.modEng_drawLim : (s.modEng f).drawLim = s.drawLim := rfl
@[simp] theorem State.modEng_ramp : (s.modEng f).ramp = s.ramp := rfl
@[simp] theorem State.modEng_vBelay : (s.modEng f).vBelay = s.vBelay := rfl
@[simp] theorem State.modEng_aux : (s.modEng f).aux = s.aux := rfl
@[simp] theorem State.modEng_therm : (s.modEng f).therm = s.therm := rfl
@[simp] theorem State.modEng_htr : (s.modEng f).htr = s.htr := rfl
@[simp] theorem State.modEng_hv : (s.modEng f).hv = s.hv := rfl
@[simp] theorem State.modEng_ring : (s.modEng f).ring = s.ring := rfl
@[simp] theorem State.modEng_pwr : (s.modEng f).pwr = s.pwr := rfl
@[simp] theorem State.modEng_otp : (s.modEng f).otp = s.otp := rfl
@[simp] theorem State.modEng_cons : (s.modEng f).cons = s.cons := rfl
@[simp] theorem State.modEng_pers : (s.modEng f).pers = s.pers := rfl
@[simp] theorem State.modEng_dma : (s.modEng f).dma = s.dma := rfl
@[simp] theorem State.modEng_ist : (s.modEng f).ist = s.ist := rfl
@[simp] theorem State.modEng_tap : (s.modEng f).tap = s.tap := rfl
@[simp] theorem State.modEng_w1c : (s.modEng f).w1c = s.w1c := rfl
@[simp] theorem State.modEng_freeCtr : (s.modEng f).freeCtr = s.freeCtr := rfl
@[simp] theorem State.modEng_pending : (s.modEng f).pending = s.pending := rfl
end

section
variable (f : Faults → Faults)
@[simp] theorem State.modFlt_eng : (s.modFlt f).eng = s.eng := rfl
@[simp] theorem State.modFlt_flt : (s.modFlt f).flt = f s.flt := rfl
@[simp] theorem State.modFlt_boot : (s.modFlt f).boot = s.boot := rfl
@[simp] theorem State.modFlt_host : (s.modFlt f).host = s.host := rfl
@[simp] theorem State.modFlt_jobs : (s.modFlt f).jobs = s.jobs := rfl
@[simp] theorem State.modFlt_store : (s.modFlt f).store = s.store := rfl
@[simp] theorem State.modFlt_dec : (s.modFlt f).dec = s.dec := rfl
@[simp] theorem State.modFlt_anch : (s.modFlt f).anch = s.anch := rfl
@[simp] theorem State.modFlt_facet : (s.modFlt f).facet = s.facet := rfl
@[simp] theorem State.modFlt_reg : (s.modFlt f).reg = s.reg := rfl
@[simp] theorem State.modFlt_run : (s.modFlt f).run = s.run := rfl
@[simp] theorem State.modFlt_clk : (s.modFlt f).clk = s.clk := rfl
@[simp] theorem State.modFlt_scan : (s.modFlt f).scan = s.scan := rfl
@[simp] theorem State.modFlt_expo : (s.modFlt f).expo = s.expo := rfl
@[simp] theorem State.modFlt_il : (s.modFlt f).il = s.il := rfl
@[simp] theorem State.modFlt_sp : (s.modFlt f).sp = s.sp := rfl
@[simp] theorem State.modFlt_spBus : (s.modFlt f).spBus = s.spBus := rfl
@[simp] theorem State.modFlt_law : (s.modFlt f).law = s.law := rfl
@[simp] theorem State.modFlt_stage : (s.modFlt f).stage = s.stage := rfl
@[simp] theorem State.modFlt_bus : (s.modFlt f).bus = s.bus := rfl
@[simp] theorem State.modFlt_rope : (s.modFlt f).rope = s.rope := rfl
@[simp] theorem State.modFlt_drawLim : (s.modFlt f).drawLim = s.drawLim := rfl
@[simp] theorem State.modFlt_ramp : (s.modFlt f).ramp = s.ramp := rfl
@[simp] theorem State.modFlt_vBelay : (s.modFlt f).vBelay = s.vBelay := rfl
@[simp] theorem State.modFlt_aux : (s.modFlt f).aux = s.aux := rfl
@[simp] theorem State.modFlt_therm : (s.modFlt f).therm = s.therm := rfl
@[simp] theorem State.modFlt_htr : (s.modFlt f).htr = s.htr := rfl
@[simp] theorem State.modFlt_hv : (s.modFlt f).hv = s.hv := rfl
@[simp] theorem State.modFlt_ring : (s.modFlt f).ring = s.ring := rfl
@[simp] theorem State.modFlt_pwr : (s.modFlt f).pwr = s.pwr := rfl
@[simp] theorem State.modFlt_otp : (s.modFlt f).otp = s.otp := rfl
@[simp] theorem State.modFlt_cons : (s.modFlt f).cons = s.cons := rfl
@[simp] theorem State.modFlt_pers : (s.modFlt f).pers = s.pers := rfl
@[simp] theorem State.modFlt_dma : (s.modFlt f).dma = s.dma := rfl
@[simp] theorem State.modFlt_ist : (s.modFlt f).ist = s.ist := rfl
@[simp] theorem State.modFlt_tap : (s.modFlt f).tap = s.tap := rfl
@[simp] theorem State.modFlt_w1c : (s.modFlt f).w1c = s.w1c := rfl
@[simp] theorem State.modFlt_freeCtr : (s.modFlt f).freeCtr = s.freeCtr := rfl
@[simp] theorem State.modFlt_pending : (s.modFlt f).pending = s.pending := rfl
end

section
variable (f : Boot → Boot)
@[simp] theorem State.modBoot_eng : (s.modBoot f).eng = s.eng := rfl
@[simp] theorem State.modBoot_flt : (s.modBoot f).flt = s.flt := rfl
@[simp] theorem State.modBoot_boot : (s.modBoot f).boot = f s.boot := rfl
@[simp] theorem State.modBoot_host : (s.modBoot f).host = s.host := rfl
@[simp] theorem State.modBoot_jobs : (s.modBoot f).jobs = s.jobs := rfl
@[simp] theorem State.modBoot_store : (s.modBoot f).store = s.store := rfl
@[simp] theorem State.modBoot_dec : (s.modBoot f).dec = s.dec := rfl
@[simp] theorem State.modBoot_anch : (s.modBoot f).anch = s.anch := rfl
@[simp] theorem State.modBoot_facet : (s.modBoot f).facet = s.facet := rfl
@[simp] theorem State.modBoot_reg : (s.modBoot f).reg = s.reg := rfl
@[simp] theorem State.modBoot_run : (s.modBoot f).run = s.run := rfl
@[simp] theorem State.modBoot_clk : (s.modBoot f).clk = s.clk := rfl
@[simp] theorem State.modBoot_scan : (s.modBoot f).scan = s.scan := rfl
@[simp] theorem State.modBoot_expo : (s.modBoot f).expo = s.expo := rfl
@[simp] theorem State.modBoot_il : (s.modBoot f).il = s.il := rfl
@[simp] theorem State.modBoot_sp : (s.modBoot f).sp = s.sp := rfl
@[simp] theorem State.modBoot_spBus : (s.modBoot f).spBus = s.spBus := rfl
@[simp] theorem State.modBoot_law : (s.modBoot f).law = s.law := rfl
@[simp] theorem State.modBoot_stage : (s.modBoot f).stage = s.stage := rfl
@[simp] theorem State.modBoot_bus : (s.modBoot f).bus = s.bus := rfl
@[simp] theorem State.modBoot_rope : (s.modBoot f).rope = s.rope := rfl
@[simp] theorem State.modBoot_drawLim : (s.modBoot f).drawLim = s.drawLim := rfl
@[simp] theorem State.modBoot_ramp : (s.modBoot f).ramp = s.ramp := rfl
@[simp] theorem State.modBoot_vBelay : (s.modBoot f).vBelay = s.vBelay := rfl
@[simp] theorem State.modBoot_aux : (s.modBoot f).aux = s.aux := rfl
@[simp] theorem State.modBoot_therm : (s.modBoot f).therm = s.therm := rfl
@[simp] theorem State.modBoot_htr : (s.modBoot f).htr = s.htr := rfl
@[simp] theorem State.modBoot_hv : (s.modBoot f).hv = s.hv := rfl
@[simp] theorem State.modBoot_ring : (s.modBoot f).ring = s.ring := rfl
@[simp] theorem State.modBoot_pwr : (s.modBoot f).pwr = s.pwr := rfl
@[simp] theorem State.modBoot_otp : (s.modBoot f).otp = s.otp := rfl
@[simp] theorem State.modBoot_cons : (s.modBoot f).cons = s.cons := rfl
@[simp] theorem State.modBoot_pers : (s.modBoot f).pers = s.pers := rfl
@[simp] theorem State.modBoot_dma : (s.modBoot f).dma = s.dma := rfl
@[simp] theorem State.modBoot_ist : (s.modBoot f).ist = s.ist := rfl
@[simp] theorem State.modBoot_tap : (s.modBoot f).tap = s.tap := rfl
@[simp] theorem State.modBoot_w1c : (s.modBoot f).w1c = s.w1c := rfl
@[simp] theorem State.modBoot_freeCtr : (s.modBoot f).freeCtr = s.freeCtr := rfl
@[simp] theorem State.modBoot_pending : (s.modBoot f).pending = s.pending := rfl
end

section
variable (f : HostIf → HostIf)
@[simp] theorem State.modHost_eng : (s.modHost f).eng = s.eng := rfl
@[simp] theorem State.modHost_flt : (s.modHost f).flt = s.flt := rfl
@[simp] theorem State.modHost_boot : (s.modHost f).boot = s.boot := rfl
@[simp] theorem State.modHost_host : (s.modHost f).host = f s.host := rfl
@[simp] theorem State.modHost_jobs : (s.modHost f).jobs = s.jobs := rfl
@[simp] theorem State.modHost_store : (s.modHost f).store = s.store := rfl
@[simp] theorem State.modHost_dec : (s.modHost f).dec = s.dec := rfl
@[simp] theorem State.modHost_anch : (s.modHost f).anch = s.anch := rfl
@[simp] theorem State.modHost_facet : (s.modHost f).facet = s.facet := rfl
@[simp] theorem State.modHost_reg : (s.modHost f).reg = s.reg := rfl
@[simp] theorem State.modHost_run : (s.modHost f).run = s.run := rfl
@[simp] theorem State.modHost_clk : (s.modHost f).clk = s.clk := rfl
@[simp] theorem State.modHost_scan : (s.modHost f).scan = s.scan := rfl
@[simp] theorem State.modHost_expo : (s.modHost f).expo = s.expo := rfl
@[simp] theorem State.modHost_il : (s.modHost f).il = s.il := rfl
@[simp] theorem State.modHost_sp : (s.modHost f).sp = s.sp := rfl
@[simp] theorem State.modHost_spBus : (s.modHost f).spBus = s.spBus := rfl
@[simp] theorem State.modHost_law : (s.modHost f).law = s.law := rfl
@[simp] theorem State.modHost_stage : (s.modHost f).stage = s.stage := rfl
@[simp] theorem State.modHost_bus : (s.modHost f).bus = s.bus := rfl
@[simp] theorem State.modHost_rope : (s.modHost f).rope = s.rope := rfl
@[simp] theorem State.modHost_drawLim : (s.modHost f).drawLim = s.drawLim := rfl
@[simp] theorem State.modHost_ramp : (s.modHost f).ramp = s.ramp := rfl
@[simp] theorem State.modHost_vBelay : (s.modHost f).vBelay = s.vBelay := rfl
@[simp] theorem State.modHost_aux : (s.modHost f).aux = s.aux := rfl
@[simp] theorem State.modHost_therm : (s.modHost f).therm = s.therm := rfl
@[simp] theorem State.modHost_htr : (s.modHost f).htr = s.htr := rfl
@[simp] theorem State.modHost_hv : (s.modHost f).hv = s.hv := rfl
@[simp] theorem State.modHost_ring : (s.modHost f).ring = s.ring := rfl
@[simp] theorem State.modHost_pwr : (s.modHost f).pwr = s.pwr := rfl
@[simp] theorem State.modHost_otp : (s.modHost f).otp = s.otp := rfl
@[simp] theorem State.modHost_cons : (s.modHost f).cons = s.cons := rfl
@[simp] theorem State.modHost_pers : (s.modHost f).pers = s.pers := rfl
@[simp] theorem State.modHost_dma : (s.modHost f).dma = s.dma := rfl
@[simp] theorem State.modHost_ist : (s.modHost f).ist = s.ist := rfl
@[simp] theorem State.modHost_tap : (s.modHost f).tap = s.tap := rfl
@[simp] theorem State.modHost_w1c : (s.modHost f).w1c = s.w1c := rfl
@[simp] theorem State.modHost_freeCtr : (s.modHost f).freeCtr = s.freeCtr := rfl
@[simp] theorem State.modHost_pending : (s.modHost f).pending = s.pending := rfl
end

section
variable (f : Jobs → Jobs)
@[simp] theorem State.modJobs_eng : (s.modJobs f).eng = s.eng := rfl
@[simp] theorem State.modJobs_flt : (s.modJobs f).flt = s.flt := rfl
@[simp] theorem State.modJobs_boot : (s.modJobs f).boot = s.boot := rfl
@[simp] theorem State.modJobs_host : (s.modJobs f).host = s.host := rfl
@[simp] theorem State.modJobs_jobs : (s.modJobs f).jobs = f s.jobs := rfl
@[simp] theorem State.modJobs_store : (s.modJobs f).store = s.store := rfl
@[simp] theorem State.modJobs_dec : (s.modJobs f).dec = s.dec := rfl
@[simp] theorem State.modJobs_anch : (s.modJobs f).anch = s.anch := rfl
@[simp] theorem State.modJobs_facet : (s.modJobs f).facet = s.facet := rfl
@[simp] theorem State.modJobs_reg : (s.modJobs f).reg = s.reg := rfl
@[simp] theorem State.modJobs_run : (s.modJobs f).run = s.run := rfl
@[simp] theorem State.modJobs_clk : (s.modJobs f).clk = s.clk := rfl
@[simp] theorem State.modJobs_scan : (s.modJobs f).scan = s.scan := rfl
@[simp] theorem State.modJobs_expo : (s.modJobs f).expo = s.expo := rfl
@[simp] theorem State.modJobs_il : (s.modJobs f).il = s.il := rfl
@[simp] theorem State.modJobs_sp : (s.modJobs f).sp = s.sp := rfl
@[simp] theorem State.modJobs_spBus : (s.modJobs f).spBus = s.spBus := rfl
@[simp] theorem State.modJobs_law : (s.modJobs f).law = s.law := rfl
@[simp] theorem State.modJobs_stage : (s.modJobs f).stage = s.stage := rfl
@[simp] theorem State.modJobs_bus : (s.modJobs f).bus = s.bus := rfl
@[simp] theorem State.modJobs_rope : (s.modJobs f).rope = s.rope := rfl
@[simp] theorem State.modJobs_drawLim : (s.modJobs f).drawLim = s.drawLim := rfl
@[simp] theorem State.modJobs_ramp : (s.modJobs f).ramp = s.ramp := rfl
@[simp] theorem State.modJobs_vBelay : (s.modJobs f).vBelay = s.vBelay := rfl
@[simp] theorem State.modJobs_aux : (s.modJobs f).aux = s.aux := rfl
@[simp] theorem State.modJobs_therm : (s.modJobs f).therm = s.therm := rfl
@[simp] theorem State.modJobs_htr : (s.modJobs f).htr = s.htr := rfl
@[simp] theorem State.modJobs_hv : (s.modJobs f).hv = s.hv := rfl
@[simp] theorem State.modJobs_ring : (s.modJobs f).ring = s.ring := rfl
@[simp] theorem State.modJobs_pwr : (s.modJobs f).pwr = s.pwr := rfl
@[simp] theorem State.modJobs_otp : (s.modJobs f).otp = s.otp := rfl
@[simp] theorem State.modJobs_cons : (s.modJobs f).cons = s.cons := rfl
@[simp] theorem State.modJobs_pers : (s.modJobs f).pers = s.pers := rfl
@[simp] theorem State.modJobs_dma : (s.modJobs f).dma = s.dma := rfl
@[simp] theorem State.modJobs_ist : (s.modJobs f).ist = s.ist := rfl
@[simp] theorem State.modJobs_tap : (s.modJobs f).tap = s.tap := rfl
@[simp] theorem State.modJobs_w1c : (s.modJobs f).w1c = s.w1c := rfl
@[simp] theorem State.modJobs_freeCtr : (s.modJobs f).freeCtr = s.freeCtr := rfl
@[simp] theorem State.modJobs_pending : (s.modJobs f).pending = s.pending := rfl
end

section
variable (f : Store → Store)
@[simp] theorem State.modStore_eng : (s.modStore f).eng = s.eng := rfl
@[simp] theorem State.modStore_flt : (s.modStore f).flt = s.flt := rfl
@[simp] theorem State.modStore_boot : (s.modStore f).boot = s.boot := rfl
@[simp] theorem State.modStore_host : (s.modStore f).host = s.host := rfl
@[simp] theorem State.modStore_jobs : (s.modStore f).jobs = s.jobs := rfl
@[simp] theorem State.modStore_store : (s.modStore f).store = f s.store := rfl
@[simp] theorem State.modStore_dec : (s.modStore f).dec = s.dec := rfl
@[simp] theorem State.modStore_anch : (s.modStore f).anch = s.anch := rfl
@[simp] theorem State.modStore_facet : (s.modStore f).facet = s.facet := rfl
@[simp] theorem State.modStore_reg : (s.modStore f).reg = s.reg := rfl
@[simp] theorem State.modStore_run : (s.modStore f).run = s.run := rfl
@[simp] theorem State.modStore_clk : (s.modStore f).clk = s.clk := rfl
@[simp] theorem State.modStore_scan : (s.modStore f).scan = s.scan := rfl
@[simp] theorem State.modStore_expo : (s.modStore f).expo = s.expo := rfl
@[simp] theorem State.modStore_il : (s.modStore f).il = s.il := rfl
@[simp] theorem State.modStore_sp : (s.modStore f).sp = s.sp := rfl
@[simp] theorem State.modStore_spBus : (s.modStore f).spBus = s.spBus := rfl
@[simp] theorem State.modStore_law : (s.modStore f).law = s.law := rfl
@[simp] theorem State.modStore_stage : (s.modStore f).stage = s.stage := rfl
@[simp] theorem State.modStore_bus : (s.modStore f).bus = s.bus := rfl
@[simp] theorem State.modStore_rope : (s.modStore f).rope = s.rope := rfl
@[simp] theorem State.modStore_drawLim : (s.modStore f).drawLim = s.drawLim := rfl
@[simp] theorem State.modStore_ramp : (s.modStore f).ramp = s.ramp := rfl
@[simp] theorem State.modStore_vBelay : (s.modStore f).vBelay = s.vBelay := rfl
@[simp] theorem State.modStore_aux : (s.modStore f).aux = s.aux := rfl
@[simp] theorem State.modStore_therm : (s.modStore f).therm = s.therm := rfl
@[simp] theorem State.modStore_htr : (s.modStore f).htr = s.htr := rfl
@[simp] theorem State.modStore_hv : (s.modStore f).hv = s.hv := rfl
@[simp] theorem State.modStore_ring : (s.modStore f).ring = s.ring := rfl
@[simp] theorem State.modStore_pwr : (s.modStore f).pwr = s.pwr := rfl
@[simp] theorem State.modStore_otp : (s.modStore f).otp = s.otp := rfl
@[simp] theorem State.modStore_cons : (s.modStore f).cons = s.cons := rfl
@[simp] theorem State.modStore_pers : (s.modStore f).pers = s.pers := rfl
@[simp] theorem State.modStore_dma : (s.modStore f).dma = s.dma := rfl
@[simp] theorem State.modStore_ist : (s.modStore f).ist = s.ist := rfl
@[simp] theorem State.modStore_tap : (s.modStore f).tap = s.tap := rfl
@[simp] theorem State.modStore_w1c : (s.modStore f).w1c = s.w1c := rfl
@[simp] theorem State.modStore_freeCtr : (s.modStore f).freeCtr = s.freeCtr := rfl
@[simp] theorem State.modStore_pending : (s.modStore f).pending = s.pending := rfl
end

section
variable (f : Vector Decoder 8 → Vector Decoder 8)
@[simp] theorem State.modDec_eng : (s.modDec f).eng = s.eng := rfl
@[simp] theorem State.modDec_flt : (s.modDec f).flt = s.flt := rfl
@[simp] theorem State.modDec_boot : (s.modDec f).boot = s.boot := rfl
@[simp] theorem State.modDec_host : (s.modDec f).host = s.host := rfl
@[simp] theorem State.modDec_jobs : (s.modDec f).jobs = s.jobs := rfl
@[simp] theorem State.modDec_store : (s.modDec f).store = s.store := rfl
@[simp] theorem State.modDec_dec : (s.modDec f).dec = f s.dec := rfl
@[simp] theorem State.modDec_anch : (s.modDec f).anch = s.anch := rfl
@[simp] theorem State.modDec_facet : (s.modDec f).facet = s.facet := rfl
@[simp] theorem State.modDec_reg : (s.modDec f).reg = s.reg := rfl
@[simp] theorem State.modDec_run : (s.modDec f).run = s.run := rfl
@[simp] theorem State.modDec_clk : (s.modDec f).clk = s.clk := rfl
@[simp] theorem State.modDec_scan : (s.modDec f).scan = s.scan := rfl
@[simp] theorem State.modDec_expo : (s.modDec f).expo = s.expo := rfl
@[simp] theorem State.modDec_il : (s.modDec f).il = s.il := rfl
@[simp] theorem State.modDec_sp : (s.modDec f).sp = s.sp := rfl
@[simp] theorem State.modDec_spBus : (s.modDec f).spBus = s.spBus := rfl
@[simp] theorem State.modDec_law : (s.modDec f).law = s.law := rfl
@[simp] theorem State.modDec_stage : (s.modDec f).stage = s.stage := rfl
@[simp] theorem State.modDec_bus : (s.modDec f).bus = s.bus := rfl
@[simp] theorem State.modDec_rope : (s.modDec f).rope = s.rope := rfl
@[simp] theorem State.modDec_drawLim : (s.modDec f).drawLim = s.drawLim := rfl
@[simp] theorem State.modDec_ramp : (s.modDec f).ramp = s.ramp := rfl
@[simp] theorem State.modDec_vBelay : (s.modDec f).vBelay = s.vBelay := rfl
@[simp] theorem State.modDec_aux : (s.modDec f).aux = s.aux := rfl
@[simp] theorem State.modDec_therm : (s.modDec f).therm = s.therm := rfl
@[simp] theorem State.modDec_htr : (s.modDec f).htr = s.htr := rfl
@[simp] theorem State.modDec_hv : (s.modDec f).hv = s.hv := rfl
@[simp] theorem State.modDec_ring : (s.modDec f).ring = s.ring := rfl
@[simp] theorem State.modDec_pwr : (s.modDec f).pwr = s.pwr := rfl
@[simp] theorem State.modDec_otp : (s.modDec f).otp = s.otp := rfl
@[simp] theorem State.modDec_cons : (s.modDec f).cons = s.cons := rfl
@[simp] theorem State.modDec_pers : (s.modDec f).pers = s.pers := rfl
@[simp] theorem State.modDec_dma : (s.modDec f).dma = s.dma := rfl
@[simp] theorem State.modDec_ist : (s.modDec f).ist = s.ist := rfl
@[simp] theorem State.modDec_tap : (s.modDec f).tap = s.tap := rfl
@[simp] theorem State.modDec_w1c : (s.modDec f).w1c = s.w1c := rfl
@[simp] theorem State.modDec_freeCtr : (s.modDec f).freeCtr = s.freeCtr := rfl
@[simp] theorem State.modDec_pending : (s.modDec f).pending = s.pending := rfl
end

section
variable (f : Anchor → Anchor)
@[simp] theorem State.modAnch_eng : (s.modAnch f).eng = s.eng := rfl
@[simp] theorem State.modAnch_flt : (s.modAnch f).flt = s.flt := rfl
@[simp] theorem State.modAnch_boot : (s.modAnch f).boot = s.boot := rfl
@[simp] theorem State.modAnch_host : (s.modAnch f).host = s.host := rfl
@[simp] theorem State.modAnch_jobs : (s.modAnch f).jobs = s.jobs := rfl
@[simp] theorem State.modAnch_store : (s.modAnch f).store = s.store := rfl
@[simp] theorem State.modAnch_dec : (s.modAnch f).dec = s.dec := rfl
@[simp] theorem State.modAnch_anch : (s.modAnch f).anch = f s.anch := rfl
@[simp] theorem State.modAnch_facet : (s.modAnch f).facet = s.facet := rfl
@[simp] theorem State.modAnch_reg : (s.modAnch f).reg = s.reg := rfl
@[simp] theorem State.modAnch_run : (s.modAnch f).run = s.run := rfl
@[simp] theorem State.modAnch_clk : (s.modAnch f).clk = s.clk := rfl
@[simp] theorem State.modAnch_scan : (s.modAnch f).scan = s.scan := rfl
@[simp] theorem State.modAnch_expo : (s.modAnch f).expo = s.expo := rfl
@[simp] theorem State.modAnch_il : (s.modAnch f).il = s.il := rfl
@[simp] theorem State.modAnch_sp : (s.modAnch f).sp = s.sp := rfl
@[simp] theorem State.modAnch_spBus : (s.modAnch f).spBus = s.spBus := rfl
@[simp] theorem State.modAnch_law : (s.modAnch f).law = s.law := rfl
@[simp] theorem State.modAnch_stage : (s.modAnch f).stage = s.stage := rfl
@[simp] theorem State.modAnch_bus : (s.modAnch f).bus = s.bus := rfl
@[simp] theorem State.modAnch_rope : (s.modAnch f).rope = s.rope := rfl
@[simp] theorem State.modAnch_drawLim : (s.modAnch f).drawLim = s.drawLim := rfl
@[simp] theorem State.modAnch_ramp : (s.modAnch f).ramp = s.ramp := rfl
@[simp] theorem State.modAnch_vBelay : (s.modAnch f).vBelay = s.vBelay := rfl
@[simp] theorem State.modAnch_aux : (s.modAnch f).aux = s.aux := rfl
@[simp] theorem State.modAnch_therm : (s.modAnch f).therm = s.therm := rfl
@[simp] theorem State.modAnch_htr : (s.modAnch f).htr = s.htr := rfl
@[simp] theorem State.modAnch_hv : (s.modAnch f).hv = s.hv := rfl
@[simp] theorem State.modAnch_ring : (s.modAnch f).ring = s.ring := rfl
@[simp] theorem State.modAnch_pwr : (s.modAnch f).pwr = s.pwr := rfl
@[simp] theorem State.modAnch_otp : (s.modAnch f).otp = s.otp := rfl
@[simp] theorem State.modAnch_cons : (s.modAnch f).cons = s.cons := rfl
@[simp] theorem State.modAnch_pers : (s.modAnch f).pers = s.pers := rfl
@[simp] theorem State.modAnch_dma : (s.modAnch f).dma = s.dma := rfl
@[simp] theorem State.modAnch_ist : (s.modAnch f).ist = s.ist := rfl
@[simp] theorem State.modAnch_tap : (s.modAnch f).tap = s.tap := rfl
@[simp] theorem State.modAnch_w1c : (s.modAnch f).w1c = s.w1c := rfl
@[simp] theorem State.modAnch_freeCtr : (s.modAnch f).freeCtr = s.freeCtr := rfl
@[simp] theorem State.modAnch_pending : (s.modAnch f).pending = s.pending := rfl
end

section
variable (f : Facet → Facet)
@[simp] theorem State.modFacet_eng : (s.modFacet f).eng = s.eng := rfl
@[simp] theorem State.modFacet_flt : (s.modFacet f).flt = s.flt := rfl
@[simp] theorem State.modFacet_boot : (s.modFacet f).boot = s.boot := rfl
@[simp] theorem State.modFacet_host : (s.modFacet f).host = s.host := rfl
@[simp] theorem State.modFacet_jobs : (s.modFacet f).jobs = s.jobs := rfl
@[simp] theorem State.modFacet_store : (s.modFacet f).store = s.store := rfl
@[simp] theorem State.modFacet_dec : (s.modFacet f).dec = s.dec := rfl
@[simp] theorem State.modFacet_anch : (s.modFacet f).anch = s.anch := rfl
@[simp] theorem State.modFacet_facet : (s.modFacet f).facet = f s.facet := rfl
@[simp] theorem State.modFacet_reg : (s.modFacet f).reg = s.reg := rfl
@[simp] theorem State.modFacet_run : (s.modFacet f).run = s.run := rfl
@[simp] theorem State.modFacet_clk : (s.modFacet f).clk = s.clk := rfl
@[simp] theorem State.modFacet_scan : (s.modFacet f).scan = s.scan := rfl
@[simp] theorem State.modFacet_expo : (s.modFacet f).expo = s.expo := rfl
@[simp] theorem State.modFacet_il : (s.modFacet f).il = s.il := rfl
@[simp] theorem State.modFacet_sp : (s.modFacet f).sp = s.sp := rfl
@[simp] theorem State.modFacet_spBus : (s.modFacet f).spBus = s.spBus := rfl
@[simp] theorem State.modFacet_law : (s.modFacet f).law = s.law := rfl
@[simp] theorem State.modFacet_stage : (s.modFacet f).stage = s.stage := rfl
@[simp] theorem State.modFacet_bus : (s.modFacet f).bus = s.bus := rfl
@[simp] theorem State.modFacet_rope : (s.modFacet f).rope = s.rope := rfl
@[simp] theorem State.modFacet_drawLim : (s.modFacet f).drawLim = s.drawLim := rfl
@[simp] theorem State.modFacet_ramp : (s.modFacet f).ramp = s.ramp := rfl
@[simp] theorem State.modFacet_vBelay : (s.modFacet f).vBelay = s.vBelay := rfl
@[simp] theorem State.modFacet_aux : (s.modFacet f).aux = s.aux := rfl
@[simp] theorem State.modFacet_therm : (s.modFacet f).therm = s.therm := rfl
@[simp] theorem State.modFacet_htr : (s.modFacet f).htr = s.htr := rfl
@[simp] theorem State.modFacet_hv : (s.modFacet f).hv = s.hv := rfl
@[simp] theorem State.modFacet_ring : (s.modFacet f).ring = s.ring := rfl
@[simp] theorem State.modFacet_pwr : (s.modFacet f).pwr = s.pwr := rfl
@[simp] theorem State.modFacet_otp : (s.modFacet f).otp = s.otp := rfl
@[simp] theorem State.modFacet_cons : (s.modFacet f).cons = s.cons := rfl
@[simp] theorem State.modFacet_pers : (s.modFacet f).pers = s.pers := rfl
@[simp] theorem State.modFacet_dma : (s.modFacet f).dma = s.dma := rfl
@[simp] theorem State.modFacet_ist : (s.modFacet f).ist = s.ist := rfl
@[simp] theorem State.modFacet_tap : (s.modFacet f).tap = s.tap := rfl
@[simp] theorem State.modFacet_w1c : (s.modFacet f).w1c = s.w1c := rfl
@[simp] theorem State.modFacet_freeCtr : (s.modFacet f).freeCtr = s.freeCtr := rfl
@[simp] theorem State.modFacet_pending : (s.modFacet f).pending = s.pending := rfl
end

section
variable (f : Vector RegStation 8 → Vector RegStation 8)
@[simp] theorem State.modReg_eng : (s.modReg f).eng = s.eng := rfl
@[simp] theorem State.modReg_flt : (s.modReg f).flt = s.flt := rfl
@[simp] theorem State.modReg_boot : (s.modReg f).boot = s.boot := rfl
@[simp] theorem State.modReg_host : (s.modReg f).host = s.host := rfl
@[simp] theorem State.modReg_jobs : (s.modReg f).jobs = s.jobs := rfl
@[simp] theorem State.modReg_store : (s.modReg f).store = s.store := rfl
@[simp] theorem State.modReg_dec : (s.modReg f).dec = s.dec := rfl
@[simp] theorem State.modReg_anch : (s.modReg f).anch = s.anch := rfl
@[simp] theorem State.modReg_facet : (s.modReg f).facet = s.facet := rfl
@[simp] theorem State.modReg_reg : (s.modReg f).reg = f s.reg := rfl
@[simp] theorem State.modReg_run : (s.modReg f).run = s.run := rfl
@[simp] theorem State.modReg_clk : (s.modReg f).clk = s.clk := rfl
@[simp] theorem State.modReg_scan : (s.modReg f).scan = s.scan := rfl
@[simp] theorem State.modReg_expo : (s.modReg f).expo = s.expo := rfl
@[simp] theorem State.modReg_il : (s.modReg f).il = s.il := rfl
@[simp] theorem State.modReg_sp : (s.modReg f).sp = s.sp := rfl
@[simp] theorem State.modReg_spBus : (s.modReg f).spBus = s.spBus := rfl
@[simp] theorem State.modReg_law : (s.modReg f).law = s.law := rfl
@[simp] theorem State.modReg_stage : (s.modReg f).stage = s.stage := rfl
@[simp] theorem State.modReg_bus : (s.modReg f).bus = s.bus := rfl
@[simp] theorem State.modReg_rope : (s.modReg f).rope = s.rope := rfl
@[simp] theorem State.modReg_drawLim : (s.modReg f).drawLim = s.drawLim := rfl
@[simp] theorem State.modReg_ramp : (s.modReg f).ramp = s.ramp := rfl
@[simp] theorem State.modReg_vBelay : (s.modReg f).vBelay = s.vBelay := rfl
@[simp] theorem State.modReg_aux : (s.modReg f).aux = s.aux := rfl
@[simp] theorem State.modReg_therm : (s.modReg f).therm = s.therm := rfl
@[simp] theorem State.modReg_htr : (s.modReg f).htr = s.htr := rfl
@[simp] theorem State.modReg_hv : (s.modReg f).hv = s.hv := rfl
@[simp] theorem State.modReg_ring : (s.modReg f).ring = s.ring := rfl
@[simp] theorem State.modReg_pwr : (s.modReg f).pwr = s.pwr := rfl
@[simp] theorem State.modReg_otp : (s.modReg f).otp = s.otp := rfl
@[simp] theorem State.modReg_cons : (s.modReg f).cons = s.cons := rfl
@[simp] theorem State.modReg_pers : (s.modReg f).pers = s.pers := rfl
@[simp] theorem State.modReg_dma : (s.modReg f).dma = s.dma := rfl
@[simp] theorem State.modReg_ist : (s.modReg f).ist = s.ist := rfl
@[simp] theorem State.modReg_tap : (s.modReg f).tap = s.tap := rfl
@[simp] theorem State.modReg_w1c : (s.modReg f).w1c = s.w1c := rfl
@[simp] theorem State.modReg_freeCtr : (s.modReg f).freeCtr = s.freeCtr := rfl
@[simp] theorem State.modReg_pending : (s.modReg f).pending = s.pending := rfl
end

section
variable (f : Run → Run)
@[simp] theorem State.modRun_eng : (s.modRun f).eng = s.eng := rfl
@[simp] theorem State.modRun_flt : (s.modRun f).flt = s.flt := rfl
@[simp] theorem State.modRun_boot : (s.modRun f).boot = s.boot := rfl
@[simp] theorem State.modRun_host : (s.modRun f).host = s.host := rfl
@[simp] theorem State.modRun_jobs : (s.modRun f).jobs = s.jobs := rfl
@[simp] theorem State.modRun_store : (s.modRun f).store = s.store := rfl
@[simp] theorem State.modRun_dec : (s.modRun f).dec = s.dec := rfl
@[simp] theorem State.modRun_anch : (s.modRun f).anch = s.anch := rfl
@[simp] theorem State.modRun_facet : (s.modRun f).facet = s.facet := rfl
@[simp] theorem State.modRun_reg : (s.modRun f).reg = s.reg := rfl
@[simp] theorem State.modRun_run : (s.modRun f).run = f s.run := rfl
@[simp] theorem State.modRun_clk : (s.modRun f).clk = s.clk := rfl
@[simp] theorem State.modRun_scan : (s.modRun f).scan = s.scan := rfl
@[simp] theorem State.modRun_expo : (s.modRun f).expo = s.expo := rfl
@[simp] theorem State.modRun_il : (s.modRun f).il = s.il := rfl
@[simp] theorem State.modRun_sp : (s.modRun f).sp = s.sp := rfl
@[simp] theorem State.modRun_spBus : (s.modRun f).spBus = s.spBus := rfl
@[simp] theorem State.modRun_law : (s.modRun f).law = s.law := rfl
@[simp] theorem State.modRun_stage : (s.modRun f).stage = s.stage := rfl
@[simp] theorem State.modRun_bus : (s.modRun f).bus = s.bus := rfl
@[simp] theorem State.modRun_rope : (s.modRun f).rope = s.rope := rfl
@[simp] theorem State.modRun_drawLim : (s.modRun f).drawLim = s.drawLim := rfl
@[simp] theorem State.modRun_ramp : (s.modRun f).ramp = s.ramp := rfl
@[simp] theorem State.modRun_vBelay : (s.modRun f).vBelay = s.vBelay := rfl
@[simp] theorem State.modRun_aux : (s.modRun f).aux = s.aux := rfl
@[simp] theorem State.modRun_therm : (s.modRun f).therm = s.therm := rfl
@[simp] theorem State.modRun_htr : (s.modRun f).htr = s.htr := rfl
@[simp] theorem State.modRun_hv : (s.modRun f).hv = s.hv := rfl
@[simp] theorem State.modRun_ring : (s.modRun f).ring = s.ring := rfl
@[simp] theorem State.modRun_pwr : (s.modRun f).pwr = s.pwr := rfl
@[simp] theorem State.modRun_otp : (s.modRun f).otp = s.otp := rfl
@[simp] theorem State.modRun_cons : (s.modRun f).cons = s.cons := rfl
@[simp] theorem State.modRun_pers : (s.modRun f).pers = s.pers := rfl
@[simp] theorem State.modRun_dma : (s.modRun f).dma = s.dma := rfl
@[simp] theorem State.modRun_ist : (s.modRun f).ist = s.ist := rfl
@[simp] theorem State.modRun_tap : (s.modRun f).tap = s.tap := rfl
@[simp] theorem State.modRun_w1c : (s.modRun f).w1c = s.w1c := rfl
@[simp] theorem State.modRun_freeCtr : (s.modRun f).freeCtr = s.freeCtr := rfl
@[simp] theorem State.modRun_pending : (s.modRun f).pending = s.pending := rfl
end

section
variable (f : Clock → Clock)
@[simp] theorem State.modClk_eng : (s.modClk f).eng = s.eng := rfl
@[simp] theorem State.modClk_flt : (s.modClk f).flt = s.flt := rfl
@[simp] theorem State.modClk_boot : (s.modClk f).boot = s.boot := rfl
@[simp] theorem State.modClk_host : (s.modClk f).host = s.host := rfl
@[simp] theorem State.modClk_jobs : (s.modClk f).jobs = s.jobs := rfl
@[simp] theorem State.modClk_store : (s.modClk f).store = s.store := rfl
@[simp] theorem State.modClk_dec : (s.modClk f).dec = s.dec := rfl
@[simp] theorem State.modClk_anch : (s.modClk f).anch = s.anch := rfl
@[simp] theorem State.modClk_facet : (s.modClk f).facet = s.facet := rfl
@[simp] theorem State.modClk_reg : (s.modClk f).reg = s.reg := rfl
@[simp] theorem State.modClk_run : (s.modClk f).run = s.run := rfl
@[simp] theorem State.modClk_clk : (s.modClk f).clk = f s.clk := rfl
@[simp] theorem State.modClk_scan : (s.modClk f).scan = s.scan := rfl
@[simp] theorem State.modClk_expo : (s.modClk f).expo = s.expo := rfl
@[simp] theorem State.modClk_il : (s.modClk f).il = s.il := rfl
@[simp] theorem State.modClk_sp : (s.modClk f).sp = s.sp := rfl
@[simp] theorem State.modClk_spBus : (s.modClk f).spBus = s.spBus := rfl
@[simp] theorem State.modClk_law : (s.modClk f).law = s.law := rfl
@[simp] theorem State.modClk_stage : (s.modClk f).stage = s.stage := rfl
@[simp] theorem State.modClk_bus : (s.modClk f).bus = s.bus := rfl
@[simp] theorem State.modClk_rope : (s.modClk f).rope = s.rope := rfl
@[simp] theorem State.modClk_drawLim : (s.modClk f).drawLim = s.drawLim := rfl
@[simp] theorem State.modClk_ramp : (s.modClk f).ramp = s.ramp := rfl
@[simp] theorem State.modClk_vBelay : (s.modClk f).vBelay = s.vBelay := rfl
@[simp] theorem State.modClk_aux : (s.modClk f).aux = s.aux := rfl
@[simp] theorem State.modClk_therm : (s.modClk f).therm = s.therm := rfl
@[simp] theorem State.modClk_htr : (s.modClk f).htr = s.htr := rfl
@[simp] theorem State.modClk_hv : (s.modClk f).hv = s.hv := rfl
@[simp] theorem State.modClk_ring : (s.modClk f).ring = s.ring := rfl
@[simp] theorem State.modClk_pwr : (s.modClk f).pwr = s.pwr := rfl
@[simp] theorem State.modClk_otp : (s.modClk f).otp = s.otp := rfl
@[simp] theorem State.modClk_cons : (s.modClk f).cons = s.cons := rfl
@[simp] theorem State.modClk_pers : (s.modClk f).pers = s.pers := rfl
@[simp] theorem State.modClk_dma : (s.modClk f).dma = s.dma := rfl
@[simp] theorem State.modClk_ist : (s.modClk f).ist = s.ist := rfl
@[simp] theorem State.modClk_tap : (s.modClk f).tap = s.tap := rfl
@[simp] theorem State.modClk_w1c : (s.modClk f).w1c = s.w1c := rfl
@[simp] theorem State.modClk_freeCtr : (s.modClk f).freeCtr = s.freeCtr := rfl
@[simp] theorem State.modClk_pending : (s.modClk f).pending = s.pending := rfl
end

section
variable (f : Vector Scan 8 → Vector Scan 8)
@[simp] theorem State.modScan_eng : (s.modScan f).eng = s.eng := rfl
@[simp] theorem State.modScan_flt : (s.modScan f).flt = s.flt := rfl
@[simp] theorem State.modScan_boot : (s.modScan f).boot = s.boot := rfl
@[simp] theorem State.modScan_host : (s.modScan f).host = s.host := rfl
@[simp] theorem State.modScan_jobs : (s.modScan f).jobs = s.jobs := rfl
@[simp] theorem State.modScan_store : (s.modScan f).store = s.store := rfl
@[simp] theorem State.modScan_dec : (s.modScan f).dec = s.dec := rfl
@[simp] theorem State.modScan_anch : (s.modScan f).anch = s.anch := rfl
@[simp] theorem State.modScan_facet : (s.modScan f).facet = s.facet := rfl
@[simp] theorem State.modScan_reg : (s.modScan f).reg = s.reg := rfl
@[simp] theorem State.modScan_run : (s.modScan f).run = s.run := rfl
@[simp] theorem State.modScan_clk : (s.modScan f).clk = s.clk := rfl
@[simp] theorem State.modScan_scan : (s.modScan f).scan = f s.scan := rfl
@[simp] theorem State.modScan_expo : (s.modScan f).expo = s.expo := rfl
@[simp] theorem State.modScan_il : (s.modScan f).il = s.il := rfl
@[simp] theorem State.modScan_sp : (s.modScan f).sp = s.sp := rfl
@[simp] theorem State.modScan_spBus : (s.modScan f).spBus = s.spBus := rfl
@[simp] theorem State.modScan_law : (s.modScan f).law = s.law := rfl
@[simp] theorem State.modScan_stage : (s.modScan f).stage = s.stage := rfl
@[simp] theorem State.modScan_bus : (s.modScan f).bus = s.bus := rfl
@[simp] theorem State.modScan_rope : (s.modScan f).rope = s.rope := rfl
@[simp] theorem State.modScan_drawLim : (s.modScan f).drawLim = s.drawLim := rfl
@[simp] theorem State.modScan_ramp : (s.modScan f).ramp = s.ramp := rfl
@[simp] theorem State.modScan_vBelay : (s.modScan f).vBelay = s.vBelay := rfl
@[simp] theorem State.modScan_aux : (s.modScan f).aux = s.aux := rfl
@[simp] theorem State.modScan_therm : (s.modScan f).therm = s.therm := rfl
@[simp] theorem State.modScan_htr : (s.modScan f).htr = s.htr := rfl
@[simp] theorem State.modScan_hv : (s.modScan f).hv = s.hv := rfl
@[simp] theorem State.modScan_ring : (s.modScan f).ring = s.ring := rfl
@[simp] theorem State.modScan_pwr : (s.modScan f).pwr = s.pwr := rfl
@[simp] theorem State.modScan_otp : (s.modScan f).otp = s.otp := rfl
@[simp] theorem State.modScan_cons : (s.modScan f).cons = s.cons := rfl
@[simp] theorem State.modScan_pers : (s.modScan f).pers = s.pers := rfl
@[simp] theorem State.modScan_dma : (s.modScan f).dma = s.dma := rfl
@[simp] theorem State.modScan_ist : (s.modScan f).ist = s.ist := rfl
@[simp] theorem State.modScan_tap : (s.modScan f).tap = s.tap := rfl
@[simp] theorem State.modScan_w1c : (s.modScan f).w1c = s.w1c := rfl
@[simp] theorem State.modScan_freeCtr : (s.modScan f).freeCtr = s.freeCtr := rfl
@[simp] theorem State.modScan_pending : (s.modScan f).pending = s.pending := rfl
end

section
variable (f : Vector Expo 8 → Vector Expo 8)
@[simp] theorem State.modExpo_eng : (s.modExpo f).eng = s.eng := rfl
@[simp] theorem State.modExpo_flt : (s.modExpo f).flt = s.flt := rfl
@[simp] theorem State.modExpo_boot : (s.modExpo f).boot = s.boot := rfl
@[simp] theorem State.modExpo_host : (s.modExpo f).host = s.host := rfl
@[simp] theorem State.modExpo_jobs : (s.modExpo f).jobs = s.jobs := rfl
@[simp] theorem State.modExpo_store : (s.modExpo f).store = s.store := rfl
@[simp] theorem State.modExpo_dec : (s.modExpo f).dec = s.dec := rfl
@[simp] theorem State.modExpo_anch : (s.modExpo f).anch = s.anch := rfl
@[simp] theorem State.modExpo_facet : (s.modExpo f).facet = s.facet := rfl
@[simp] theorem State.modExpo_reg : (s.modExpo f).reg = s.reg := rfl
@[simp] theorem State.modExpo_run : (s.modExpo f).run = s.run := rfl
@[simp] theorem State.modExpo_clk : (s.modExpo f).clk = s.clk := rfl
@[simp] theorem State.modExpo_scan : (s.modExpo f).scan = s.scan := rfl
@[simp] theorem State.modExpo_expo : (s.modExpo f).expo = f s.expo := rfl
@[simp] theorem State.modExpo_il : (s.modExpo f).il = s.il := rfl
@[simp] theorem State.modExpo_sp : (s.modExpo f).sp = s.sp := rfl
@[simp] theorem State.modExpo_spBus : (s.modExpo f).spBus = s.spBus := rfl
@[simp] theorem State.modExpo_law : (s.modExpo f).law = s.law := rfl
@[simp] theorem State.modExpo_stage : (s.modExpo f).stage = s.stage := rfl
@[simp] theorem State.modExpo_bus : (s.modExpo f).bus = s.bus := rfl
@[simp] theorem State.modExpo_rope : (s.modExpo f).rope = s.rope := rfl
@[simp] theorem State.modExpo_drawLim : (s.modExpo f).drawLim = s.drawLim := rfl
@[simp] theorem State.modExpo_ramp : (s.modExpo f).ramp = s.ramp := rfl
@[simp] theorem State.modExpo_vBelay : (s.modExpo f).vBelay = s.vBelay := rfl
@[simp] theorem State.modExpo_aux : (s.modExpo f).aux = s.aux := rfl
@[simp] theorem State.modExpo_therm : (s.modExpo f).therm = s.therm := rfl
@[simp] theorem State.modExpo_htr : (s.modExpo f).htr = s.htr := rfl
@[simp] theorem State.modExpo_hv : (s.modExpo f).hv = s.hv := rfl
@[simp] theorem State.modExpo_ring : (s.modExpo f).ring = s.ring := rfl
@[simp] theorem State.modExpo_pwr : (s.modExpo f).pwr = s.pwr := rfl
@[simp] theorem State.modExpo_otp : (s.modExpo f).otp = s.otp := rfl
@[simp] theorem State.modExpo_cons : (s.modExpo f).cons = s.cons := rfl
@[simp] theorem State.modExpo_pers : (s.modExpo f).pers = s.pers := rfl
@[simp] theorem State.modExpo_dma : (s.modExpo f).dma = s.dma := rfl
@[simp] theorem State.modExpo_ist : (s.modExpo f).ist = s.ist := rfl
@[simp] theorem State.modExpo_tap : (s.modExpo f).tap = s.tap := rfl
@[simp] theorem State.modExpo_w1c : (s.modExpo f).w1c = s.w1c := rfl
@[simp] theorem State.modExpo_freeCtr : (s.modExpo f).freeCtr = s.freeCtr := rfl
@[simp] theorem State.modExpo_pending : (s.modExpo f).pending = s.pending := rfl
end

section
variable (f : Interlocks → Interlocks)
@[simp] theorem State.modIl_eng : (s.modIl f).eng = s.eng := rfl
@[simp] theorem State.modIl_flt : (s.modIl f).flt = s.flt := rfl
@[simp] theorem State.modIl_boot : (s.modIl f).boot = s.boot := rfl
@[simp] theorem State.modIl_host : (s.modIl f).host = s.host := rfl
@[simp] theorem State.modIl_jobs : (s.modIl f).jobs = s.jobs := rfl
@[simp] theorem State.modIl_store : (s.modIl f).store = s.store := rfl
@[simp] theorem State.modIl_dec : (s.modIl f).dec = s.dec := rfl
@[simp] theorem State.modIl_anch : (s.modIl f).anch = s.anch := rfl
@[simp] theorem State.modIl_facet : (s.modIl f).facet = s.facet := rfl
@[simp] theorem State.modIl_reg : (s.modIl f).reg = s.reg := rfl
@[simp] theorem State.modIl_run : (s.modIl f).run = s.run := rfl
@[simp] theorem State.modIl_clk : (s.modIl f).clk = s.clk := rfl
@[simp] theorem State.modIl_scan : (s.modIl f).scan = s.scan := rfl
@[simp] theorem State.modIl_expo : (s.modIl f).expo = s.expo := rfl
@[simp] theorem State.modIl_il : (s.modIl f).il = f s.il := rfl
@[simp] theorem State.modIl_sp : (s.modIl f).sp = s.sp := rfl
@[simp] theorem State.modIl_spBus : (s.modIl f).spBus = s.spBus := rfl
@[simp] theorem State.modIl_law : (s.modIl f).law = s.law := rfl
@[simp] theorem State.modIl_stage : (s.modIl f).stage = s.stage := rfl
@[simp] theorem State.modIl_bus : (s.modIl f).bus = s.bus := rfl
@[simp] theorem State.modIl_rope : (s.modIl f).rope = s.rope := rfl
@[simp] theorem State.modIl_drawLim : (s.modIl f).drawLim = s.drawLim := rfl
@[simp] theorem State.modIl_ramp : (s.modIl f).ramp = s.ramp := rfl
@[simp] theorem State.modIl_vBelay : (s.modIl f).vBelay = s.vBelay := rfl
@[simp] theorem State.modIl_aux : (s.modIl f).aux = s.aux := rfl
@[simp] theorem State.modIl_therm : (s.modIl f).therm = s.therm := rfl
@[simp] theorem State.modIl_htr : (s.modIl f).htr = s.htr := rfl
@[simp] theorem State.modIl_hv : (s.modIl f).hv = s.hv := rfl
@[simp] theorem State.modIl_ring : (s.modIl f).ring = s.ring := rfl
@[simp] theorem State.modIl_pwr : (s.modIl f).pwr = s.pwr := rfl
@[simp] theorem State.modIl_otp : (s.modIl f).otp = s.otp := rfl
@[simp] theorem State.modIl_cons : (s.modIl f).cons = s.cons := rfl
@[simp] theorem State.modIl_pers : (s.modIl f).pers = s.pers := rfl
@[simp] theorem State.modIl_dma : (s.modIl f).dma = s.dma := rfl
@[simp] theorem State.modIl_ist : (s.modIl f).ist = s.ist := rfl
@[simp] theorem State.modIl_tap : (s.modIl f).tap = s.tap := rfl
@[simp] theorem State.modIl_w1c : (s.modIl f).w1c = s.w1c := rfl
@[simp] theorem State.modIl_freeCtr : (s.modIl f).freeCtr = s.freeCtr := rfl
@[simp] theorem State.modIl_pending : (s.modIl f).pending = s.pending := rfl
end

section
variable (f : Vector Spindle 8 → Vector Spindle 8)
@[simp] theorem State.modSp_eng : (s.modSp f).eng = s.eng := rfl
@[simp] theorem State.modSp_flt : (s.modSp f).flt = s.flt := rfl
@[simp] theorem State.modSp_boot : (s.modSp f).boot = s.boot := rfl
@[simp] theorem State.modSp_host : (s.modSp f).host = s.host := rfl
@[simp] theorem State.modSp_jobs : (s.modSp f).jobs = s.jobs := rfl
@[simp] theorem State.modSp_store : (s.modSp f).store = s.store := rfl
@[simp] theorem State.modSp_dec : (s.modSp f).dec = s.dec := rfl
@[simp] theorem State.modSp_anch : (s.modSp f).anch = s.anch := rfl
@[simp] theorem State.modSp_facet : (s.modSp f).facet = s.facet := rfl
@[simp] theorem State.modSp_reg : (s.modSp f).reg = s.reg := rfl
@[simp] theorem State.modSp_run : (s.modSp f).run = s.run := rfl
@[simp] theorem State.modSp_clk : (s.modSp f).clk = s.clk := rfl
@[simp] theorem State.modSp_scan : (s.modSp f).scan = s.scan := rfl
@[simp] theorem State.modSp_expo : (s.modSp f).expo = s.expo := rfl
@[simp] theorem State.modSp_il : (s.modSp f).il = s.il := rfl
@[simp] theorem State.modSp_sp : (s.modSp f).sp = f s.sp := rfl
@[simp] theorem State.modSp_spBus : (s.modSp f).spBus = s.spBus := rfl
@[simp] theorem State.modSp_law : (s.modSp f).law = s.law := rfl
@[simp] theorem State.modSp_stage : (s.modSp f).stage = s.stage := rfl
@[simp] theorem State.modSp_bus : (s.modSp f).bus = s.bus := rfl
@[simp] theorem State.modSp_rope : (s.modSp f).rope = s.rope := rfl
@[simp] theorem State.modSp_drawLim : (s.modSp f).drawLim = s.drawLim := rfl
@[simp] theorem State.modSp_ramp : (s.modSp f).ramp = s.ramp := rfl
@[simp] theorem State.modSp_vBelay : (s.modSp f).vBelay = s.vBelay := rfl
@[simp] theorem State.modSp_aux : (s.modSp f).aux = s.aux := rfl
@[simp] theorem State.modSp_therm : (s.modSp f).therm = s.therm := rfl
@[simp] theorem State.modSp_htr : (s.modSp f).htr = s.htr := rfl
@[simp] theorem State.modSp_hv : (s.modSp f).hv = s.hv := rfl
@[simp] theorem State.modSp_ring : (s.modSp f).ring = s.ring := rfl
@[simp] theorem State.modSp_pwr : (s.modSp f).pwr = s.pwr := rfl
@[simp] theorem State.modSp_otp : (s.modSp f).otp = s.otp := rfl
@[simp] theorem State.modSp_cons : (s.modSp f).cons = s.cons := rfl
@[simp] theorem State.modSp_pers : (s.modSp f).pers = s.pers := rfl
@[simp] theorem State.modSp_dma : (s.modSp f).dma = s.dma := rfl
@[simp] theorem State.modSp_ist : (s.modSp f).ist = s.ist := rfl
@[simp] theorem State.modSp_tap : (s.modSp f).tap = s.tap := rfl
@[simp] theorem State.modSp_w1c : (s.modSp f).w1c = s.w1c := rfl
@[simp] theorem State.modSp_freeCtr : (s.modSp f).freeCtr = s.freeCtr := rfl
@[simp] theorem State.modSp_pending : (s.modSp f).pending = s.pending := rfl
end

section
variable (f : SpBus → SpBus)
@[simp] theorem State.modSpBus_eng : (s.modSpBus f).eng = s.eng := rfl
@[simp] theorem State.modSpBus_flt : (s.modSpBus f).flt = s.flt := rfl
@[simp] theorem State.modSpBus_boot : (s.modSpBus f).boot = s.boot := rfl
@[simp] theorem State.modSpBus_host : (s.modSpBus f).host = s.host := rfl
@[simp] theorem State.modSpBus_jobs : (s.modSpBus f).jobs = s.jobs := rfl
@[simp] theorem State.modSpBus_store : (s.modSpBus f).store = s.store := rfl
@[simp] theorem State.modSpBus_dec : (s.modSpBus f).dec = s.dec := rfl
@[simp] theorem State.modSpBus_anch : (s.modSpBus f).anch = s.anch := rfl
@[simp] theorem State.modSpBus_facet : (s.modSpBus f).facet = s.facet := rfl
@[simp] theorem State.modSpBus_reg : (s.modSpBus f).reg = s.reg := rfl
@[simp] theorem State.modSpBus_run : (s.modSpBus f).run = s.run := rfl
@[simp] theorem State.modSpBus_clk : (s.modSpBus f).clk = s.clk := rfl
@[simp] theorem State.modSpBus_scan : (s.modSpBus f).scan = s.scan := rfl
@[simp] theorem State.modSpBus_expo : (s.modSpBus f).expo = s.expo := rfl
@[simp] theorem State.modSpBus_il : (s.modSpBus f).il = s.il := rfl
@[simp] theorem State.modSpBus_sp : (s.modSpBus f).sp = s.sp := rfl
@[simp] theorem State.modSpBus_spBus : (s.modSpBus f).spBus = f s.spBus := rfl
@[simp] theorem State.modSpBus_law : (s.modSpBus f).law = s.law := rfl
@[simp] theorem State.modSpBus_stage : (s.modSpBus f).stage = s.stage := rfl
@[simp] theorem State.modSpBus_bus : (s.modSpBus f).bus = s.bus := rfl
@[simp] theorem State.modSpBus_rope : (s.modSpBus f).rope = s.rope := rfl
@[simp] theorem State.modSpBus_drawLim : (s.modSpBus f).drawLim = s.drawLim := rfl
@[simp] theorem State.modSpBus_ramp : (s.modSpBus f).ramp = s.ramp := rfl
@[simp] theorem State.modSpBus_vBelay : (s.modSpBus f).vBelay = s.vBelay := rfl
@[simp] theorem State.modSpBus_aux : (s.modSpBus f).aux = s.aux := rfl
@[simp] theorem State.modSpBus_therm : (s.modSpBus f).therm = s.therm := rfl
@[simp] theorem State.modSpBus_htr : (s.modSpBus f).htr = s.htr := rfl
@[simp] theorem State.modSpBus_hv : (s.modSpBus f).hv = s.hv := rfl
@[simp] theorem State.modSpBus_ring : (s.modSpBus f).ring = s.ring := rfl
@[simp] theorem State.modSpBus_pwr : (s.modSpBus f).pwr = s.pwr := rfl
@[simp] theorem State.modSpBus_otp : (s.modSpBus f).otp = s.otp := rfl
@[simp] theorem State.modSpBus_cons : (s.modSpBus f).cons = s.cons := rfl
@[simp] theorem State.modSpBus_pers : (s.modSpBus f).pers = s.pers := rfl
@[simp] theorem State.modSpBus_dma : (s.modSpBus f).dma = s.dma := rfl
@[simp] theorem State.modSpBus_ist : (s.modSpBus f).ist = s.ist := rfl
@[simp] theorem State.modSpBus_tap : (s.modSpBus f).tap = s.tap := rfl
@[simp] theorem State.modSpBus_w1c : (s.modSpBus f).w1c = s.w1c := rfl
@[simp] theorem State.modSpBus_freeCtr : (s.modSpBus f).freeCtr = s.freeCtr := rfl
@[simp] theorem State.modSpBus_pending : (s.modSpBus f).pending = s.pending := rfl
end

section
variable (f : Law → Law)
@[simp] theorem State.modLaw_eng : (s.modLaw f).eng = s.eng := rfl
@[simp] theorem State.modLaw_flt : (s.modLaw f).flt = s.flt := rfl
@[simp] theorem State.modLaw_boot : (s.modLaw f).boot = s.boot := rfl
@[simp] theorem State.modLaw_host : (s.modLaw f).host = s.host := rfl
@[simp] theorem State.modLaw_jobs : (s.modLaw f).jobs = s.jobs := rfl
@[simp] theorem State.modLaw_store : (s.modLaw f).store = s.store := rfl
@[simp] theorem State.modLaw_dec : (s.modLaw f).dec = s.dec := rfl
@[simp] theorem State.modLaw_anch : (s.modLaw f).anch = s.anch := rfl
@[simp] theorem State.modLaw_facet : (s.modLaw f).facet = s.facet := rfl
@[simp] theorem State.modLaw_reg : (s.modLaw f).reg = s.reg := rfl
@[simp] theorem State.modLaw_run : (s.modLaw f).run = s.run := rfl
@[simp] theorem State.modLaw_clk : (s.modLaw f).clk = s.clk := rfl
@[simp] theorem State.modLaw_scan : (s.modLaw f).scan = s.scan := rfl
@[simp] theorem State.modLaw_expo : (s.modLaw f).expo = s.expo := rfl
@[simp] theorem State.modLaw_il : (s.modLaw f).il = s.il := rfl
@[simp] theorem State.modLaw_sp : (s.modLaw f).sp = s.sp := rfl
@[simp] theorem State.modLaw_spBus : (s.modLaw f).spBus = s.spBus := rfl
@[simp] theorem State.modLaw_law : (s.modLaw f).law = f s.law := rfl
@[simp] theorem State.modLaw_stage : (s.modLaw f).stage = s.stage := rfl
@[simp] theorem State.modLaw_bus : (s.modLaw f).bus = s.bus := rfl
@[simp] theorem State.modLaw_rope : (s.modLaw f).rope = s.rope := rfl
@[simp] theorem State.modLaw_drawLim : (s.modLaw f).drawLim = s.drawLim := rfl
@[simp] theorem State.modLaw_ramp : (s.modLaw f).ramp = s.ramp := rfl
@[simp] theorem State.modLaw_vBelay : (s.modLaw f).vBelay = s.vBelay := rfl
@[simp] theorem State.modLaw_aux : (s.modLaw f).aux = s.aux := rfl
@[simp] theorem State.modLaw_therm : (s.modLaw f).therm = s.therm := rfl
@[simp] theorem State.modLaw_htr : (s.modLaw f).htr = s.htr := rfl
@[simp] theorem State.modLaw_hv : (s.modLaw f).hv = s.hv := rfl
@[simp] theorem State.modLaw_ring : (s.modLaw f).ring = s.ring := rfl
@[simp] theorem State.modLaw_pwr : (s.modLaw f).pwr = s.pwr := rfl
@[simp] theorem State.modLaw_otp : (s.modLaw f).otp = s.otp := rfl
@[simp] theorem State.modLaw_cons : (s.modLaw f).cons = s.cons := rfl
@[simp] theorem State.modLaw_pers : (s.modLaw f).pers = s.pers := rfl
@[simp] theorem State.modLaw_dma : (s.modLaw f).dma = s.dma := rfl
@[simp] theorem State.modLaw_ist : (s.modLaw f).ist = s.ist := rfl
@[simp] theorem State.modLaw_tap : (s.modLaw f).tap = s.tap := rfl
@[simp] theorem State.modLaw_w1c : (s.modLaw f).w1c = s.w1c := rfl
@[simp] theorem State.modLaw_freeCtr : (s.modLaw f).freeCtr = s.freeCtr := rfl
@[simp] theorem State.modLaw_pending : (s.modLaw f).pending = s.pending := rfl
end

section
variable (f : Vector StageLink 8 → Vector StageLink 8)
@[simp] theorem State.modStage_eng : (s.modStage f).eng = s.eng := rfl
@[simp] theorem State.modStage_flt : (s.modStage f).flt = s.flt := rfl
@[simp] theorem State.modStage_boot : (s.modStage f).boot = s.boot := rfl
@[simp] theorem State.modStage_host : (s.modStage f).host = s.host := rfl
@[simp] theorem State.modStage_jobs : (s.modStage f).jobs = s.jobs := rfl
@[simp] theorem State.modStage_store : (s.modStage f).store = s.store := rfl
@[simp] theorem State.modStage_dec : (s.modStage f).dec = s.dec := rfl
@[simp] theorem State.modStage_anch : (s.modStage f).anch = s.anch := rfl
@[simp] theorem State.modStage_facet : (s.modStage f).facet = s.facet := rfl
@[simp] theorem State.modStage_reg : (s.modStage f).reg = s.reg := rfl
@[simp] theorem State.modStage_run : (s.modStage f).run = s.run := rfl
@[simp] theorem State.modStage_clk : (s.modStage f).clk = s.clk := rfl
@[simp] theorem State.modStage_scan : (s.modStage f).scan = s.scan := rfl
@[simp] theorem State.modStage_expo : (s.modStage f).expo = s.expo := rfl
@[simp] theorem State.modStage_il : (s.modStage f).il = s.il := rfl
@[simp] theorem State.modStage_sp : (s.modStage f).sp = s.sp := rfl
@[simp] theorem State.modStage_spBus : (s.modStage f).spBus = s.spBus := rfl
@[simp] theorem State.modStage_law : (s.modStage f).law = s.law := rfl
@[simp] theorem State.modStage_stage : (s.modStage f).stage = f s.stage := rfl
@[simp] theorem State.modStage_bus : (s.modStage f).bus = s.bus := rfl
@[simp] theorem State.modStage_rope : (s.modStage f).rope = s.rope := rfl
@[simp] theorem State.modStage_drawLim : (s.modStage f).drawLim = s.drawLim := rfl
@[simp] theorem State.modStage_ramp : (s.modStage f).ramp = s.ramp := rfl
@[simp] theorem State.modStage_vBelay : (s.modStage f).vBelay = s.vBelay := rfl
@[simp] theorem State.modStage_aux : (s.modStage f).aux = s.aux := rfl
@[simp] theorem State.modStage_therm : (s.modStage f).therm = s.therm := rfl
@[simp] theorem State.modStage_htr : (s.modStage f).htr = s.htr := rfl
@[simp] theorem State.modStage_hv : (s.modStage f).hv = s.hv := rfl
@[simp] theorem State.modStage_ring : (s.modStage f).ring = s.ring := rfl
@[simp] theorem State.modStage_pwr : (s.modStage f).pwr = s.pwr := rfl
@[simp] theorem State.modStage_otp : (s.modStage f).otp = s.otp := rfl
@[simp] theorem State.modStage_cons : (s.modStage f).cons = s.cons := rfl
@[simp] theorem State.modStage_pers : (s.modStage f).pers = s.pers := rfl
@[simp] theorem State.modStage_dma : (s.modStage f).dma = s.dma := rfl
@[simp] theorem State.modStage_ist : (s.modStage f).ist = s.ist := rfl
@[simp] theorem State.modStage_tap : (s.modStage f).tap = s.tap := rfl
@[simp] theorem State.modStage_w1c : (s.modStage f).w1c = s.w1c := rfl
@[simp] theorem State.modStage_freeCtr : (s.modStage f).freeCtr = s.freeCtr := rfl
@[simp] theorem State.modStage_pending : (s.modStage f).pending = s.pending := rfl
end

section
variable (f : Vector DcBus 4 → Vector DcBus 4)
@[simp] theorem State.modBus_eng : (s.modBus f).eng = s.eng := rfl
@[simp] theorem State.modBus_flt : (s.modBus f).flt = s.flt := rfl
@[simp] theorem State.modBus_boot : (s.modBus f).boot = s.boot := rfl
@[simp] theorem State.modBus_host : (s.modBus f).host = s.host := rfl
@[simp] theorem State.modBus_jobs : (s.modBus f).jobs = s.jobs := rfl
@[simp] theorem State.modBus_store : (s.modBus f).store = s.store := rfl
@[simp] theorem State.modBus_dec : (s.modBus f).dec = s.dec := rfl
@[simp] theorem State.modBus_anch : (s.modBus f).anch = s.anch := rfl
@[simp] theorem State.modBus_facet : (s.modBus f).facet = s.facet := rfl
@[simp] theorem State.modBus_reg : (s.modBus f).reg = s.reg := rfl
@[simp] theorem State.modBus_run : (s.modBus f).run = s.run := rfl
@[simp] theorem State.modBus_clk : (s.modBus f).clk = s.clk := rfl
@[simp] theorem State.modBus_scan : (s.modBus f).scan = s.scan := rfl
@[simp] theorem State.modBus_expo : (s.modBus f).expo = s.expo := rfl
@[simp] theorem State.modBus_il : (s.modBus f).il = s.il := rfl
@[simp] theorem State.modBus_sp : (s.modBus f).sp = s.sp := rfl
@[simp] theorem State.modBus_spBus : (s.modBus f).spBus = s.spBus := rfl
@[simp] theorem State.modBus_law : (s.modBus f).law = s.law := rfl
@[simp] theorem State.modBus_stage : (s.modBus f).stage = s.stage := rfl
@[simp] theorem State.modBus_bus : (s.modBus f).bus = f s.bus := rfl
@[simp] theorem State.modBus_rope : (s.modBus f).rope = s.rope := rfl
@[simp] theorem State.modBus_drawLim : (s.modBus f).drawLim = s.drawLim := rfl
@[simp] theorem State.modBus_ramp : (s.modBus f).ramp = s.ramp := rfl
@[simp] theorem State.modBus_vBelay : (s.modBus f).vBelay = s.vBelay := rfl
@[simp] theorem State.modBus_aux : (s.modBus f).aux = s.aux := rfl
@[simp] theorem State.modBus_therm : (s.modBus f).therm = s.therm := rfl
@[simp] theorem State.modBus_htr : (s.modBus f).htr = s.htr := rfl
@[simp] theorem State.modBus_hv : (s.modBus f).hv = s.hv := rfl
@[simp] theorem State.modBus_ring : (s.modBus f).ring = s.ring := rfl
@[simp] theorem State.modBus_pwr : (s.modBus f).pwr = s.pwr := rfl
@[simp] theorem State.modBus_otp : (s.modBus f).otp = s.otp := rfl
@[simp] theorem State.modBus_cons : (s.modBus f).cons = s.cons := rfl
@[simp] theorem State.modBus_pers : (s.modBus f).pers = s.pers := rfl
@[simp] theorem State.modBus_dma : (s.modBus f).dma = s.dma := rfl
@[simp] theorem State.modBus_ist : (s.modBus f).ist = s.ist := rfl
@[simp] theorem State.modBus_tap : (s.modBus f).tap = s.tap := rfl
@[simp] theorem State.modBus_w1c : (s.modBus f).w1c = s.w1c := rfl
@[simp] theorem State.modBus_freeCtr : (s.modBus f).freeCtr = s.freeCtr := rfl
@[simp] theorem State.modBus_pending : (s.modBus f).pending = s.pending := rfl
end

section
variable (f : Vector Rope 32 → Vector Rope 32)
@[simp] theorem State.modRope_eng : (s.modRope f).eng = s.eng := rfl
@[simp] theorem State.modRope_flt : (s.modRope f).flt = s.flt := rfl
@[simp] theorem State.modRope_boot : (s.modRope f).boot = s.boot := rfl
@[simp] theorem State.modRope_host : (s.modRope f).host = s.host := rfl
@[simp] theorem State.modRope_jobs : (s.modRope f).jobs = s.jobs := rfl
@[simp] theorem State.modRope_store : (s.modRope f).store = s.store := rfl
@[simp] theorem State.modRope_dec : (s.modRope f).dec = s.dec := rfl
@[simp] theorem State.modRope_anch : (s.modRope f).anch = s.anch := rfl
@[simp] theorem State.modRope_facet : (s.modRope f).facet = s.facet := rfl
@[simp] theorem State.modRope_reg : (s.modRope f).reg = s.reg := rfl
@[simp] theorem State.modRope_run : (s.modRope f).run = s.run := rfl
@[simp] theorem State.modRope_clk : (s.modRope f).clk = s.clk := rfl
@[simp] theorem State.modRope_scan : (s.modRope f).scan = s.scan := rfl
@[simp] theorem State.modRope_expo : (s.modRope f).expo = s.expo := rfl
@[simp] theorem State.modRope_il : (s.modRope f).il = s.il := rfl
@[simp] theorem State.modRope_sp : (s.modRope f).sp = s.sp := rfl
@[simp] theorem State.modRope_spBus : (s.modRope f).spBus = s.spBus := rfl
@[simp] theorem State.modRope_law : (s.modRope f).law = s.law := rfl
@[simp] theorem State.modRope_stage : (s.modRope f).stage = s.stage := rfl
@[simp] theorem State.modRope_bus : (s.modRope f).bus = s.bus := rfl
@[simp] theorem State.modRope_rope : (s.modRope f).rope = f s.rope := rfl
@[simp] theorem State.modRope_drawLim : (s.modRope f).drawLim = s.drawLim := rfl
@[simp] theorem State.modRope_ramp : (s.modRope f).ramp = s.ramp := rfl
@[simp] theorem State.modRope_vBelay : (s.modRope f).vBelay = s.vBelay := rfl
@[simp] theorem State.modRope_aux : (s.modRope f).aux = s.aux := rfl
@[simp] theorem State.modRope_therm : (s.modRope f).therm = s.therm := rfl
@[simp] theorem State.modRope_htr : (s.modRope f).htr = s.htr := rfl
@[simp] theorem State.modRope_hv : (s.modRope f).hv = s.hv := rfl
@[simp] theorem State.modRope_ring : (s.modRope f).ring = s.ring := rfl
@[simp] theorem State.modRope_pwr : (s.modRope f).pwr = s.pwr := rfl
@[simp] theorem State.modRope_otp : (s.modRope f).otp = s.otp := rfl
@[simp] theorem State.modRope_cons : (s.modRope f).cons = s.cons := rfl
@[simp] theorem State.modRope_pers : (s.modRope f).pers = s.pers := rfl
@[simp] theorem State.modRope_dma : (s.modRope f).dma = s.dma := rfl
@[simp] theorem State.modRope_ist : (s.modRope f).ist = s.ist := rfl
@[simp] theorem State.modRope_tap : (s.modRope f).tap = s.tap := rfl
@[simp] theorem State.modRope_w1c : (s.modRope f).w1c = s.w1c := rfl
@[simp] theorem State.modRope_freeCtr : (s.modRope f).freeCtr = s.freeCtr := rfl
@[simp] theorem State.modRope_pending : (s.modRope f).pending = s.pending := rfl
end

section
variable (f : W1cSet → W1cSet)
@[simp] theorem State.modW1c_eng : (s.modW1c f).eng = s.eng := rfl
@[simp] theorem State.modW1c_flt : (s.modW1c f).flt = s.flt := rfl
@[simp] theorem State.modW1c_boot : (s.modW1c f).boot = s.boot := rfl
@[simp] theorem State.modW1c_host : (s.modW1c f).host = s.host := rfl
@[simp] theorem State.modW1c_jobs : (s.modW1c f).jobs = s.jobs := rfl
@[simp] theorem State.modW1c_store : (s.modW1c f).store = s.store := rfl
@[simp] theorem State.modW1c_dec : (s.modW1c f).dec = s.dec := rfl
@[simp] theorem State.modW1c_anch : (s.modW1c f).anch = s.anch := rfl
@[simp] theorem State.modW1c_facet : (s.modW1c f).facet = s.facet := rfl
@[simp] theorem State.modW1c_reg : (s.modW1c f).reg = s.reg := rfl
@[simp] theorem State.modW1c_run : (s.modW1c f).run = s.run := rfl
@[simp] theorem State.modW1c_clk : (s.modW1c f).clk = s.clk := rfl
@[simp] theorem State.modW1c_scan : (s.modW1c f).scan = s.scan := rfl
@[simp] theorem State.modW1c_expo : (s.modW1c f).expo = s.expo := rfl
@[simp] theorem State.modW1c_il : (s.modW1c f).il = s.il := rfl
@[simp] theorem State.modW1c_sp : (s.modW1c f).sp = s.sp := rfl
@[simp] theorem State.modW1c_spBus : (s.modW1c f).spBus = s.spBus := rfl
@[simp] theorem State.modW1c_law : (s.modW1c f).law = s.law := rfl
@[simp] theorem State.modW1c_stage : (s.modW1c f).stage = s.stage := rfl
@[simp] theorem State.modW1c_bus : (s.modW1c f).bus = s.bus := rfl
@[simp] theorem State.modW1c_rope : (s.modW1c f).rope = s.rope := rfl
@[simp] theorem State.modW1c_drawLim : (s.modW1c f).drawLim = s.drawLim := rfl
@[simp] theorem State.modW1c_ramp : (s.modW1c f).ramp = s.ramp := rfl
@[simp] theorem State.modW1c_vBelay : (s.modW1c f).vBelay = s.vBelay := rfl
@[simp] theorem State.modW1c_aux : (s.modW1c f).aux = s.aux := rfl
@[simp] theorem State.modW1c_therm : (s.modW1c f).therm = s.therm := rfl
@[simp] theorem State.modW1c_htr : (s.modW1c f).htr = s.htr := rfl
@[simp] theorem State.modW1c_hv : (s.modW1c f).hv = s.hv := rfl
@[simp] theorem State.modW1c_ring : (s.modW1c f).ring = s.ring := rfl
@[simp] theorem State.modW1c_pwr : (s.modW1c f).pwr = s.pwr := rfl
@[simp] theorem State.modW1c_otp : (s.modW1c f).otp = s.otp := rfl
@[simp] theorem State.modW1c_cons : (s.modW1c f).cons = s.cons := rfl
@[simp] theorem State.modW1c_pers : (s.modW1c f).pers = s.pers := rfl
@[simp] theorem State.modW1c_dma : (s.modW1c f).dma = s.dma := rfl
@[simp] theorem State.modW1c_ist : (s.modW1c f).ist = s.ist := rfl
@[simp] theorem State.modW1c_tap : (s.modW1c f).tap = s.tap := rfl
@[simp] theorem State.modW1c_w1c : (s.modW1c f).w1c = f s.w1c := rfl
@[simp] theorem State.modW1c_freeCtr : (s.modW1c f).freeCtr = s.freeCtr := rfl
@[simp] theorem State.modW1c_pending : (s.modW1c f).pending = s.pending := rfl
end

section
variable (f : Bool → Bool)
@[simp] theorem State.modDrawLim_eng : (s.modDrawLim f).eng = s.eng := rfl
@[simp] theorem State.modDrawLim_flt : (s.modDrawLim f).flt = s.flt := rfl
@[simp] theorem State.modDrawLim_boot : (s.modDrawLim f).boot = s.boot := rfl
@[simp] theorem State.modDrawLim_host : (s.modDrawLim f).host = s.host := rfl
@[simp] theorem State.modDrawLim_jobs : (s.modDrawLim f).jobs = s.jobs := rfl
@[simp] theorem State.modDrawLim_store : (s.modDrawLim f).store = s.store := rfl
@[simp] theorem State.modDrawLim_dec : (s.modDrawLim f).dec = s.dec := rfl
@[simp] theorem State.modDrawLim_anch : (s.modDrawLim f).anch = s.anch := rfl
@[simp] theorem State.modDrawLim_facet : (s.modDrawLim f).facet = s.facet := rfl
@[simp] theorem State.modDrawLim_reg : (s.modDrawLim f).reg = s.reg := rfl
@[simp] theorem State.modDrawLim_run : (s.modDrawLim f).run = s.run := rfl
@[simp] theorem State.modDrawLim_clk : (s.modDrawLim f).clk = s.clk := rfl
@[simp] theorem State.modDrawLim_scan : (s.modDrawLim f).scan = s.scan := rfl
@[simp] theorem State.modDrawLim_expo : (s.modDrawLim f).expo = s.expo := rfl
@[simp] theorem State.modDrawLim_il : (s.modDrawLim f).il = s.il := rfl
@[simp] theorem State.modDrawLim_sp : (s.modDrawLim f).sp = s.sp := rfl
@[simp] theorem State.modDrawLim_spBus : (s.modDrawLim f).spBus = s.spBus := rfl
@[simp] theorem State.modDrawLim_law : (s.modDrawLim f).law = s.law := rfl
@[simp] theorem State.modDrawLim_stage : (s.modDrawLim f).stage = s.stage := rfl
@[simp] theorem State.modDrawLim_bus : (s.modDrawLim f).bus = s.bus := rfl
@[simp] theorem State.modDrawLim_rope : (s.modDrawLim f).rope = s.rope := rfl
@[simp] theorem State.modDrawLim_drawLim : (s.modDrawLim f).drawLim = f s.drawLim := rfl
@[simp] theorem State.modDrawLim_ramp : (s.modDrawLim f).ramp = s.ramp := rfl
@[simp] theorem State.modDrawLim_vBelay : (s.modDrawLim f).vBelay = s.vBelay := rfl
@[simp] theorem State.modDrawLim_aux : (s.modDrawLim f).aux = s.aux := rfl
@[simp] theorem State.modDrawLim_therm : (s.modDrawLim f).therm = s.therm := rfl
@[simp] theorem State.modDrawLim_htr : (s.modDrawLim f).htr = s.htr := rfl
@[simp] theorem State.modDrawLim_hv : (s.modDrawLim f).hv = s.hv := rfl
@[simp] theorem State.modDrawLim_ring : (s.modDrawLim f).ring = s.ring := rfl
@[simp] theorem State.modDrawLim_pwr : (s.modDrawLim f).pwr = s.pwr := rfl
@[simp] theorem State.modDrawLim_otp : (s.modDrawLim f).otp = s.otp := rfl
@[simp] theorem State.modDrawLim_cons : (s.modDrawLim f).cons = s.cons := rfl
@[simp] theorem State.modDrawLim_pers : (s.modDrawLim f).pers = s.pers := rfl
@[simp] theorem State.modDrawLim_dma : (s.modDrawLim f).dma = s.dma := rfl
@[simp] theorem State.modDrawLim_ist : (s.modDrawLim f).ist = s.ist := rfl
@[simp] theorem State.modDrawLim_tap : (s.modDrawLim f).tap = s.tap := rfl
@[simp] theorem State.modDrawLim_w1c : (s.modDrawLim f).w1c = s.w1c := rfl
@[simp] theorem State.modDrawLim_freeCtr : (s.modDrawLim f).freeCtr = s.freeCtr := rfl
@[simp] theorem State.modDrawLim_pending : (s.modDrawLim f).pending = s.pending := rfl
end

section
variable (f : RampUnit → RampUnit)
@[simp] theorem State.modRamp_eng : (s.modRamp f).eng = s.eng := rfl
@[simp] theorem State.modRamp_flt : (s.modRamp f).flt = s.flt := rfl
@[simp] theorem State.modRamp_boot : (s.modRamp f).boot = s.boot := rfl
@[simp] theorem State.modRamp_host : (s.modRamp f).host = s.host := rfl
@[simp] theorem State.modRamp_jobs : (s.modRamp f).jobs = s.jobs := rfl
@[simp] theorem State.modRamp_store : (s.modRamp f).store = s.store := rfl
@[simp] theorem State.modRamp_dec : (s.modRamp f).dec = s.dec := rfl
@[simp] theorem State.modRamp_anch : (s.modRamp f).anch = s.anch := rfl
@[simp] theorem State.modRamp_facet : (s.modRamp f).facet = s.facet := rfl
@[simp] theorem State.modRamp_reg : (s.modRamp f).reg = s.reg := rfl
@[simp] theorem State.modRamp_run : (s.modRamp f).run = s.run := rfl
@[simp] theorem State.modRamp_clk : (s.modRamp f).clk = s.clk := rfl
@[simp] theorem State.modRamp_scan : (s.modRamp f).scan = s.scan := rfl
@[simp] theorem State.modRamp_expo : (s.modRamp f).expo = s.expo := rfl
@[simp] theorem State.modRamp_il : (s.modRamp f).il = s.il := rfl
@[simp] theorem State.modRamp_sp : (s.modRamp f).sp = s.sp := rfl
@[simp] theorem State.modRamp_spBus : (s.modRamp f).spBus = s.spBus := rfl
@[simp] theorem State.modRamp_law : (s.modRamp f).law = s.law := rfl
@[simp] theorem State.modRamp_stage : (s.modRamp f).stage = s.stage := rfl
@[simp] theorem State.modRamp_bus : (s.modRamp f).bus = s.bus := rfl
@[simp] theorem State.modRamp_rope : (s.modRamp f).rope = s.rope := rfl
@[simp] theorem State.modRamp_drawLim : (s.modRamp f).drawLim = s.drawLim := rfl
@[simp] theorem State.modRamp_ramp : (s.modRamp f).ramp = f s.ramp := rfl
@[simp] theorem State.modRamp_vBelay : (s.modRamp f).vBelay = s.vBelay := rfl
@[simp] theorem State.modRamp_aux : (s.modRamp f).aux = s.aux := rfl
@[simp] theorem State.modRamp_therm : (s.modRamp f).therm = s.therm := rfl
@[simp] theorem State.modRamp_htr : (s.modRamp f).htr = s.htr := rfl
@[simp] theorem State.modRamp_hv : (s.modRamp f).hv = s.hv := rfl
@[simp] theorem State.modRamp_ring : (s.modRamp f).ring = s.ring := rfl
@[simp] theorem State.modRamp_pwr : (s.modRamp f).pwr = s.pwr := rfl
@[simp] theorem State.modRamp_otp : (s.modRamp f).otp = s.otp := rfl
@[simp] theorem State.modRamp_cons : (s.modRamp f).cons = s.cons := rfl
@[simp] theorem State.modRamp_pers : (s.modRamp f).pers = s.pers := rfl
@[simp] theorem State.modRamp_dma : (s.modRamp f).dma = s.dma := rfl
@[simp] theorem State.modRamp_ist : (s.modRamp f).ist = s.ist := rfl
@[simp] theorem State.modRamp_tap : (s.modRamp f).tap = s.tap := rfl
@[simp] theorem State.modRamp_w1c : (s.modRamp f).w1c = s.w1c := rfl
@[simp] theorem State.modRamp_freeCtr : (s.modRamp f).freeCtr = s.freeCtr := rfl
@[simp] theorem State.modRamp_pending : (s.modRamp f).pending = s.pending := rfl
end

section
variable (f : F32 → F32)
@[simp] theorem State.modVBelay_eng : (s.modVBelay f).eng = s.eng := rfl
@[simp] theorem State.modVBelay_flt : (s.modVBelay f).flt = s.flt := rfl
@[simp] theorem State.modVBelay_boot : (s.modVBelay f).boot = s.boot := rfl
@[simp] theorem State.modVBelay_host : (s.modVBelay f).host = s.host := rfl
@[simp] theorem State.modVBelay_jobs : (s.modVBelay f).jobs = s.jobs := rfl
@[simp] theorem State.modVBelay_store : (s.modVBelay f).store = s.store := rfl
@[simp] theorem State.modVBelay_dec : (s.modVBelay f).dec = s.dec := rfl
@[simp] theorem State.modVBelay_anch : (s.modVBelay f).anch = s.anch := rfl
@[simp] theorem State.modVBelay_facet : (s.modVBelay f).facet = s.facet := rfl
@[simp] theorem State.modVBelay_reg : (s.modVBelay f).reg = s.reg := rfl
@[simp] theorem State.modVBelay_run : (s.modVBelay f).run = s.run := rfl
@[simp] theorem State.modVBelay_clk : (s.modVBelay f).clk = s.clk := rfl
@[simp] theorem State.modVBelay_scan : (s.modVBelay f).scan = s.scan := rfl
@[simp] theorem State.modVBelay_expo : (s.modVBelay f).expo = s.expo := rfl
@[simp] theorem State.modVBelay_il : (s.modVBelay f).il = s.il := rfl
@[simp] theorem State.modVBelay_sp : (s.modVBelay f).sp = s.sp := rfl
@[simp] theorem State.modVBelay_spBus : (s.modVBelay f).spBus = s.spBus := rfl
@[simp] theorem State.modVBelay_law : (s.modVBelay f).law = s.law := rfl
@[simp] theorem State.modVBelay_stage : (s.modVBelay f).stage = s.stage := rfl
@[simp] theorem State.modVBelay_bus : (s.modVBelay f).bus = s.bus := rfl
@[simp] theorem State.modVBelay_rope : (s.modVBelay f).rope = s.rope := rfl
@[simp] theorem State.modVBelay_drawLim : (s.modVBelay f).drawLim = s.drawLim := rfl
@[simp] theorem State.modVBelay_ramp : (s.modVBelay f).ramp = s.ramp := rfl
@[simp] theorem State.modVBelay_vBelay : (s.modVBelay f).vBelay = f s.vBelay := rfl
@[simp] theorem State.modVBelay_aux : (s.modVBelay f).aux = s.aux := rfl
@[simp] theorem State.modVBelay_therm : (s.modVBelay f).therm = s.therm := rfl
@[simp] theorem State.modVBelay_htr : (s.modVBelay f).htr = s.htr := rfl
@[simp] theorem State.modVBelay_hv : (s.modVBelay f).hv = s.hv := rfl
@[simp] theorem State.modVBelay_ring : (s.modVBelay f).ring = s.ring := rfl
@[simp] theorem State.modVBelay_pwr : (s.modVBelay f).pwr = s.pwr := rfl
@[simp] theorem State.modVBelay_otp : (s.modVBelay f).otp = s.otp := rfl
@[simp] theorem State.modVBelay_cons : (s.modVBelay f).cons = s.cons := rfl
@[simp] theorem State.modVBelay_pers : (s.modVBelay f).pers = s.pers := rfl
@[simp] theorem State.modVBelay_dma : (s.modVBelay f).dma = s.dma := rfl
@[simp] theorem State.modVBelay_ist : (s.modVBelay f).ist = s.ist := rfl
@[simp] theorem State.modVBelay_tap : (s.modVBelay f).tap = s.tap := rfl
@[simp] theorem State.modVBelay_w1c : (s.modVBelay f).w1c = s.w1c := rfl
@[simp] theorem State.modVBelay_freeCtr : (s.modVBelay f).freeCtr = s.freeCtr := rfl
@[simp] theorem State.modVBelay_pending : (s.modVBelay f).pending = s.pending := rfl
end

section
variable (f : Vector Aux 16 → Vector Aux 16)
@[simp] theorem State.modAux_eng : (s.modAux f).eng = s.eng := rfl
@[simp] theorem State.modAux_flt : (s.modAux f).flt = s.flt := rfl
@[simp] theorem State.modAux_boot : (s.modAux f).boot = s.boot := rfl
@[simp] theorem State.modAux_host : (s.modAux f).host = s.host := rfl
@[simp] theorem State.modAux_jobs : (s.modAux f).jobs = s.jobs := rfl
@[simp] theorem State.modAux_store : (s.modAux f).store = s.store := rfl
@[simp] theorem State.modAux_dec : (s.modAux f).dec = s.dec := rfl
@[simp] theorem State.modAux_anch : (s.modAux f).anch = s.anch := rfl
@[simp] theorem State.modAux_facet : (s.modAux f).facet = s.facet := rfl
@[simp] theorem State.modAux_reg : (s.modAux f).reg = s.reg := rfl
@[simp] theorem State.modAux_run : (s.modAux f).run = s.run := rfl
@[simp] theorem State.modAux_clk : (s.modAux f).clk = s.clk := rfl
@[simp] theorem State.modAux_scan : (s.modAux f).scan = s.scan := rfl
@[simp] theorem State.modAux_expo : (s.modAux f).expo = s.expo := rfl
@[simp] theorem State.modAux_il : (s.modAux f).il = s.il := rfl
@[simp] theorem State.modAux_sp : (s.modAux f).sp = s.sp := rfl
@[simp] theorem State.modAux_spBus : (s.modAux f).spBus = s.spBus := rfl
@[simp] theorem State.modAux_law : (s.modAux f).law = s.law := rfl
@[simp] theorem State.modAux_stage : (s.modAux f).stage = s.stage := rfl
@[simp] theorem State.modAux_bus : (s.modAux f).bus = s.bus := rfl
@[simp] theorem State.modAux_rope : (s.modAux f).rope = s.rope := rfl
@[simp] theorem State.modAux_drawLim : (s.modAux f).drawLim = s.drawLim := rfl
@[simp] theorem State.modAux_ramp : (s.modAux f).ramp = s.ramp := rfl
@[simp] theorem State.modAux_vBelay : (s.modAux f).vBelay = s.vBelay := rfl
@[simp] theorem State.modAux_aux : (s.modAux f).aux = f s.aux := rfl
@[simp] theorem State.modAux_therm : (s.modAux f).therm = s.therm := rfl
@[simp] theorem State.modAux_htr : (s.modAux f).htr = s.htr := rfl
@[simp] theorem State.modAux_hv : (s.modAux f).hv = s.hv := rfl
@[simp] theorem State.modAux_ring : (s.modAux f).ring = s.ring := rfl
@[simp] theorem State.modAux_pwr : (s.modAux f).pwr = s.pwr := rfl
@[simp] theorem State.modAux_otp : (s.modAux f).otp = s.otp := rfl
@[simp] theorem State.modAux_cons : (s.modAux f).cons = s.cons := rfl
@[simp] theorem State.modAux_pers : (s.modAux f).pers = s.pers := rfl
@[simp] theorem State.modAux_dma : (s.modAux f).dma = s.dma := rfl
@[simp] theorem State.modAux_ist : (s.modAux f).ist = s.ist := rfl
@[simp] theorem State.modAux_tap : (s.modAux f).tap = s.tap := rfl
@[simp] theorem State.modAux_w1c : (s.modAux f).w1c = s.w1c := rfl
@[simp] theorem State.modAux_freeCtr : (s.modAux f).freeCtr = s.freeCtr := rfl
@[simp] theorem State.modAux_pending : (s.modAux f).pending = s.pending := rfl
end

section
variable (f : Therm → Therm)
@[simp] theorem State.modTherm_eng : (s.modTherm f).eng = s.eng := rfl
@[simp] theorem State.modTherm_flt : (s.modTherm f).flt = s.flt := rfl
@[simp] theorem State.modTherm_boot : (s.modTherm f).boot = s.boot := rfl
@[simp] theorem State.modTherm_host : (s.modTherm f).host = s.host := rfl
@[simp] theorem State.modTherm_jobs : (s.modTherm f).jobs = s.jobs := rfl
@[simp] theorem State.modTherm_store : (s.modTherm f).store = s.store := rfl
@[simp] theorem State.modTherm_dec : (s.modTherm f).dec = s.dec := rfl
@[simp] theorem State.modTherm_anch : (s.modTherm f).anch = s.anch := rfl
@[simp] theorem State.modTherm_facet : (s.modTherm f).facet = s.facet := rfl
@[simp] theorem State.modTherm_reg : (s.modTherm f).reg = s.reg := rfl
@[simp] theorem State.modTherm_run : (s.modTherm f).run = s.run := rfl
@[simp] theorem State.modTherm_clk : (s.modTherm f).clk = s.clk := rfl
@[simp] theorem State.modTherm_scan : (s.modTherm f).scan = s.scan := rfl
@[simp] theorem State.modTherm_expo : (s.modTherm f).expo = s.expo := rfl
@[simp] theorem State.modTherm_il : (s.modTherm f).il = s.il := rfl
@[simp] theorem State.modTherm_sp : (s.modTherm f).sp = s.sp := rfl
@[simp] theorem State.modTherm_spBus : (s.modTherm f).spBus = s.spBus := rfl
@[simp] theorem State.modTherm_law : (s.modTherm f).law = s.law := rfl
@[simp] theorem State.modTherm_stage : (s.modTherm f).stage = s.stage := rfl
@[simp] theorem State.modTherm_bus : (s.modTherm f).bus = s.bus := rfl
@[simp] theorem State.modTherm_rope : (s.modTherm f).rope = s.rope := rfl
@[simp] theorem State.modTherm_drawLim : (s.modTherm f).drawLim = s.drawLim := rfl
@[simp] theorem State.modTherm_ramp : (s.modTherm f).ramp = s.ramp := rfl
@[simp] theorem State.modTherm_vBelay : (s.modTherm f).vBelay = s.vBelay := rfl
@[simp] theorem State.modTherm_aux : (s.modTherm f).aux = s.aux := rfl
@[simp] theorem State.modTherm_therm : (s.modTherm f).therm = f s.therm := rfl
@[simp] theorem State.modTherm_htr : (s.modTherm f).htr = s.htr := rfl
@[simp] theorem State.modTherm_hv : (s.modTherm f).hv = s.hv := rfl
@[simp] theorem State.modTherm_ring : (s.modTherm f).ring = s.ring := rfl
@[simp] theorem State.modTherm_pwr : (s.modTherm f).pwr = s.pwr := rfl
@[simp] theorem State.modTherm_otp : (s.modTherm f).otp = s.otp := rfl
@[simp] theorem State.modTherm_cons : (s.modTherm f).cons = s.cons := rfl
@[simp] theorem State.modTherm_pers : (s.modTherm f).pers = s.pers := rfl
@[simp] theorem State.modTherm_dma : (s.modTherm f).dma = s.dma := rfl
@[simp] theorem State.modTherm_ist : (s.modTherm f).ist = s.ist := rfl
@[simp] theorem State.modTherm_tap : (s.modTherm f).tap = s.tap := rfl
@[simp] theorem State.modTherm_w1c : (s.modTherm f).w1c = s.w1c := rfl
@[simp] theorem State.modTherm_freeCtr : (s.modTherm f).freeCtr = s.freeCtr := rfl
@[simp] theorem State.modTherm_pending : (s.modTherm f).pending = s.pending := rfl
end

section
variable (f : Heaters → Heaters)
@[simp] theorem State.modHtr_eng : (s.modHtr f).eng = s.eng := rfl
@[simp] theorem State.modHtr_flt : (s.modHtr f).flt = s.flt := rfl
@[simp] theorem State.modHtr_boot : (s.modHtr f).boot = s.boot := rfl
@[simp] theorem State.modHtr_host : (s.modHtr f).host = s.host := rfl
@[simp] theorem State.modHtr_jobs : (s.modHtr f).jobs = s.jobs := rfl
@[simp] theorem State.modHtr_store : (s.modHtr f).store = s.store := rfl
@[simp] theorem State.modHtr_dec : (s.modHtr f).dec = s.dec := rfl
@[simp] theorem State.modHtr_anch : (s.modHtr f).anch = s.anch := rfl
@[simp] theorem State.modHtr_facet : (s.modHtr f).facet = s.facet := rfl
@[simp] theorem State.modHtr_reg : (s.modHtr f).reg = s.reg := rfl
@[simp] theorem State.modHtr_run : (s.modHtr f).run = s.run := rfl
@[simp] theorem State.modHtr_clk : (s.modHtr f).clk = s.clk := rfl
@[simp] theorem State.modHtr_scan : (s.modHtr f).scan = s.scan := rfl
@[simp] theorem State.modHtr_expo : (s.modHtr f).expo = s.expo := rfl
@[simp] theorem State.modHtr_il : (s.modHtr f).il = s.il := rfl
@[simp] theorem State.modHtr_sp : (s.modHtr f).sp = s.sp := rfl
@[simp] theorem State.modHtr_spBus : (s.modHtr f).spBus = s.spBus := rfl
@[simp] theorem State.modHtr_law : (s.modHtr f).law = s.law := rfl
@[simp] theorem State.modHtr_stage : (s.modHtr f).stage = s.stage := rfl
@[simp] theorem State.modHtr_bus : (s.modHtr f).bus = s.bus := rfl
@[simp] theorem State.modHtr_rope : (s.modHtr f).rope = s.rope := rfl
@[simp] theorem State.modHtr_drawLim : (s.modHtr f).drawLim = s.drawLim := rfl
@[simp] theorem State.modHtr_ramp : (s.modHtr f).ramp = s.ramp := rfl
@[simp] theorem State.modHtr_vBelay : (s.modHtr f).vBelay = s.vBelay := rfl
@[simp] theorem State.modHtr_aux : (s.modHtr f).aux = s.aux := rfl
@[simp] theorem State.modHtr_therm : (s.modHtr f).therm = s.therm := rfl
@[simp] theorem State.modHtr_htr : (s.modHtr f).htr = f s.htr := rfl
@[simp] theorem State.modHtr_hv : (s.modHtr f).hv = s.hv := rfl
@[simp] theorem State.modHtr_ring : (s.modHtr f).ring = s.ring := rfl
@[simp] theorem State.modHtr_pwr : (s.modHtr f).pwr = s.pwr := rfl
@[simp] theorem State.modHtr_otp : (s.modHtr f).otp = s.otp := rfl
@[simp] theorem State.modHtr_cons : (s.modHtr f).cons = s.cons := rfl
@[simp] theorem State.modHtr_pers : (s.modHtr f).pers = s.pers := rfl
@[simp] theorem State.modHtr_dma : (s.modHtr f).dma = s.dma := rfl
@[simp] theorem State.modHtr_ist : (s.modHtr f).ist = s.ist := rfl
@[simp] theorem State.modHtr_tap : (s.modHtr f).tap = s.tap := rfl
@[simp] theorem State.modHtr_w1c : (s.modHtr f).w1c = s.w1c := rfl
@[simp] theorem State.modHtr_freeCtr : (s.modHtr f).freeCtr = s.freeCtr := rfl
@[simp] theorem State.modHtr_pending : (s.modHtr f).pending = s.pending := rfl
end

section
variable (f : Hv → Hv)
@[simp] theorem State.modHv_eng : (s.modHv f).eng = s.eng := rfl
@[simp] theorem State.modHv_flt : (s.modHv f).flt = s.flt := rfl
@[simp] theorem State.modHv_boot : (s.modHv f).boot = s.boot := rfl
@[simp] theorem State.modHv_host : (s.modHv f).host = s.host := rfl
@[simp] theorem State.modHv_jobs : (s.modHv f).jobs = s.jobs := rfl
@[simp] theorem State.modHv_store : (s.modHv f).store = s.store := rfl
@[simp] theorem State.modHv_dec : (s.modHv f).dec = s.dec := rfl
@[simp] theorem State.modHv_anch : (s.modHv f).anch = s.anch := rfl
@[simp] theorem State.modHv_facet : (s.modHv f).facet = s.facet := rfl
@[simp] theorem State.modHv_reg : (s.modHv f).reg = s.reg := rfl
@[simp] theorem State.modHv_run : (s.modHv f).run = s.run := rfl
@[simp] theorem State.modHv_clk : (s.modHv f).clk = s.clk := rfl
@[simp] theorem State.modHv_scan : (s.modHv f).scan = s.scan := rfl
@[simp] theorem State.modHv_expo : (s.modHv f).expo = s.expo := rfl
@[simp] theorem State.modHv_il : (s.modHv f).il = s.il := rfl
@[simp] theorem State.modHv_sp : (s.modHv f).sp = s.sp := rfl
@[simp] theorem State.modHv_spBus : (s.modHv f).spBus = s.spBus := rfl
@[simp] theorem State.modHv_law : (s.modHv f).law = s.law := rfl
@[simp] theorem State.modHv_stage : (s.modHv f).stage = s.stage := rfl
@[simp] theorem State.modHv_bus : (s.modHv f).bus = s.bus := rfl
@[simp] theorem State.modHv_rope : (s.modHv f).rope = s.rope := rfl
@[simp] theorem State.modHv_drawLim : (s.modHv f).drawLim = s.drawLim := rfl
@[simp] theorem State.modHv_ramp : (s.modHv f).ramp = s.ramp := rfl
@[simp] theorem State.modHv_vBelay : (s.modHv f).vBelay = s.vBelay := rfl
@[simp] theorem State.modHv_aux : (s.modHv f).aux = s.aux := rfl
@[simp] theorem State.modHv_therm : (s.modHv f).therm = s.therm := rfl
@[simp] theorem State.modHv_htr : (s.modHv f).htr = s.htr := rfl
@[simp] theorem State.modHv_hv : (s.modHv f).hv = f s.hv := rfl
@[simp] theorem State.modHv_ring : (s.modHv f).ring = s.ring := rfl
@[simp] theorem State.modHv_pwr : (s.modHv f).pwr = s.pwr := rfl
@[simp] theorem State.modHv_otp : (s.modHv f).otp = s.otp := rfl
@[simp] theorem State.modHv_cons : (s.modHv f).cons = s.cons := rfl
@[simp] theorem State.modHv_pers : (s.modHv f).pers = s.pers := rfl
@[simp] theorem State.modHv_dma : (s.modHv f).dma = s.dma := rfl
@[simp] theorem State.modHv_ist : (s.modHv f).ist = s.ist := rfl
@[simp] theorem State.modHv_tap : (s.modHv f).tap = s.tap := rfl
@[simp] theorem State.modHv_w1c : (s.modHv f).w1c = s.w1c := rfl
@[simp] theorem State.modHv_freeCtr : (s.modHv f).freeCtr = s.freeCtr := rfl
@[simp] theorem State.modHv_pending : (s.modHv f).pending = s.pending := rfl
end

section
variable (f : Ring → Ring)
@[simp] theorem State.modRing_eng : (s.modRing f).eng = s.eng := rfl
@[simp] theorem State.modRing_flt : (s.modRing f).flt = s.flt := rfl
@[simp] theorem State.modRing_boot : (s.modRing f).boot = s.boot := rfl
@[simp] theorem State.modRing_host : (s.modRing f).host = s.host := rfl
@[simp] theorem State.modRing_jobs : (s.modRing f).jobs = s.jobs := rfl
@[simp] theorem State.modRing_store : (s.modRing f).store = s.store := rfl
@[simp] theorem State.modRing_dec : (s.modRing f).dec = s.dec := rfl
@[simp] theorem State.modRing_anch : (s.modRing f).anch = s.anch := rfl
@[simp] theorem State.modRing_facet : (s.modRing f).facet = s.facet := rfl
@[simp] theorem State.modRing_reg : (s.modRing f).reg = s.reg := rfl
@[simp] theorem State.modRing_run : (s.modRing f).run = s.run := rfl
@[simp] theorem State.modRing_clk : (s.modRing f).clk = s.clk := rfl
@[simp] theorem State.modRing_scan : (s.modRing f).scan = s.scan := rfl
@[simp] theorem State.modRing_expo : (s.modRing f).expo = s.expo := rfl
@[simp] theorem State.modRing_il : (s.modRing f).il = s.il := rfl
@[simp] theorem State.modRing_sp : (s.modRing f).sp = s.sp := rfl
@[simp] theorem State.modRing_spBus : (s.modRing f).spBus = s.spBus := rfl
@[simp] theorem State.modRing_law : (s.modRing f).law = s.law := rfl
@[simp] theorem State.modRing_stage : (s.modRing f).stage = s.stage := rfl
@[simp] theorem State.modRing_bus : (s.modRing f).bus = s.bus := rfl
@[simp] theorem State.modRing_rope : (s.modRing f).rope = s.rope := rfl
@[simp] theorem State.modRing_drawLim : (s.modRing f).drawLim = s.drawLim := rfl
@[simp] theorem State.modRing_ramp : (s.modRing f).ramp = s.ramp := rfl
@[simp] theorem State.modRing_vBelay : (s.modRing f).vBelay = s.vBelay := rfl
@[simp] theorem State.modRing_aux : (s.modRing f).aux = s.aux := rfl
@[simp] theorem State.modRing_therm : (s.modRing f).therm = s.therm := rfl
@[simp] theorem State.modRing_htr : (s.modRing f).htr = s.htr := rfl
@[simp] theorem State.modRing_hv : (s.modRing f).hv = s.hv := rfl
@[simp] theorem State.modRing_ring : (s.modRing f).ring = f s.ring := rfl
@[simp] theorem State.modRing_pwr : (s.modRing f).pwr = s.pwr := rfl
@[simp] theorem State.modRing_otp : (s.modRing f).otp = s.otp := rfl
@[simp] theorem State.modRing_cons : (s.modRing f).cons = s.cons := rfl
@[simp] theorem State.modRing_pers : (s.modRing f).pers = s.pers := rfl
@[simp] theorem State.modRing_dma : (s.modRing f).dma = s.dma := rfl
@[simp] theorem State.modRing_ist : (s.modRing f).ist = s.ist := rfl
@[simp] theorem State.modRing_tap : (s.modRing f).tap = s.tap := rfl
@[simp] theorem State.modRing_w1c : (s.modRing f).w1c = s.w1c := rfl
@[simp] theorem State.modRing_freeCtr : (s.modRing f).freeCtr = s.freeCtr := rfl
@[simp] theorem State.modRing_pending : (s.modRing f).pending = s.pending := rfl
end

section
variable (f : Power → Power)
@[simp] theorem State.modPwr_eng : (s.modPwr f).eng = s.eng := rfl
@[simp] theorem State.modPwr_flt : (s.modPwr f).flt = s.flt := rfl
@[simp] theorem State.modPwr_boot : (s.modPwr f).boot = s.boot := rfl
@[simp] theorem State.modPwr_host : (s.modPwr f).host = s.host := rfl
@[simp] theorem State.modPwr_jobs : (s.modPwr f).jobs = s.jobs := rfl
@[simp] theorem State.modPwr_store : (s.modPwr f).store = s.store := rfl
@[simp] theorem State.modPwr_dec : (s.modPwr f).dec = s.dec := rfl
@[simp] theorem State.modPwr_anch : (s.modPwr f).anch = s.anch := rfl
@[simp] theorem State.modPwr_facet : (s.modPwr f).facet = s.facet := rfl
@[simp] theorem State.modPwr_reg : (s.modPwr f).reg = s.reg := rfl
@[simp] theorem State.modPwr_run : (s.modPwr f).run = s.run := rfl
@[simp] theorem State.modPwr_clk : (s.modPwr f).clk = s.clk := rfl
@[simp] theorem State.modPwr_scan : (s.modPwr f).scan = s.scan := rfl
@[simp] theorem State.modPwr_expo : (s.modPwr f).expo = s.expo := rfl
@[simp] theorem State.modPwr_il : (s.modPwr f).il = s.il := rfl
@[simp] theorem State.modPwr_sp : (s.modPwr f).sp = s.sp := rfl
@[simp] theorem State.modPwr_spBus : (s.modPwr f).spBus = s.spBus := rfl
@[simp] theorem State.modPwr_law : (s.modPwr f).law = s.law := rfl
@[simp] theorem State.modPwr_stage : (s.modPwr f).stage = s.stage := rfl
@[simp] theorem State.modPwr_bus : (s.modPwr f).bus = s.bus := rfl
@[simp] theorem State.modPwr_rope : (s.modPwr f).rope = s.rope := rfl
@[simp] theorem State.modPwr_drawLim : (s.modPwr f).drawLim = s.drawLim := rfl
@[simp] theorem State.modPwr_ramp : (s.modPwr f).ramp = s.ramp := rfl
@[simp] theorem State.modPwr_vBelay : (s.modPwr f).vBelay = s.vBelay := rfl
@[simp] theorem State.modPwr_aux : (s.modPwr f).aux = s.aux := rfl
@[simp] theorem State.modPwr_therm : (s.modPwr f).therm = s.therm := rfl
@[simp] theorem State.modPwr_htr : (s.modPwr f).htr = s.htr := rfl
@[simp] theorem State.modPwr_hv : (s.modPwr f).hv = s.hv := rfl
@[simp] theorem State.modPwr_ring : (s.modPwr f).ring = s.ring := rfl
@[simp] theorem State.modPwr_pwr : (s.modPwr f).pwr = f s.pwr := rfl
@[simp] theorem State.modPwr_otp : (s.modPwr f).otp = s.otp := rfl
@[simp] theorem State.modPwr_cons : (s.modPwr f).cons = s.cons := rfl
@[simp] theorem State.modPwr_pers : (s.modPwr f).pers = s.pers := rfl
@[simp] theorem State.modPwr_dma : (s.modPwr f).dma = s.dma := rfl
@[simp] theorem State.modPwr_ist : (s.modPwr f).ist = s.ist := rfl
@[simp] theorem State.modPwr_tap : (s.modPwr f).tap = s.tap := rfl
@[simp] theorem State.modPwr_w1c : (s.modPwr f).w1c = s.w1c := rfl
@[simp] theorem State.modPwr_freeCtr : (s.modPwr f).freeCtr = s.freeCtr := rfl
@[simp] theorem State.modPwr_pending : (s.modPwr f).pending = s.pending := rfl
end

section
variable (f : Otp → Otp)
@[simp] theorem State.modOtp_eng : (s.modOtp f).eng = s.eng := rfl
@[simp] theorem State.modOtp_flt : (s.modOtp f).flt = s.flt := rfl
@[simp] theorem State.modOtp_boot : (s.modOtp f).boot = s.boot := rfl
@[simp] theorem State.modOtp_host : (s.modOtp f).host = s.host := rfl
@[simp] theorem State.modOtp_jobs : (s.modOtp f).jobs = s.jobs := rfl
@[simp] theorem State.modOtp_store : (s.modOtp f).store = s.store := rfl
@[simp] theorem State.modOtp_dec : (s.modOtp f).dec = s.dec := rfl
@[simp] theorem State.modOtp_anch : (s.modOtp f).anch = s.anch := rfl
@[simp] theorem State.modOtp_facet : (s.modOtp f).facet = s.facet := rfl
@[simp] theorem State.modOtp_reg : (s.modOtp f).reg = s.reg := rfl
@[simp] theorem State.modOtp_run : (s.modOtp f).run = s.run := rfl
@[simp] theorem State.modOtp_clk : (s.modOtp f).clk = s.clk := rfl
@[simp] theorem State.modOtp_scan : (s.modOtp f).scan = s.scan := rfl
@[simp] theorem State.modOtp_expo : (s.modOtp f).expo = s.expo := rfl
@[simp] theorem State.modOtp_il : (s.modOtp f).il = s.il := rfl
@[simp] theorem State.modOtp_sp : (s.modOtp f).sp = s.sp := rfl
@[simp] theorem State.modOtp_spBus : (s.modOtp f).spBus = s.spBus := rfl
@[simp] theorem State.modOtp_law : (s.modOtp f).law = s.law := rfl
@[simp] theorem State.modOtp_stage : (s.modOtp f).stage = s.stage := rfl
@[simp] theorem State.modOtp_bus : (s.modOtp f).bus = s.bus := rfl
@[simp] theorem State.modOtp_rope : (s.modOtp f).rope = s.rope := rfl
@[simp] theorem State.modOtp_drawLim : (s.modOtp f).drawLim = s.drawLim := rfl
@[simp] theorem State.modOtp_ramp : (s.modOtp f).ramp = s.ramp := rfl
@[simp] theorem State.modOtp_vBelay : (s.modOtp f).vBelay = s.vBelay := rfl
@[simp] theorem State.modOtp_aux : (s.modOtp f).aux = s.aux := rfl
@[simp] theorem State.modOtp_therm : (s.modOtp f).therm = s.therm := rfl
@[simp] theorem State.modOtp_htr : (s.modOtp f).htr = s.htr := rfl
@[simp] theorem State.modOtp_hv : (s.modOtp f).hv = s.hv := rfl
@[simp] theorem State.modOtp_ring : (s.modOtp f).ring = s.ring := rfl
@[simp] theorem State.modOtp_pwr : (s.modOtp f).pwr = s.pwr := rfl
@[simp] theorem State.modOtp_otp : (s.modOtp f).otp = f s.otp := rfl
@[simp] theorem State.modOtp_cons : (s.modOtp f).cons = s.cons := rfl
@[simp] theorem State.modOtp_pers : (s.modOtp f).pers = s.pers := rfl
@[simp] theorem State.modOtp_dma : (s.modOtp f).dma = s.dma := rfl
@[simp] theorem State.modOtp_ist : (s.modOtp f).ist = s.ist := rfl
@[simp] theorem State.modOtp_tap : (s.modOtp f).tap = s.tap := rfl
@[simp] theorem State.modOtp_w1c : (s.modOtp f).w1c = s.w1c := rfl
@[simp] theorem State.modOtp_freeCtr : (s.modOtp f).freeCtr = s.freeCtr := rfl
@[simp] theorem State.modOtp_pending : (s.modOtp f).pending = s.pending := rfl
end

section
variable (f : Cons → Cons)
@[simp] theorem State.modCons_eng : (s.modCons f).eng = s.eng := rfl
@[simp] theorem State.modCons_flt : (s.modCons f).flt = s.flt := rfl
@[simp] theorem State.modCons_boot : (s.modCons f).boot = s.boot := rfl
@[simp] theorem State.modCons_host : (s.modCons f).host = s.host := rfl
@[simp] theorem State.modCons_jobs : (s.modCons f).jobs = s.jobs := rfl
@[simp] theorem State.modCons_store : (s.modCons f).store = s.store := rfl
@[simp] theorem State.modCons_dec : (s.modCons f).dec = s.dec := rfl
@[simp] theorem State.modCons_anch : (s.modCons f).anch = s.anch := rfl
@[simp] theorem State.modCons_facet : (s.modCons f).facet = s.facet := rfl
@[simp] theorem State.modCons_reg : (s.modCons f).reg = s.reg := rfl
@[simp] theorem State.modCons_run : (s.modCons f).run = s.run := rfl
@[simp] theorem State.modCons_clk : (s.modCons f).clk = s.clk := rfl
@[simp] theorem State.modCons_scan : (s.modCons f).scan = s.scan := rfl
@[simp] theorem State.modCons_expo : (s.modCons f).expo = s.expo := rfl
@[simp] theorem State.modCons_il : (s.modCons f).il = s.il := rfl
@[simp] theorem State.modCons_sp : (s.modCons f).sp = s.sp := rfl
@[simp] theorem State.modCons_spBus : (s.modCons f).spBus = s.spBus := rfl
@[simp] theorem State.modCons_law : (s.modCons f).law = s.law := rfl
@[simp] theorem State.modCons_stage : (s.modCons f).stage = s.stage := rfl
@[simp] theorem State.modCons_bus : (s.modCons f).bus = s.bus := rfl
@[simp] theorem State.modCons_rope : (s.modCons f).rope = s.rope := rfl
@[simp] theorem State.modCons_drawLim : (s.modCons f).drawLim = s.drawLim := rfl
@[simp] theorem State.modCons_ramp : (s.modCons f).ramp = s.ramp := rfl
@[simp] theorem State.modCons_vBelay : (s.modCons f).vBelay = s.vBelay := rfl
@[simp] theorem State.modCons_aux : (s.modCons f).aux = s.aux := rfl
@[simp] theorem State.modCons_therm : (s.modCons f).therm = s.therm := rfl
@[simp] theorem State.modCons_htr : (s.modCons f).htr = s.htr := rfl
@[simp] theorem State.modCons_hv : (s.modCons f).hv = s.hv := rfl
@[simp] theorem State.modCons_ring : (s.modCons f).ring = s.ring := rfl
@[simp] theorem State.modCons_pwr : (s.modCons f).pwr = s.pwr := rfl
@[simp] theorem State.modCons_otp : (s.modCons f).otp = s.otp := rfl
@[simp] theorem State.modCons_cons : (s.modCons f).cons = f s.cons := rfl
@[simp] theorem State.modCons_pers : (s.modCons f).pers = s.pers := rfl
@[simp] theorem State.modCons_dma : (s.modCons f).dma = s.dma := rfl
@[simp] theorem State.modCons_ist : (s.modCons f).ist = s.ist := rfl
@[simp] theorem State.modCons_tap : (s.modCons f).tap = s.tap := rfl
@[simp] theorem State.modCons_w1c : (s.modCons f).w1c = s.w1c := rfl
@[simp] theorem State.modCons_freeCtr : (s.modCons f).freeCtr = s.freeCtr := rfl
@[simp] theorem State.modCons_pending : (s.modCons f).pending = s.pending := rfl
end

section
variable (f : Persist → Persist)
@[simp] theorem State.modPers_eng : (s.modPers f).eng = s.eng := rfl
@[simp] theorem State.modPers_flt : (s.modPers f).flt = s.flt := rfl
@[simp] theorem State.modPers_boot : (s.modPers f).boot = s.boot := rfl
@[simp] theorem State.modPers_host : (s.modPers f).host = s.host := rfl
@[simp] theorem State.modPers_jobs : (s.modPers f).jobs = s.jobs := rfl
@[simp] theorem State.modPers_store : (s.modPers f).store = s.store := rfl
@[simp] theorem State.modPers_dec : (s.modPers f).dec = s.dec := rfl
@[simp] theorem State.modPers_anch : (s.modPers f).anch = s.anch := rfl
@[simp] theorem State.modPers_facet : (s.modPers f).facet = s.facet := rfl
@[simp] theorem State.modPers_reg : (s.modPers f).reg = s.reg := rfl
@[simp] theorem State.modPers_run : (s.modPers f).run = s.run := rfl
@[simp] theorem State.modPers_clk : (s.modPers f).clk = s.clk := rfl
@[simp] theorem State.modPers_scan : (s.modPers f).scan = s.scan := rfl
@[simp] theorem State.modPers_expo : (s.modPers f).expo = s.expo := rfl
@[simp] theorem State.modPers_il : (s.modPers f).il = s.il := rfl
@[simp] theorem State.modPers_sp : (s.modPers f).sp = s.sp := rfl
@[simp] theorem State.modPers_spBus : (s.modPers f).spBus = s.spBus := rfl
@[simp] theorem State.modPers_law : (s.modPers f).law = s.law := rfl
@[simp] theorem State.modPers_stage : (s.modPers f).stage = s.stage := rfl
@[simp] theorem State.modPers_bus : (s.modPers f).bus = s.bus := rfl
@[simp] theorem State.modPers_rope : (s.modPers f).rope = s.rope := rfl
@[simp] theorem State.modPers_drawLim : (s.modPers f).drawLim = s.drawLim := rfl
@[simp] theorem State.modPers_ramp : (s.modPers f).ramp = s.ramp := rfl
@[simp] theorem State.modPers_vBelay : (s.modPers f).vBelay = s.vBelay := rfl
@[simp] theorem State.modPers_aux : (s.modPers f).aux = s.aux := rfl
@[simp] theorem State.modPers_therm : (s.modPers f).therm = s.therm := rfl
@[simp] theorem State.modPers_htr : (s.modPers f).htr = s.htr := rfl
@[simp] theorem State.modPers_hv : (s.modPers f).hv = s.hv := rfl
@[simp] theorem State.modPers_ring : (s.modPers f).ring = s.ring := rfl
@[simp] theorem State.modPers_pwr : (s.modPers f).pwr = s.pwr := rfl
@[simp] theorem State.modPers_otp : (s.modPers f).otp = s.otp := rfl
@[simp] theorem State.modPers_cons : (s.modPers f).cons = s.cons := rfl
@[simp] theorem State.modPers_pers : (s.modPers f).pers = f s.pers := rfl
@[simp] theorem State.modPers_dma : (s.modPers f).dma = s.dma := rfl
@[simp] theorem State.modPers_ist : (s.modPers f).ist = s.ist := rfl
@[simp] theorem State.modPers_tap : (s.modPers f).tap = s.tap := rfl
@[simp] theorem State.modPers_w1c : (s.modPers f).w1c = s.w1c := rfl
@[simp] theorem State.modPers_freeCtr : (s.modPers f).freeCtr = s.freeCtr := rfl
@[simp] theorem State.modPers_pending : (s.modPers f).pending = s.pending := rfl
end

section
variable (f : Dma → Dma)
@[simp] theorem State.modDma_eng : (s.modDma f).eng = s.eng := rfl
@[simp] theorem State.modDma_flt : (s.modDma f).flt = s.flt := rfl
@[simp] theorem State.modDma_boot : (s.modDma f).boot = s.boot := rfl
@[simp] theorem State.modDma_host : (s.modDma f).host = s.host := rfl
@[simp] theorem State.modDma_jobs : (s.modDma f).jobs = s.jobs := rfl
@[simp] theorem State.modDma_store : (s.modDma f).store = s.store := rfl
@[simp] theorem State.modDma_dec : (s.modDma f).dec = s.dec := rfl
@[simp] theorem State.modDma_anch : (s.modDma f).anch = s.anch := rfl
@[simp] theorem State.modDma_facet : (s.modDma f).facet = s.facet := rfl
@[simp] theorem State.modDma_reg : (s.modDma f).reg = s.reg := rfl
@[simp] theorem State.modDma_run : (s.modDma f).run = s.run := rfl
@[simp] theorem State.modDma_clk : (s.modDma f).clk = s.clk := rfl
@[simp] theorem State.modDma_scan : (s.modDma f).scan = s.scan := rfl
@[simp] theorem State.modDma_expo : (s.modDma f).expo = s.expo := rfl
@[simp] theorem State.modDma_il : (s.modDma f).il = s.il := rfl
@[simp] theorem State.modDma_sp : (s.modDma f).sp = s.sp := rfl
@[simp] theorem State.modDma_spBus : (s.modDma f).spBus = s.spBus := rfl
@[simp] theorem State.modDma_law : (s.modDma f).law = s.law := rfl
@[simp] theorem State.modDma_stage : (s.modDma f).stage = s.stage := rfl
@[simp] theorem State.modDma_bus : (s.modDma f).bus = s.bus := rfl
@[simp] theorem State.modDma_rope : (s.modDma f).rope = s.rope := rfl
@[simp] theorem State.modDma_drawLim : (s.modDma f).drawLim = s.drawLim := rfl
@[simp] theorem State.modDma_ramp : (s.modDma f).ramp = s.ramp := rfl
@[simp] theorem State.modDma_vBelay : (s.modDma f).vBelay = s.vBelay := rfl
@[simp] theorem State.modDma_aux : (s.modDma f).aux = s.aux := rfl
@[simp] theorem State.modDma_therm : (s.modDma f).therm = s.therm := rfl
@[simp] theorem State.modDma_htr : (s.modDma f).htr = s.htr := rfl
@[simp] theorem State.modDma_hv : (s.modDma f).hv = s.hv := rfl
@[simp] theorem State.modDma_ring : (s.modDma f).ring = s.ring := rfl
@[simp] theorem State.modDma_pwr : (s.modDma f).pwr = s.pwr := rfl
@[simp] theorem State.modDma_otp : (s.modDma f).otp = s.otp := rfl
@[simp] theorem State.modDma_cons : (s.modDma f).cons = s.cons := rfl
@[simp] theorem State.modDma_pers : (s.modDma f).pers = s.pers := rfl
@[simp] theorem State.modDma_dma : (s.modDma f).dma = f s.dma := rfl
@[simp] theorem State.modDma_ist : (s.modDma f).ist = s.ist := rfl
@[simp] theorem State.modDma_tap : (s.modDma f).tap = s.tap := rfl
@[simp] theorem State.modDma_w1c : (s.modDma f).w1c = s.w1c := rfl
@[simp] theorem State.modDma_freeCtr : (s.modDma f).freeCtr = s.freeCtr := rfl
@[simp] theorem State.modDma_pending : (s.modDma f).pending = s.pending := rfl
end

section
variable (f : Ist → Ist)
@[simp] theorem State.modIst_eng : (s.modIst f).eng = s.eng := rfl
@[simp] theorem State.modIst_flt : (s.modIst f).flt = s.flt := rfl
@[simp] theorem State.modIst_boot : (s.modIst f).boot = s.boot := rfl
@[simp] theorem State.modIst_host : (s.modIst f).host = s.host := rfl
@[simp] theorem State.modIst_jobs : (s.modIst f).jobs = s.jobs := rfl
@[simp] theorem State.modIst_store : (s.modIst f).store = s.store := rfl
@[simp] theorem State.modIst_dec : (s.modIst f).dec = s.dec := rfl
@[simp] theorem State.modIst_anch : (s.modIst f).anch = s.anch := rfl
@[simp] theorem State.modIst_facet : (s.modIst f).facet = s.facet := rfl
@[simp] theorem State.modIst_reg : (s.modIst f).reg = s.reg := rfl
@[simp] theorem State.modIst_run : (s.modIst f).run = s.run := rfl
@[simp] theorem State.modIst_clk : (s.modIst f).clk = s.clk := rfl
@[simp] theorem State.modIst_scan : (s.modIst f).scan = s.scan := rfl
@[simp] theorem State.modIst_expo : (s.modIst f).expo = s.expo := rfl
@[simp] theorem State.modIst_il : (s.modIst f).il = s.il := rfl
@[simp] theorem State.modIst_sp : (s.modIst f).sp = s.sp := rfl
@[simp] theorem State.modIst_spBus : (s.modIst f).spBus = s.spBus := rfl
@[simp] theorem State.modIst_law : (s.modIst f).law = s.law := rfl
@[simp] theorem State.modIst_stage : (s.modIst f).stage = s.stage := rfl
@[simp] theorem State.modIst_bus : (s.modIst f).bus = s.bus := rfl
@[simp] theorem State.modIst_rope : (s.modIst f).rope = s.rope := rfl
@[simp] theorem State.modIst_drawLim : (s.modIst f).drawLim = s.drawLim := rfl
@[simp] theorem State.modIst_ramp : (s.modIst f).ramp = s.ramp := rfl
@[simp] theorem State.modIst_vBelay : (s.modIst f).vBelay = s.vBelay := rfl
@[simp] theorem State.modIst_aux : (s.modIst f).aux = s.aux := rfl
@[simp] theorem State.modIst_therm : (s.modIst f).therm = s.therm := rfl
@[simp] theorem State.modIst_htr : (s.modIst f).htr = s.htr := rfl
@[simp] theorem State.modIst_hv : (s.modIst f).hv = s.hv := rfl
@[simp] theorem State.modIst_ring : (s.modIst f).ring = s.ring := rfl
@[simp] theorem State.modIst_pwr : (s.modIst f).pwr = s.pwr := rfl
@[simp] theorem State.modIst_otp : (s.modIst f).otp = s.otp := rfl
@[simp] theorem State.modIst_cons : (s.modIst f).cons = s.cons := rfl
@[simp] theorem State.modIst_pers : (s.modIst f).pers = s.pers := rfl
@[simp] theorem State.modIst_dma : (s.modIst f).dma = s.dma := rfl
@[simp] theorem State.modIst_ist : (s.modIst f).ist = f s.ist := rfl
@[simp] theorem State.modIst_tap : (s.modIst f).tap = s.tap := rfl
@[simp] theorem State.modIst_w1c : (s.modIst f).w1c = s.w1c := rfl
@[simp] theorem State.modIst_freeCtr : (s.modIst f).freeCtr = s.freeCtr := rfl
@[simp] theorem State.modIst_pending : (s.modIst f).pending = s.pending := rfl
end

section
variable (f : Tap → Tap)
@[simp] theorem State.modTap_eng : (s.modTap f).eng = s.eng := rfl
@[simp] theorem State.modTap_flt : (s.modTap f).flt = s.flt := rfl
@[simp] theorem State.modTap_boot : (s.modTap f).boot = s.boot := rfl
@[simp] theorem State.modTap_host : (s.modTap f).host = s.host := rfl
@[simp] theorem State.modTap_jobs : (s.modTap f).jobs = s.jobs := rfl
@[simp] theorem State.modTap_store : (s.modTap f).store = s.store := rfl
@[simp] theorem State.modTap_dec : (s.modTap f).dec = s.dec := rfl
@[simp] theorem State.modTap_anch : (s.modTap f).anch = s.anch := rfl
@[simp] theorem State.modTap_facet : (s.modTap f).facet = s.facet := rfl
@[simp] theorem State.modTap_reg : (s.modTap f).reg = s.reg := rfl
@[simp] theorem State.modTap_run : (s.modTap f).run = s.run := rfl
@[simp] theorem State.modTap_clk : (s.modTap f).clk = s.clk := rfl
@[simp] theorem State.modTap_scan : (s.modTap f).scan = s.scan := rfl
@[simp] theorem State.modTap_expo : (s.modTap f).expo = s.expo := rfl
@[simp] theorem State.modTap_il : (s.modTap f).il = s.il := rfl
@[simp] theorem State.modTap_sp : (s.modTap f).sp = s.sp := rfl
@[simp] theorem State.modTap_spBus : (s.modTap f).spBus = s.spBus := rfl
@[simp] theorem State.modTap_law : (s.modTap f).law = s.law := rfl
@[simp] theorem State.modTap_stage : (s.modTap f).stage = s.stage := rfl
@[simp] theorem State.modTap_bus : (s.modTap f).bus = s.bus := rfl
@[simp] theorem State.modTap_rope : (s.modTap f).rope = s.rope := rfl
@[simp] theorem State.modTap_drawLim : (s.modTap f).drawLim = s.drawLim := rfl
@[simp] theorem State.modTap_ramp : (s.modTap f).ramp = s.ramp := rfl
@[simp] theorem State.modTap_vBelay : (s.modTap f).vBelay = s.vBelay := rfl
@[simp] theorem State.modTap_aux : (s.modTap f).aux = s.aux := rfl
@[simp] theorem State.modTap_therm : (s.modTap f).therm = s.therm := rfl
@[simp] theorem State.modTap_htr : (s.modTap f).htr = s.htr := rfl
@[simp] theorem State.modTap_hv : (s.modTap f).hv = s.hv := rfl
@[simp] theorem State.modTap_ring : (s.modTap f).ring = s.ring := rfl
@[simp] theorem State.modTap_pwr : (s.modTap f).pwr = s.pwr := rfl
@[simp] theorem State.modTap_otp : (s.modTap f).otp = s.otp := rfl
@[simp] theorem State.modTap_cons : (s.modTap f).cons = s.cons := rfl
@[simp] theorem State.modTap_pers : (s.modTap f).pers = s.pers := rfl
@[simp] theorem State.modTap_dma : (s.modTap f).dma = s.dma := rfl
@[simp] theorem State.modTap_ist : (s.modTap f).ist = s.ist := rfl
@[simp] theorem State.modTap_tap : (s.modTap f).tap = f s.tap := rfl
@[simp] theorem State.modTap_w1c : (s.modTap f).w1c = s.w1c := rfl
@[simp] theorem State.modTap_freeCtr : (s.modTap f).freeCtr = s.freeCtr := rfl
@[simp] theorem State.modTap_pending : (s.modTap f).pending = s.pending := rfl
end

section
variable (f : Nat → Nat)
@[simp] theorem State.modFreeCtr_eng : (s.modFreeCtr f).eng = s.eng := rfl
@[simp] theorem State.modFreeCtr_flt : (s.modFreeCtr f).flt = s.flt := rfl
@[simp] theorem State.modFreeCtr_boot : (s.modFreeCtr f).boot = s.boot := rfl
@[simp] theorem State.modFreeCtr_host : (s.modFreeCtr f).host = s.host := rfl
@[simp] theorem State.modFreeCtr_jobs : (s.modFreeCtr f).jobs = s.jobs := rfl
@[simp] theorem State.modFreeCtr_store : (s.modFreeCtr f).store = s.store := rfl
@[simp] theorem State.modFreeCtr_dec : (s.modFreeCtr f).dec = s.dec := rfl
@[simp] theorem State.modFreeCtr_anch : (s.modFreeCtr f).anch = s.anch := rfl
@[simp] theorem State.modFreeCtr_facet : (s.modFreeCtr f).facet = s.facet := rfl
@[simp] theorem State.modFreeCtr_reg : (s.modFreeCtr f).reg = s.reg := rfl
@[simp] theorem State.modFreeCtr_run : (s.modFreeCtr f).run = s.run := rfl
@[simp] theorem State.modFreeCtr_clk : (s.modFreeCtr f).clk = s.clk := rfl
@[simp] theorem State.modFreeCtr_scan : (s.modFreeCtr f).scan = s.scan := rfl
@[simp] theorem State.modFreeCtr_expo : (s.modFreeCtr f).expo = s.expo := rfl
@[simp] theorem State.modFreeCtr_il : (s.modFreeCtr f).il = s.il := rfl
@[simp] theorem State.modFreeCtr_sp : (s.modFreeCtr f).sp = s.sp := rfl
@[simp] theorem State.modFreeCtr_spBus : (s.modFreeCtr f).spBus = s.spBus := rfl
@[simp] theorem State.modFreeCtr_law : (s.modFreeCtr f).law = s.law := rfl
@[simp] theorem State.modFreeCtr_stage : (s.modFreeCtr f).stage = s.stage := rfl
@[simp] theorem State.modFreeCtr_bus : (s.modFreeCtr f).bus = s.bus := rfl
@[simp] theorem State.modFreeCtr_rope : (s.modFreeCtr f).rope = s.rope := rfl
@[simp] theorem State.modFreeCtr_drawLim : (s.modFreeCtr f).drawLim = s.drawLim := rfl
@[simp] theorem State.modFreeCtr_ramp : (s.modFreeCtr f).ramp = s.ramp := rfl
@[simp] theorem State.modFreeCtr_vBelay : (s.modFreeCtr f).vBelay = s.vBelay := rfl
@[simp] theorem State.modFreeCtr_aux : (s.modFreeCtr f).aux = s.aux := rfl
@[simp] theorem State.modFreeCtr_therm : (s.modFreeCtr f).therm = s.therm := rfl
@[simp] theorem State.modFreeCtr_htr : (s.modFreeCtr f).htr = s.htr := rfl
@[simp] theorem State.modFreeCtr_hv : (s.modFreeCtr f).hv = s.hv := rfl
@[simp] theorem State.modFreeCtr_ring : (s.modFreeCtr f).ring = s.ring := rfl
@[simp] theorem State.modFreeCtr_pwr : (s.modFreeCtr f).pwr = s.pwr := rfl
@[simp] theorem State.modFreeCtr_otp : (s.modFreeCtr f).otp = s.otp := rfl
@[simp] theorem State.modFreeCtr_cons : (s.modFreeCtr f).cons = s.cons := rfl
@[simp] theorem State.modFreeCtr_pers : (s.modFreeCtr f).pers = s.pers := rfl
@[simp] theorem State.modFreeCtr_dma : (s.modFreeCtr f).dma = s.dma := rfl
@[simp] theorem State.modFreeCtr_ist : (s.modFreeCtr f).ist = s.ist := rfl
@[simp] theorem State.modFreeCtr_tap : (s.modFreeCtr f).tap = s.tap := rfl
@[simp] theorem State.modFreeCtr_w1c : (s.modFreeCtr f).w1c = s.w1c := rfl
@[simp] theorem State.modFreeCtr_freeCtr : (s.modFreeCtr f).freeCtr = f s.freeCtr := rfl
@[simp] theorem State.modFreeCtr_pending : (s.modFreeCtr f).pending = s.pending := rfl
end

end Sys2Proof.Machine
end

