-- ==== Sys2Proof/Laws/Keep.lean ====
section
/-! SUPPORT. The part of the state that most commands leave alone, and that the updates of the other units keep it. -/

namespace Sys2Proof.Machine

/-- Units that few commands change, the tables among them, and the queue. -/
inductive Part where
  | anch | bus | clk | cons | dma | drawLim | facet | ist | otp | reg | rope | spBus | store | therm | pending
  | mem | array | shadow | ram | words
  deriving DecidableEq, Repr

/-- Those units of a state that `m` does not take out, with the data of the raster store, the OTP array and its lock
fuses, the OTP shadow, the DMA program RAM and the law engine's data RAM as parts of their own. -/
structure Kept where
  anch : Option Anchor
  bus : Option (Vector DcBus 4)
  clk : Option Clock
  cons : Option Cons
  dma : Option Dma
  drawLim : Option Bool
  facet : Option Facet
  ist : Option Ist
  otp : Option Otp
  reg : Option (Vector RegStation 8)
  rope : Option (Vector Rope 32)
  spBus : Option SpBus
  store : Option Store
  therm : Option Therm
  pending : Option (List Instr)
  mem : Option (List Host.Cell)
  array : Option (List (Nat × OtpCell) × Vector OtpCell 16 × Vector OtpCell 16)
  shadow : Option (List (Nat × Word))
  ram : Option (List (Nat × Nat))
  words : Option (List (Nat × DWord))

/-- `x`, or nothing where it is taken out. -/
def out {α : Type} (b : Bool) (x : α) : Option α := if b then none else some x

/-- The parts of a state that `m` does not take out. -/
def State.keep (m : Part → Bool) (s : State) : Kept :=
  { anch := out (m .anch) s.anch, bus := out (m .bus) s.bus, clk := out (m .clk) s.clk, cons := out (m .cons) s.cons,
    dma := out (m .dma) s.dma, drawLim := out (m .drawLim) s.drawLim, facet := out (m .facet) s.facet,
    ist := out (m .ist) s.ist, otp := out (m .otp) s.otp, reg := out (m .reg) s.reg, rope := out (m .rope) s.rope,
    spBus := out (m .spBus) s.spBus, store := out (m .store) s.store, therm := out (m .therm) s.therm,
    pending := out (m .pending) s.pending, mem := out (m .mem) s.store.mem
    array := out (m .array) (s.otp.cells, s.otp.wFuse, s.otp.rFuse), shadow := out (m .shadow) s.otp.shadow
    ram := out (m .ram) s.dma.ram, words := out (m .words) s.law.data }

variable {m : Part → Bool}

theorem keep_ite (c : Prop) [Decidable c] (a b : State) :
    State.keep m (if c then a else b) = if c then State.keep m a else State.keep m b := apply_ite _ _ _ _

theorem keep_modEng (s : State) (f : Engine → Engine) : State.keep m (s.modEng f) = State.keep m s := rfl
theorem keep_modFlt (s : State) (f : Faults → Faults) : State.keep m (s.modFlt f) = State.keep m s := rfl
theorem keep_modBoot (s : State) (f : Boot → Boot) : State.keep m (s.modBoot f) = State.keep m s := rfl
theorem keep_modHost (s : State) (f : HostIf → HostIf) : State.keep m (s.modHost f) = State.keep m s := rfl
theorem keep_modJobs (s : State) (f : Jobs → Jobs) : State.keep m (s.modJobs f) = State.keep m s := rfl
theorem keep_modStore (s : State) (f : Store → Store) (h : m .store = true) (hf : m .mem = true ∨ ∀ t, (f t).mem = t.mem) :
    State.keep m (s.modStore f) = State.keep m s := by
  obtain hf | hf := hf <;> simp [State.keep, out, h, hf]
theorem keep_modDec (s : State) (f : Vector Decoder 8 → Vector Decoder 8) : State.keep m (s.modDec f) = State.keep m s := rfl
theorem keep_modAnch (s : State) (f : Anchor → Anchor) (h : m .anch = true) : State.keep m (s.modAnch f) = State.keep m s := by
  simp [State.keep, out, h]
theorem keep_modFacet (s : State) (f : Facet → Facet) (h : m .facet = true) : State.keep m (s.modFacet f) = State.keep m s := by
  simp [State.keep, out, h]
theorem keep_modReg (s : State) (f : Vector RegStation 8 → Vector RegStation 8) (h : m .reg = true) : State.keep m (s.modReg f) = State.keep m s := by
  simp [State.keep, out, h]
theorem keep_modRun (s : State) (f : Run → Run) : State.keep m (s.modRun f) = State.keep m s := rfl
theorem keep_modClk (s : State) (f : Clock → Clock) (h : m .clk = true) : State.keep m (s.modClk f) = State.keep m s := by
  simp [State.keep, out, h]
theorem keep_modScan (s : State) (f : Vector Scan 8 → Vector Scan 8) : State.keep m (s.modScan f) = State.keep m s := rfl
theorem keep_modExpo (s : State) (f : Vector Expo 8 → Vector Expo 8) : State.keep m (s.modExpo f) = State.keep m s := rfl
theorem keep_modIl (s : State) (f : Interlocks → Interlocks) : State.keep m (s.modIl f) = State.keep m s := rfl
theorem keep_modSp (s : State) (f : Vector Spindle 8 → Vector Spindle 8) : State.keep m (s.modSp f) = State.keep m s := rfl
theorem keep_modSpBus (s : State) (f : SpBus → SpBus) (h : m .spBus = true) : State.keep m (s.modSpBus f) = State.keep m s := by
  simp [State.keep, out, h]
theorem keep_modLaw (s : State) (f : Law → Law) (hf : m .words = true ∨ ∀ t, (f t).data = t.data) :
    State.keep m (s.modLaw f) = State.keep m s := by
  obtain hf | hf := hf <;> simp [State.keep, out, hf]
theorem keep_modStage (s : State) (f : Vector StageLink 8 → Vector StageLink 8) : State.keep m (s.modStage f) = State.keep m s := rfl
theorem keep_modBus (s : State) (f : Vector DcBus 4 → Vector DcBus 4) (h : m .bus = true) : State.keep m (s.modBus f) = State.keep m s := by
  simp [State.keep, out, h]
theorem keep_modRope (s : State) (f : Vector Rope 32 → Vector Rope 32) (h : m .rope = true) : State.keep m (s.modRope f) = State.keep m s := by
  simp [State.keep, out, h]
theorem keep_modDrawLim (s : State) (f : Bool → Bool) (h : m .drawLim = true) : State.keep m (s.modDrawLim f) = State.keep m s := by
  simp [State.keep, out, h]
theorem keep_modRamp (s : State) (f : RampUnit → RampUnit) : State.keep m (s.modRamp f) = State.keep m s := rfl
theorem keep_modVBelay (s : State) (f : F32 → F32) : State.keep m (s.modVBelay f) = State.keep m s := rfl
theorem keep_modAux (s : State) (f : Vector Aux 16 → Vector Aux 16) : State.keep m (s.modAux f) = State.keep m s := rfl
theorem keep_modTherm (s : State) (f : Therm → Therm) (h : m .therm = true) : State.keep m (s.modTherm f) = State.keep m s := by
  simp [State.keep, out, h]
theorem keep_modHtr (s : State) (f : Heaters → Heaters) : State.keep m (s.modHtr f) = State.keep m s := rfl
theorem keep_modHv (s : State) (f : Hv → Hv) : State.keep m (s.modHv f) = State.keep m s := rfl
theorem keep_modRing (s : State) (f : Ring → Ring) : State.keep m (s.modRing f) = State.keep m s := rfl
theorem keep_modPwr (s : State) (f : Power → Power) : State.keep m (s.modPwr f) = State.keep m s := rfl
theorem keep_modOtp (s : State) (f : Otp → Otp) (h : m .otp = true)
    (ha : m .array = true ∨ ∀ t, (f t).cells = t.cells ∧ (f t).wFuse = t.wFuse ∧ (f t).rFuse = t.rFuse)
    (hs : m .shadow = true ∨ ∀ t, (f t).shadow = t.shadow) : State.keep m (s.modOtp f) = State.keep m s := by
  obtain ha | ha := ha <;> obtain hs | hs := hs <;> simp [State.keep, out, h, ha, hs]
theorem keep_modCons (s : State) (f : Cons → Cons) (h : m .cons = true) : State.keep m (s.modCons f) = State.keep m s := by
  simp [State.keep, out, h]
theorem keep_modPers (s : State) (f : Persist → Persist) : State.keep m (s.modPers f) = State.keep m s := rfl
theorem keep_modDma (s : State) (f : Dma → Dma) (h : m .dma = true) (hf : m .ram = true ∨ ∀ t, (f t).ram = t.ram) :
    State.keep m (s.modDma f) = State.keep m s := by
  obtain hf | hf := hf <;> simp [State.keep, out, h, hf]
theorem keep_modIst (s : State) (f : Ist → Ist) (h : m .ist = true) : State.keep m (s.modIst f) = State.keep m s := by
  simp [State.keep, out, h]
theorem keep_modW1c (s : State) (f : W1cSet → W1cSet) : State.keep m (s.modW1c f) = State.keep m s := rfl
theorem keep_modTap (s : State) (f : Tap → Tap) : State.keep m (s.modTap f) = State.keep m s := rfl
theorem keep_modFreeCtr (s : State) (f : Nat → Nat) : State.keep m (s.modFreeCtr f) = State.keep m s := rfl
theorem keep_atDec (s : State) (i : Nat) (f : Decoder → Decoder) : State.keep m (s.atDec i f) = State.keep m s := rfl
theorem keep_atReg (s : State) (i : Nat) (f : RegStation → RegStation) (h : m .reg = true) : State.keep m (s.atReg i f) = State.keep m s := by
  simp [State.atReg, State.keep, out, h]
theorem keep_atScan (s : State) (i : Nat) (f : Scan → Scan) : State.keep m (s.atScan i f) = State.keep m s := rfl
theorem keep_atExpo (s : State) (i : Nat) (f : Expo → Expo) : State.keep m (s.atExpo i f) = State.keep m s := rfl
theorem keep_atSp (s : State) (i : Nat) (f : Spindle → Spindle) : State.keep m (s.atSp i f) = State.keep m s := rfl
theorem keep_atStage (s : State) (i : Nat) (f : StageLink → StageLink) : State.keep m (s.atStage i f) = State.keep m s := rfl
theorem keep_atBus (s : State) (i : Nat) (f : DcBus → DcBus) (h : m .bus = true) : State.keep m (s.atBus i f) = State.keep m s := by
  simp [State.atBus, State.keep, out, h]
theorem keep_atRope (s : State) (i : Nat) (f : Rope → Rope) (h : m .rope = true) : State.keep m (s.atRope i f) = State.keep m s := by
  simp [State.atRope, State.keep, out, h]
theorem keep_atAux (s : State) (i : Nat) (f : Aux → Aux) : State.keep m (s.atAux i f) = State.keep m s := rfl

/-- A fold of operations that keep the part keeps it. -/
theorem keep_foldl {α : Type} (g : State → α → State) (h : ∀ s a, State.keep m (g s a) = State.keep m s) (l : List α) (s : State) :
    State.keep m (l.foldl g s) = State.keep m s := by
  induction l generalizing s with
  | nil => rfl
  | cons a l ih => simp [List.foldl, ih, h]

/-- The part that an outcome leaves, where there is a next state. -/
def keepOut (m : Part → Bool) (o : Host.Outcome State Fault Refusal) : Option Kept :=
  match o with
  | .next t => some (t.keep m)
  | _ => none

theorem keepOut_next (s : State) : keepOut m (.next s) = some (s.keep m) := rfl

theorem keepOut_ite (c : Prop) [Decidable c] (a b : Host.Outcome State Fault Refusal) :
    keepOut m (if c then a else b) = if c then keepOut m a else keepOut m b := apply_ite _ _ _ _

end Sys2Proof.Machine
end

