-- ==== Sys2Proof/Laws/Sparse.lean ====
section
/-! SUPPORT. Sparse tables: a write keeps the canonical form, a read after a write at the same key gives what was
written, and a write leaves every other key alone. -/

namespace Sys2Proof.Machine

variable {α : Type} [DecidableEq α] {d : α}

/-- Every key of a list lies above `k`. -/
def above (k : Nat) (l : List (Nat × α)) : Prop := ∀ p ∈ l, k < p.1

omit [DecidableEq α] in
@[simp] theorem above_nil (k : Nat) : above k ([] : List (Nat × α)) := fun _ h => absurd h (List.not_mem_nil)

omit [DecidableEq α] in
@[simp] theorem above_cons (k : Nat) (p : Nat × α) (l : List (Nat × α)) : above k (p :: l) ↔ k < p.1 ∧ above k l := by
  simp [above]

omit [DecidableEq α] in
theorem above_mono {j k : Nat} {l : List (Nat × α)} (h : j ≤ k) (hk : above k l) : above j l :=
  fun p hp => Nat.lt_of_le_of_lt h (hk p hp)

/-- The canonical form by head and tail. -/
theorem swf_cons (k : Nat) (v : α) (l : List (Nat × α)) : swf d ((k, v) :: l) = true ↔ v ≠ d ∧ above k l ∧ swf d l = true := by
  induction l generalizing k v with
  | nil => simp [swf]
  | cons p l ih =>
    obtain ⟨k', v'⟩ := p
    constructor
    · intro h
      simp only [swf, Bool.and_eq_true, bne_iff_ne, decide_eq_true_eq] at h
      obtain ⟨⟨h1, h2⟩, h3⟩ := h
      obtain ⟨-, h5, -⟩ := (ih k' v').mp h3
      exact ⟨h1, (above_cons _ _ _).mpr ⟨h2, above_mono (Nat.le_of_lt h2) h5⟩, h3⟩
    · rintro ⟨h1, h2, h3⟩
      simp only [swf, Bool.and_eq_true, bne_iff_ne, decide_eq_true_eq]
      exact ⟨⟨h1, ((above_cons _ _ _).mp h2).1⟩, h3⟩

omit [DecidableEq α] in
theorem above_sdel {j : Nat} {l : List (Nat × α)} (i : Nat) (h : above j l) : above j (sdel l i) := by
  induction l with
  | nil => simp [sdel]
  | cons p l ih =>
    rw [above_cons] at h
    simp only [sdel]
    split
    · exact h.2
    · split
      · exact (above_cons _ _ _).mpr h
      · exact (above_cons _ _ _).mpr ⟨h.1, ih h.2⟩

omit [DecidableEq α] in
theorem above_sins {j i : Nat} {l : List (Nat × α)} (a : α) (hi : j < i) (h : above j l) : above j (sins l i a) := by
  induction l with
  | nil => simp [sins, hi]
  | cons p l ih =>
    rw [above_cons] at h
    simp only [sins]
    split
    · exact (above_cons _ _ _).mpr ⟨hi, h.2⟩
    · split
      · exact (above_cons _ _ _).mpr ⟨hi, (above_cons _ _ _).mpr h⟩
      · exact (above_cons _ _ _).mpr ⟨h.1, ih h.2⟩

theorem swf_sdel (l : List (Nat × α)) (i : Nat) (h : swf d l = true) : swf d (sdel l i) = true := by
  induction l with
  | nil => simpa [sdel] using h
  | cons p l ih =>
    obtain ⟨k, v⟩ := p
    have h' := (swf_cons k v l).mp h
    simp only [sdel]
    split
    · exact h'.2.2
    · split
      · exact h
      · exact (swf_cons _ _ _).mpr ⟨h'.1, above_sdel i h'.2.1, ih h'.2.2⟩

theorem swf_sins (l : List (Nat × α)) (i : Nat) (a : α) (ha : a ≠ d) (h : swf d l = true) : swf d (sins l i a) = true := by
  induction l with
  | nil => simp [sins, swf, ha]
  | cons p l ih =>
    obtain ⟨k, v⟩ := p
    obtain ⟨h1, h2, h3⟩ := (swf_cons k v l).mp h
    simp only [sins]
    split
    · next hk => exact (swf_cons _ _ _).mpr ⟨ha, hk ▸ h2, h3⟩
    · split
      · next hl => exact (swf_cons _ _ _).mpr ⟨ha, (above_cons _ _ _).mpr ⟨hl, above_mono (Nat.le_of_lt hl) h2⟩, h⟩
      · next hn hl => exact (swf_cons _ _ _).mpr ⟨h1, above_sins a (by omega) h2, ih h3⟩

/-- A write keeps the canonical form. -/
theorem swf_sput (l : List (Nat × α)) (i : Nat) (a : α) (h : swf d l = true) : swf d (sput d l i a) = true := by
  unfold sput
  split
  · exact swf_sdel l i h
  · next ha => exact swf_sins l i a ha h

omit [DecidableEq α] in
theorem sget_above {j : Nat} {l : List (Nat × α)} (h : above j l) {i : Nat} (hi : i ≤ j) : sget d l i = d := by
  induction l with
  | nil => rfl
  | cons p l ih =>
    rw [above_cons] at h
    simp only [sget]
    split
    · omega
    · exact ih h.2

omit [DecidableEq α] in
theorem sget_sins (l : List (Nat × α)) (i j : Nat) (a : α) : sget d (sins l i a) j = if i = j then a else sget d l j := by
  induction l with
  | nil => rfl
  | cons p l ih =>
    obtain ⟨k, v⟩ := p
    simp only [sins]
    split
    · subst k
      simp only [sget]
      split <;> rfl
    · split
      · rfl
      · simp only [sget, ih]
        split
        · split
          · omega
          · rfl
        · rfl

theorem sget_sdel (l : List (Nat × α)) (i j : Nat) (h : swf d l = true) : sget d (sdel l i) j = if i = j then d else sget d l j := by
  induction l with
  | nil => simp [sdel, sget]
  | cons p l ih =>
    obtain ⟨k, v⟩ := p
    obtain ⟨h1, h2, h3⟩ := (swf_cons k v l).mp h
    simp only [sdel]
    split
    · next hk =>
      subst k
      simp only [sget]
      split
      · next hj => subst hj; exact sget_above h2 (Nat.le_refl _)
      · rfl
    · split
      · next hk hl =>
        split
        · next hj =>
          subst hj
          simp only [sget, if_neg hk]
          exact sget_above h2 (Nat.le_of_lt hl)
        · rfl
      · simp only [sget, ih h3]
        split
        · split
          · omega
          · rfl
        · rfl

/-- A read after a write. -/
theorem sget_sput (l : List (Nat × α)) (i j : Nat) (a : α) (h : swf d l = true) :
    sget d (sput d l i a) j = if i = j then a else sget d l j := by
  unfold sput
  split
  · next ha => subst ha; exact sget_sdel l i j h
  · exact sget_sins l i j a

/-- One byte of the store. -/
theorem memPut_wf (m : List Host.Cell) (a : Nat) (b : Byte) (h : Memory.wf m = true) : Memory.wf (memPut m a b) = true :=
  swf_sput m a b h

theorem memGet_memPut (m : List Host.Cell) (a x : Nat) (b : Byte) (h : Memory.wf m = true) :
    memGet (memPut m a b) x = if a = x then b else memGet m x := sget_sput m a x b h

/-- A write of bytes keeps the canonical form. -/
theorem memWrite_wf (m : List Host.Cell) (a : Nat) (bs : List Byte) (h : Memory.wf m = true) : Memory.wf (memWrite m a bs) = true := by
  induction bs generalizing m a with
  | nil => exact h
  | cons b r ih => exact ih _ _ (memPut_wf m a b h)

/-- A read after a write of bytes: the bytes written, and every other address as before. -/
theorem memGet_memWrite (m : List Host.Cell) (a x : Nat) (bs : List Byte) (h : Memory.wf m = true) :
    memGet (memWrite m a bs) x = if a ≤ x ∧ x < a + bs.length then bs.getD (x - a) 0 else memGet m x := by
  induction bs generalizing m a with
  | nil => simp [memWrite] <;> omega
  | cons b r ih =>
    simp only [memWrite, ih _ _ (memPut_wf m a b h), memGet_memPut m a x b h, List.length_cons]
    by_cases h1 : a = x
    · subst h1
      rw [if_neg (by omega)]
      simp
    · by_cases h2 : a + 1 ≤ x ∧ x < a + 1 + r.length
      · rw [if_pos h2, if_pos (by omega), show x - a = (x - (a + 1)) + 1 by omega]
        simp
      · rw [if_neg h2, if_neg h1, if_neg (by omega)]

end Sys2Proof.Machine
end

