-- ==== Sys2Proof/Laws/Canon.lean ====
section
/-! SUPPORT. The canonical form of the state's tables, as a fact about the parts that operations keep. -/

namespace Sys2Proof.Machine

/-- Every part is looked at through its tables alone. -/
def tables : Part → Bool
  | .mem | .array | .shadow | .ram | .words => false
  | _ => true

theorem tables_anch : tables .anch = true := by decide
theorem tables_bus : tables .bus = true := by decide
theorem tables_clk : tables .clk = true := by decide
theorem tables_cons : tables .cons = true := by decide
theorem tables_dma : tables .dma = true := by decide
theorem tables_drawLim : tables .drawLim = true := by decide
theorem tables_facet : tables .facet = true := by decide
theorem tables_ist : tables .ist = true := by decide
theorem tables_otp : tables .otp = true := by decide
theorem tables_reg : tables .reg = true := by decide
theorem tables_rope : tables .rope = true := by decide
theorem tables_spBus : tables .spBus = true := by decide
theorem tables_store : tables .store = true := by decide
theorem tables_therm : tables .therm = true := by decide

/-- The tables that are left are canonical. -/
def Kept.Canon (k : Kept) : Prop :=
  (∀ x ∈ k.mem, Memory.wf x = true) ∧ (∀ x ∈ k.array, swf OtpCell.blank x.1 = true) ∧ (∀ x ∈ k.shadow, swf 0 x = true) ∧
  (∀ x ∈ k.ram, swf 0 x = true) ∧ (∀ x ∈ k.words, swf DWord.zero x = true)

theorem canon_iff (s : State) : (s.keep tables).Canon ↔ s.canonical := by
  simp [Kept.Canon, State.keep, out, tables, State.canonical]

/-- A fold of operations that keep the form keeps it. -/
theorem canon_foldl {α : Type} (g : State → α → State) (h : ∀ s a, (s.keep tables).Canon → ((g s a).keep tables).Canon)
    (l : List α) (s : State) (hs : (s.keep tables).Canon) : ((l.foldl g s).keep tables).Canon := by
  induction l generalizing s with
  | nil => exact hs
  | cons a l ih => exact ih _ (h s a hs)

theorem canon_modStore (s : State) (f : Store → Store) (hf : ∀ t, Memory.wf t.mem = true → Memory.wf (f t).mem = true)
    (hs : (s.keep tables).Canon) : ((s.modStore f).keep tables).Canon := by
  rw [canon_iff] at *
  exact ⟨hf _ hs.1, hs.2⟩

theorem canon_modLaw (s : State) (f : Law → Law) (hf : ∀ t, swf DWord.zero t.data = true → swf DWord.zero (f t).data = true)
    (hs : (s.keep tables).Canon) : ((s.modLaw f).keep tables).Canon := by
  rw [canon_iff] at *
  exact ⟨hs.1, hs.2.1, hs.2.2.1, hs.2.2.2.1, hf _ hs.2.2.2.2⟩

theorem canon_modDma (s : State) (f : Dma → Dma) (hf : ∀ t, swf 0 t.ram = true → swf 0 (f t).ram = true)
    (hs : (s.keep tables).Canon) : ((s.modDma f).keep tables).Canon := by
  rw [canon_iff] at *
  exact ⟨hs.1, hs.2.1, hs.2.2.1, hf _ hs.2.2.2.1, hs.2.2.2.2⟩

theorem canon_modOtp (s : State) (f : Otp → Otp)
    (hf : ∀ t, swf OtpCell.blank t.cells = true → swf OtpCell.blank (f t).cells = true)
    (hg : ∀ t, swf OtpCell.blank t.cells = true → swf 0 t.shadow = true → swf 0 (f t).shadow = true)
    (hs : (s.keep tables).Canon) : ((s.modOtp f).keep tables).Canon := by
  rw [canon_iff] at *
  exact ⟨hs.1, hf _ hs.2.1, hg _ hs.2.1 hs.2.2.1, hs.2.2.2⟩

end Sys2Proof.Machine
end

