-- ==== Sys2Proof/Laws/Keep1.lean ====
section
/-! SUPPORT. The parts of the state (Laws/Keep.lean) that each operation and each command leaves alone: the modules
Cfg, Link, JobOps, Outputs, Meter, Cairn, Engine, Faults, LawData, LawOps, Spoil, PowerOps, Power, BootOps. A hypothesis names a part that the operation may change. -/

namespace Sys2Proof.Machine

set_option linter.unusedSimpArgs false
set_option maxRecDepth 4000

variable {m : Part → Bool}

theorem keep_setsBit (s : State) : ∀ a1 a2, (setsBit a1 a2 s).keep m = s.keep m := by
  intro a1 a2
  simp only [setsBit, keep_modW1c]

theorem keep_State_useFree (s : State) : (State.useFree s).keep m = s.keep m := by
  simp only [State.useFree, keep_modFreeCtr]

theorem keep_sendMsix (s : State) : ∀ a1, (sendMsix a1 s).keep m = s.keep m := by
  intro a1
  simp only [sendMsix, keep_modHost]

theorem keep_hostWrite (s : State) : ∀ a1 a2, (hostWrite a1 a2 s).keep m = s.keep m := by
  intro a1 a2
  simp only [hostWrite, keep_modHost]

theorem keep_putCompletion (s : State) : ∀ a1 a2, (putCompletion a1 a2 s).keep m = s.keep m := by
  intro a1 a2
  simp only [putCompletion, keep_ite, ite_self, keep_sendMsix, keep_hostWrite, keep_modHost]

theorem keep_postEvent (s : State) : ∀ a1 a2, (postEvent a1 a2 s).keep m = s.keep m := by
  intro a1 a2
  simp only [postEvent, keep_ite, ite_self, keep_putCompletion, keep_modHost]

theorem keep_engineInterrupt (s : State) : ∀ a1, (engineInterrupt a1 s).keep m = s.keep m := by
  intro a1
  simp only [engineInterrupt, keep_ite, ite_self, keep_sendMsix, keep_modEng]

theorem keep_setStateChg (s : State) : (setStateChg s).keep m = s.keep m := by
  simp only [setStateChg, keep_ite, ite_self, keep_engineInterrupt, keep_setsBit, keep_modEng]

theorem keep_queueCompletion (s : State) : ∀ a1 a2, (queueCompletion a1 a2 s).keep m = s.keep m := by
  intro a1 a2
  simp only [queueCompletion, keep_ite, ite_self, keep_putCompletion, keep_modHost]

theorem keep_completeWith (s : State) : ∀ a1 a2 a3 a4 a5, (completeWith a1 a2 a3 a4 a5 s).keep m = s.keep m := by
  intro a1 a2 a3 a4 a5
  simp only [completeWith, keep_ite, ite_self, keep_queueCompletion, keep_modHost]

theorem keep_complete (s : State) : ∀ a1 a2 a3, (complete a1 a2 a3 s).keep m = s.keep m := by
  intro a1 a2 a3
  simp only [complete, keep_completeWith]

theorem keep_setStopDone (s : State) : (setStopDone s).keep m = s.keep m := by
  simp only [setStopDone, keep_ite, ite_self, keep_engineInterrupt, keep_setsBit, keep_modEng]

theorem keep_setArmTmo (s : State) : (setArmTmo s).keep m = s.keep m := by
  simp only [setArmTmo, keep_ite, ite_self, keep_engineInterrupt, keep_setsBit, keep_modEng]

theorem keep_writeLost (s : State) : (writeLost s).keep m = s.keep m := by
  simp only [writeLost, keep_ite, ite_self, keep_putCompletion, keep_modHost]

theorem keep_State_modFrame (s : State) : ∀ a2 a3, (State.modFrame s a2 a3).keep m = s.keep m := by
  intro a2 a3
  simp only [State.modFrame, keep_modJobs]

theorem keep_State_modJob (s : State) : ∀ a2 a3, (State.modJob s a2 a3).keep m = s.keep m := by
  intro a2 a3
  simp only [State.modJob, keep_modJobs]

theorem keep_releaseEntries (s : State) : (releaseEntries s).keep m = s.keep m := by
  simp only [releaseEntries, keep_modJobs]

theorem keep_noteQuota (s : State) : ∀ a1, (noteQuota a1 s).keep m = s.keep m := by
  intro a1
  unfold noteQuota
  repeat' first
    | with_reducible rfl
    | (simp only [keep_ite, ite_self, implies_true, true_or, or_true, and_self, keep_postEvent, keep_State_modJob]; done)
    | split
    | simp only [keep_ite, ite_self, implies_true, true_or, or_true, and_self, keep_postEvent, keep_State_modJob]

theorem keep_releasePages (s : State) : ∀ a1, (releasePages a1 s).keep m = s.keep m := by
  intro a1
  simp only [releasePages, keep_noteQuota, keep_State_modJob]

theorem keep_releaseData (s : State) : ∀ a1, (releaseData a1 s).keep m = s.keep m := by
  intro a1
  simp only [releaseData, keep_releasePages, keep_modJobs]

theorem keep_spoilFacet (s : State) : ∀ a1 a2 a3, (spoilFacet a1 a2 a3 s).keep m = s.keep m := by
  intro a1 a2 a3
  simp only [spoilFacet, keep_modJobs]

theorem keep_spoilStarted (s : State) : ∀ a1, (spoilStarted a1 s).keep m = s.keep m := by
  intro a1
  simp only [spoilStarted, keep_modJobs]

theorem keep_countLife (s : State) : ∀ a1 a2, (countLife a1 a2 s).keep m = s.keep m := by
  intro a1 a2
  simp only [countLife, keep_modPers]

theorem keep_endRepetition (s : State) : ∀ a1, (endRepetition a1 s).keep m = s.keep m := by
  intro a1
  simp only [endRepetition, keep_ite, ite_self, keep_releaseEntries, keep_countLife, keep_State_modFrame, keep_postEvent, keep_releaseData, keep_modJobs]

theorem keep_endCut (s : State) : (endCut s).keep m = s.keep m := by
  simp only [endCut, implies_true, keep_foldl, keep_endRepetition]

theorem keep_endPassed (s : State) : (endPassed s).keep m = s.keep m := by
  simp only [endPassed, implies_true, keep_foldl, keep_endRepetition]

theorem keep_updateInh (s : State) : (updateInh s).keep m = s.keep m := by
  simp only [updateInh, keep_modStage]

theorem keep_returnPins (s : State) : (returnPins s).keep m = s.keep m := by
  simp only [returnPins, keep_modTap]

theorem keep_assertInh (s : State) : (assertInh s).keep m = s.keep m := by
  simp only [assertInh, keep_modStage]

theorem keep_each8 (a1 : Nat → State → State) (hf : ∀ n s, State.keep m (a1 n s) = State.keep m s) (s : State) : (each8 a1 s).keep m = s.keep m := by
  simp only [each8, implies_true, keep_foldl, hf]

theorem keep_holdBlank (s : State) : ∀ a1 a2 a3 a4, (holdBlank a1 a2 a3 a4 s).keep m = s.keep m := by
  intro a1 a2 a3 a4
  simp only [holdBlank, keep_atExpo]

theorem keep_darkNow (s : State) : ∀ a1 a2 a3 a4, (darkNow a1 a2 a3 a4 s).keep m = s.keep m := by
  intro a1 a2 a3 a4
  simp only [darkNow, keep_holdBlank, keep_atExpo]

theorem keep_blankNow (s : State) : ∀ a1 a2 a3 a4, (blankNow a1 a2 a3 a4 s).keep m = s.keep m := by
  intro a1 a2 a3 a4
  simp only [blankNow, keep_darkNow, keep_spoilFacet]

theorem keep_leaveLock (s : State) : ∀ a1 a2, (leaveLock a1 a2 s).keep m = s.keep m := by
  intro a1 a2
  simp only [leaveLock, keep_ite, ite_self, keep_blankNow, keep_atSp, keep_atScan]

theorem keep_dropChannel (s : State) : ∀ a1 a2 a3, (dropChannel a1 a2 a3 s).keep m = s.keep m := by
  intro a1 a2 a3
  simp only [dropChannel, keep_leaveLock, keep_atSp]

theorem keep_inhibitChannel (s : State) : ∀ a1 a2, (inhibitChannel a1 a2 s).keep m = s.keep m := by
  intro a1 a2
  simp only [inhibitChannel, keep_ite, ite_self, keep_dropChannel, keep_atSp]

theorem keep_allGatesLow (s : State) : ∀ a1, (allGatesLow a1 s).keep m = s.keep m := by
  intro a1
  simp only [allGatesLow, implies_true, keep_each8, keep_inhibitChannel]

theorem keep_coastHard (s : State) : ∀ a1, (coastHard a1 s).keep m = s.keep m := by
  intro a1
  simp only [coastHard, keep_assertInh, keep_allGatesLow]

theorem keep_laserLow (s : State) : ∀ a1 a2 a3 a4, (laserLow a1 a2 a3 a4 s).keep m = s.keep m := by
  intro a1 a2 a3 a4
  simp only [laserLow, keep_blankNow, keep_modIl]

theorem keep_allLasersLow (s : State) : ∀ a1, (allLasersLow a1 s).keep m = s.keep m := by
  intro a1
  simp only [allLasersLow, implies_true, keep_each8, keep_laserLow]

theorem keep_safeHard (s : State) : ∀ a1, (safeHard a1 s).keep m = s.keep m := by
  intro a1
  simp only [safeHard, keep_coastHard, keep_allLasersLow]

theorem keep_suspendAux (s : State) : (suspendAux s).keep m = s.keep m := by
  simp only [suspendAux, keep_modAux]

theorem keep_heaterLow (s : State) : ∀ a1, (heaterLow a1 s).keep m = s.keep m := by
  intro a1
  simp only [heaterLow, keep_modHtr]

theorem keep_allHeatersLow (s : State) : (allHeatersLow s).keep m = s.keep m := by
  simp only [allHeatersLow, implies_true, keep_foldl, keep_heaterLow]

theorem keep_clearDecoders (s : State) : (clearDecoders s).keep m = s.keep m := by
  simp only [clearDecoders, keep_modDec]

theorem keep_hvOff (s : State) : (hvOff s).keep m = s.keep m := by
  simp only [hvOff, keep_modHv]

theorem keep_stopAux (s : State) : (stopAux s).keep m = s.keep m := by
  simp only [stopAux, keep_modAux]

theorem keep_haltChannel (s : State) : ∀ a1 a2, (haltChannel a1 a2 s).keep m = s.keep m := by
  intro a1 a2
  simp only [haltChannel, keep_dropChannel, keep_atSp]

theorem keep_unblank (s : State) : ∀ a1 a2, (unblank a1 a2 s).keep m = s.keep m := by
  intro a1 a2
  simp only [unblank, keep_atExpo]

theorem keep_inhibitEnded (was s : State) : (inhibitEnded was s).keep m = s.keep m := by
  unfold inhibitEnded
  simp only [keep_ite, keep_modSp, ite_self]

theorem keep_addUsage (hcons : m .cons = true) (s : State) : ∀ a1 a2 a3, (addUsage a1 a2 a3 s).keep m = s.keep m := by
  intro a1 a2 a3
  simp only [addUsage, keep_modCons, hcons]

theorem keep_chargeHeaters (hcons : m .cons = true) (s : State) : (chargeHeaters s).keep m = s.keep m := by
  simp only [chargeHeaters, implies_true, keep_foldl, keep_addUsage, keep_modHtr, hcons]

theorem keep_travel (hcons : m .cons = true) (s : State) : ∀ a1, (travel a1 s).keep m = s.keep m := by
  intro a1
  simp only [travel, keep_ite, ite_self, implies_true, keep_each8, keep_addUsage, keep_modPers, hcons]

theorem keep_writeCairn (s : State) : ∀ a1, (writeCairn a1 s).keep m = s.keep m := by
  intro a1
  simp only [writeCairn, keep_modPers]

theorem keep_persistLife (s : State) : (persistLife s).keep m = s.keep m := by
  simp only [persistLife, keep_modPers]

theorem keep_amendCairn (s : State) : ∀ a1 a2, (amendCairn a1 a2 s).keep m = s.keep m := by
  intro a1 a2
  simp only [amendCairn, keep_writeCairn, keep_modPers]

theorem keep_writeTail (s : State) : ∀ a1, (writeTail a1 s).keep m = s.keep m := by
  intro a1
  simp only [writeTail, keep_modPers]

theorem keep_domainsOff (s : State) : ∀ a1, (domainsOff a1 s).keep m = s.keep m := by
  intro a1
  simp only [domainsOff, keep_modPwr]

theorem keep_finishSet (s : State) : ∀ a1, (finishSet a1 s).keep m = s.keep m := by
  intro a1
  unfold finishSet
  repeat' first
    | with_reducible rfl
    | (simp only [keep_ite, ite_self, implies_true, true_or, or_true, and_self, keep_complete, keep_modEng]; done)
    | split
    | simp only [keep_ite, ite_self, implies_true, true_or, or_true, and_self, keep_complete, keep_modEng]

theorem keep_enterState (s : State) : ∀ a1 a2 a3, (enterState a1 a2 a3 s).keep m = s.keep m := by
  intro a1 a2 a3
  simp only [enterState, keep_ite, ite_self, keep_postEvent, keep_updateInh, keep_setStateChg, keep_returnPins, keep_finishSet, keep_modEng]

theorem keep_addTrigger (s : State) : ∀ a1, (addTrigger a1 s).keep m = s.keep m := by
  intro a1
  simp only [addTrigger, keep_modPwr]

theorem keep_darkenAll (s : State) : ∀ a1, (darkenAll a1 s).keep m = s.keep m := by
  intro a1
  simp only [darkenAll, keep_modExpo]

theorem keep_cutPrint (s : State) : ∀ a1, (cutPrint a1 s).keep m = s.keep m := by
  intro a1
  simp only [cutPrint, keep_spoilStarted, keep_darkenAll, keep_clearDecoders]

theorem keep_stopRampUnit (s : State) : (stopRampUnit s).keep m = s.keep m := by
  simp only [stopRampUnit, keep_modRamp]

theorem keep_safeEffects (s : State) : ∀ a1, (safeEffects a1 s).keep m = s.keep m := by
  intro a1
  simp only [safeEffects, keep_safeHard, keep_suspendAux, keep_allHeatersLow, keep_cutPrint, keep_stopRampUnit, keep_hvOff]

theorem keep_pmbSend (s : State) : ∀ a1 a2 a3, (pmbSend a1 a2 a3 s).keep m = s.keep m := by
  intro a1 a2 a3
  simp only [pmbSend, keep_ite, ite_self, keep_modPwr]

theorem keep_marginsNominal (s : State) : (marginsNominal s).keep m = s.keep m := by
  simp only [marginsNominal, implies_true, keep_foldl, keep_pmbSend, keep_modPwr]

theorem keep_outputsSafe (s : State) : ∀ a1, (outputsSafe a1 s).keep m = s.keep m := by
  intro a1
  simp only [outputsSafe, keep_safeEffects, keep_marginsNominal]

theorem keep_beginSequence (s : State) : ∀ a1, (beginSequence a1 s).keep m = s.keep m := by
  intro a1
  simp only [beginSequence, keep_modPwr]

theorem keep_shutAgain (s : State) : ∀ a1 a2 a3 a4, (shutAgain a1 a2 a3 a4 s).keep m = s.keep m := by
  intro a1 a2 a3 a4
  simp only [shutAgain, keep_amendCairn, keep_enterState, keep_modPwr]

theorem keep_shutDown (s : State) : ∀ a1 a2 a3 a4 a5, (shutDown a1 a2 a3 a4 a5 s).keep m = s.keep m := by
  intro a1 a2 a3 a4 a5
  simp only [shutDown, keep_ite, ite_self, keep_domainsOff, keep_writeCairn, keep_enterState, keep_addTrigger, keep_outputsSafe, keep_beginSequence, keep_persistLife, keep_shutAgain, keep_modFreeCtr]

theorem keep_setStop (s : State) : ∀ a1, (setStop a1 s).keep m = s.keep m := by
  intro a1
  simp only [setStop, keep_modEng]

theorem keep_runAtRest (s : State) : (runAtRest s).keep m = s.keep m := by
  simp only [runAtRest, keep_ite, ite_self, keep_postEvent, keep_endCut, keep_modRun]

theorem keep_stopReached (s : State) : (stopReached s).keep m = s.keep m := by
  simp only [stopReached, keep_ite, ite_self, keep_setStopDone, keep_modEng]

theorem keep_bootSafe (s : State) : (bootSafe s).keep m = s.keep m := by
  simp only [bootSafe, keep_ite, ite_self, keep_domainsOff, keep_marginsNominal, keep_beginSequence, keep_modPwr, keep_modEng, keep_modBoot]

theorem keep_enterSafe (s : State) : ∀ a1 a2 a3, (enterSafe a1 a2 a3 s).keep m = s.keep m := by
  intro a1 a2 a3
  simp only [enterSafe, keep_ite, ite_self, keep_safeEffects, keep_enterState, keep_runAtRest, keep_stopReached, keep_bootSafe, keep_modEng]

theorem keep_belayExit (s : State) : (belayExit s).keep m = s.keep m := by
  simp only [belayExit, keep_ite, ite_self, keep_shutDown, keep_enterState, keep_runAtRest, keep_enterSafe, keep_stopReached, keep_modEng]

theorem keep_startBelay (s : State) : ∀ a1 a2 a3 a4, (startBelay a1 a2 a3 a4 s).keep m = s.keep m := by
  intro a1 a2 a3 a4
  simp only [startBelay, keep_ite, ite_self, keep_setStop, keep_enterState, keep_runAtRest, keep_cutPrint, keep_belayExit, keep_stopAux, keep_modEng, keep_modVBelay]

theorem keep_unstartNow (s : State) : (unstartNow s).keep m = s.keep m := by
  simp only [unstartNow, implies_true, keep_foldl, keep_State_modFrame, keep_modRun, keep_modJobs]

theorem keep_haltExit (s : State) : (haltExit s).keep m = s.keep m := by
  simp only [haltExit, keep_enterState, keep_runAtRest, keep_stopReached]

theorem keep_startHalt (s : State) : ∀ a1 a2, (startHalt a1 a2 s).keep m = s.keep m := by
  intro a1 a2
  simp only [startHalt, keep_ite, ite_self, keep_setStop, keep_enterState, keep_unstartNow, keep_haltExit, keep_modRun, keep_modRing]

theorem keep_hardExit (s : State) : (hardExit s).keep m = s.keep m := by
  simp only [hardExit, keep_enterSafe]

theorem keep_startCoast (s : State) : ∀ a1 a2, (startCoast a1 a2 s).keep m = s.keep m := by
  intro a1 a2
  simp only [startCoast, keep_ite, ite_self, keep_setStop, keep_suspendAux, keep_enterState, keep_hardExit, keep_coastHard, keep_cutPrint, keep_stopRampUnit]

theorem keep_startRampUnit (s : State) : (startRampUnit s).keep m = s.keep m := by
  simp only [startRampUnit, implies_true, or_true, keep_modLaw, keep_modRamp]

theorem keep_startRamp (s : State) : ∀ a1 a2, (startRamp a1 a2 s).keep m = s.keep m := by
  intro a1 a2
  simp only [startRamp, keep_ite, ite_self, keep_setStop, keep_suspendAux, keep_enterState, keep_hardExit, keep_startRampUnit, keep_cutPrint]

theorem keep_rampExit (s : State) : (rampExit s).keep m = s.keep m := by
  simp only [rampExit, keep_enterSafe]

theorem keep_reactBelay (s : State) : ∀ a1, (reactBelay a1 s).keep m = s.keep m := by
  intro a1
  unfold reactBelay
  repeat' first
    | with_reducible rfl
    | (simp only [keep_ite, ite_self, implies_true, true_or, or_true, and_self, keep_startBelay]; done)
    | split
    | simp only [keep_ite, ite_self, implies_true, true_or, or_true, and_self, keep_startBelay]

theorem keep_reactHalt (s : State) : ∀ a1, (reactHalt a1 s).keep m = s.keep m := by
  intro a1
  simp only [reactHalt, keep_ite, ite_self, keep_enterState, keep_startHalt]

theorem keep_reactSafe (s : State) : ∀ a1, (reactSafe a1 s).keep m = s.keep m := by
  intro a1
  unfold reactSafe
  repeat' first
    | with_reducible rfl
    | (simp only [keep_ite, ite_self, implies_true, true_or, or_true, and_self, keep_safeHard, keep_enterSafe, keep_returnPins]; done)
    | split
    | simp only [keep_ite, ite_self, implies_true, true_or, or_true, and_self, keep_safeHard, keep_enterSafe, keep_returnPins]

theorem keep_reactCoast (s : State) : ∀ a1, (reactCoast a1 s).keep m = s.keep m := by
  intro a1
  unfold reactCoast
  repeat' first
    | with_reducible rfl
    | (simp only [keep_ite, ite_self, implies_true, true_or, or_true, and_self, keep_startCoast, keep_enterSafe, keep_coastHard]; done)
    | split
    | simp only [keep_ite, ite_self, implies_true, true_or, or_true, and_self, keep_startCoast, keep_enterSafe, keep_coastHard]

theorem keep_reactRamp (s : State) : ∀ a1, (reactRamp a1 s).keep m = s.keep m := by
  intro a1
  unfold reactRamp
  repeat' first
    | with_reducible rfl
    | (simp only [keep_ite, ite_self, implies_true, true_or, or_true, and_self, keep_enterSafe, keep_startRamp]; done)
    | split
    | simp only [keep_ite, ite_self, implies_true, true_or, or_true, and_self, keep_enterSafe, keep_startRamp]

theorem keep_coastChannels (s : State) : ∀ a1, (coastChannels a1 s).keep m = s.keep m := by
  intro a1
  simp only [coastChannels, implies_true, keep_foldl, keep_haltChannel]

theorem keep_blankStations (s : State) : ∀ a1, (blankStations a1 s).keep m = s.keep m := by
  intro a1
  simp only [blankStations, implies_true, keep_foldl, keep_blankNow]

theorem keep_undoDown (s : State) : ∀ a1, (undoDown a1 s).keep m = s.keep m := by
  intro a1
  simp only [undoDown, keep_modPwr, keep_modEng, keep_modPers]

theorem keep_beginRecord (s : State) : ∀ a1, (beginRecord a1 s).keep m = s.keep m := by
  intro a1
  simp only [beginRecord, keep_ite, ite_self, keep_undoDown, keep_modPwr]

theorem keep_powerFailNow (s : State) : ∀ a1, (powerFailNow a1 s).keep m = s.keep m := by
  intro a1
  simp only [powerFailNow, keep_beginRecord, keep_domainsOff, keep_safeHard, keep_returnPins, keep_modPwr, keep_modEng]

theorem keep_react (s : State) : ∀ a1 a2 a3, (react a1 a2 a3 s).keep m = s.keep m := by
  intro a1 a2 a3
  unfold react
  repeat' first
    | with_reducible rfl
    | (simp only [keep_ite, ite_self, implies_true, true_or, or_true, and_self, keep_shutDown, keep_reactBelay, keep_safeHard, keep_reactHalt, keep_reactSafe, keep_coastHard, keep_reactCoast, keep_reactRamp, keep_coastChannels, keep_blankStations, keep_powerFailNow, keep_returnPins, keep_modEng]; done)
    | split
    | simp only [keep_ite, ite_self, implies_true, true_or, or_true, and_self, keep_shutDown, keep_reactBelay, keep_safeHard, keep_reactHalt, keep_reactSafe, keep_coastHard, keep_reactCoast, keep_reactRamp, keep_coastChannels, keep_blankStations, keep_powerFailNow, keep_returnPins, keep_modEng]

theorem keep_faultEvent (s : State) : ∀ a1, (faultEvent a1 s).keep m = s.keep m := by
  intro a1
  simp only [faultEvent, keep_ite, ite_self, keep_modFlt]

theorem keep_assertPin (s : State) : ∀ a1, (assertPin a1 s).keep m = s.keep m := by
  intro a1
  simp only [assertPin, keep_ite, ite_self, keep_modFlt]

theorem keep_record (s : State) : ∀ a1 a2 a3 a4, (record a1 a2 a3 a4 s).keep m = s.keep m := by
  intro a1 a2 a3 a4
  simp only [record, keep_setsBit, keep_modFlt]

theorem keep_setAside (s : State) : ∀ a1, (setAside a1 s).keep m = s.keep m := by
  intro a1
  simp only [setAside, keep_modFlt]

theorem keep_raiseNow (s : State) : ∀ a1 a2 a3, (raiseNow a1 a2 a3 s).keep m = s.keep m := by
  intro a1 a2 a3
  simp only [raiseNow, keep_ite, ite_self, keep_react, keep_faultEvent, keep_assertPin, keep_record, keep_setAside, keep_modEng]

theorem keep_raiseWith (s : State) : ∀ a1 a2 a3, (raiseWith a1 a2 a3 s).keep m = s.keep m := by
  intro a1 a2 a3
  simp only [raiseWith, keep_ite, ite_self, keep_raiseNow]

theorem keep_raise (s : State) : ∀ a1, (raise a1 s).keep m = s.keep m := by
  intro a1
  simp only [raise, keep_raiseWith]

theorem keep_condOn (s : State) : ∀ a1, (condOn a1 s).keep m = s.keep m := by
  intro a1
  simp only [condOn, keep_ite, ite_self, keep_raise, keep_modFlt]

theorem keep_condOff (s : State) : ∀ a1, (condOff a1 s).keep m = s.keep m := by
  intro a1
  simp only [condOff, keep_modFlt]

theorem keep_condSet (s : State) : ∀ a1 a2, (condSet a1 a2 s).keep m = s.keep m := by
  intro a1 a2
  simp only [condSet, keep_ite, ite_self, keep_condOn, keep_condOff]

theorem keep_bootFail (s : State) : ∀ a1 a2, (bootFail a1 a2 s).keep m = s.keep m := by
  intro a1 a2
  simp only [bootFail, keep_raise, keep_modBoot]

theorem keep_postFault (s : State) : (postFault s).keep m = s.keep m := by
  simp only [postFault, keep_ite, ite_self, keep_postEvent, keep_modFlt]

theorem keep_reraise (s : State) : (reraise s).keep m = s.keep m := by
  simp only [reraise, keep_ite, ite_self, implies_true, keep_foldl, keep_raise, keep_modFlt]

theorem keep_dput (hwords : m .words = true) (s : State) : ∀ a1 a2 a3, (dput a1 a2 a3 s).keep m = s.keep m := by
  intro a1 a2 a3
  simp only [dput, true_or, keep_modLaw, hwords]

theorem keep_dputAll (hwords : m .words = true) (s : State) : ∀ a1 a2, (dputAll a1 a2 s).keep m = s.keep m := by
  intro a1 a2
  induction a2 generalizing s a1 with
  | nil => intros; rfl
  | cons x r ih =>
    unfold dputAll
    repeat' first
      | with_reducible rfl
      | (simp only [keep_ite, ite_self, implies_true, true_or, or_true, and_self, ih, keep_dput, hwords]; done)
      | split
      | simp only [keep_ite, ite_self, implies_true, true_or, or_true, and_self, ih, keep_dput, hwords]

theorem keep_noteQuantities (s : State) : (noteQuantities s).keep m = s.keep m := by
  simp only [noteQuantities, implies_true, or_true, keep_modLaw]

theorem keep_lawReads (s : State) : ∀ a1, (lawReads a1 s s).keep m = s.keep m := by
  intro a1
  simp only [lawReads, implies_true, or_true, keep_foldl, keep_raise, keep_modLaw]

theorem keep_endProgram (s : State) : (endProgram s).keep m = s.keep m := by
  have h (x : Bool) (s0 : State) : (if x then setsBit 0x7010 31 s0 else s0).keep m = s0.keep m := by
    split
    · exact keep_setsBit _ _ _
    · rfl
  unfold endProgram
  refine (keep_modLaw _ _ (.inr fun t => ?_)).trans ?_
  · dsimp only
    split <;> rfl
  · simp only [keep_ite, keep_setsBit, ite_self, keep_lawReads]

theorem keep_putNum (hwords : m .words = true) (s : State) : ∀ a2, (putNum s a2).keep m = s.keep m := by
  intro a2
  simp only [putNum, keep_dput, hwords]

theorem keep_lawNan (s : State) : ∀ a1, (lawNan a1 s).keep m = s.keep m := by
  intro a1
  simp only [lawNan, keep_ite, ite_self, implies_true, or_true, keep_setsBit, keep_raise, keep_modLaw]

theorem keep_noteHold (s : State) : ∀ a1 a2 a3 a4, (noteHold a1 a2 a3 a4 s).keep m = s.keep m := by
  intro a1 a2 a3 a4
  simp only [noteHold, keep_ite, ite_self, implies_true, or_true, keep_raise, keep_modLaw]

theorem keep_notePlaus (s : State) : ∀ a1 a2 a3 a4, (notePlaus a1 a2 a3 a4 s).keep m = s.keep m := by
  intro a1 a2 a3 a4
  simp only [notePlaus, keep_ite, ite_self, implies_true, or_true, keep_raise, keep_modLaw]

theorem keep_lawEffect (s : State) : ∀ a1, (lawEffect a1 s).keep m = s.keep m := by
  intro a1
  unfold lawEffect
  repeat' first
    | with_reducible rfl
    | (simp only [keep_ite, ite_self, implies_true, true_or, or_true, and_self, keep_noteHold, keep_endProgram, keep_notePlaus, keep_modLaw]; done)
    | split
    | simp only [keep_ite, ite_self, implies_true, true_or, or_true, and_self, keep_noteHold, keep_endProgram, keep_notePlaus, keep_modLaw]

theorem keep_lawRetire (hwords : m .words = true) (s : State) : ∀ a1 a2, (lawRetire a1 a2 s).keep m = s.keep m := by
  intro a1 a2
  unfold lawRetire
  have h (s : State) : (List.foldl putNum s a2.puts).keep m = s.keep m := keep_foldl _ (fun s a => keep_putNum hwords s a) _ _
  have hr (r : LawResult) (s0 s : State) : (lawReads r s0 s).keep m = s.keep m := by
    unfold lawReads
    exact keep_foldl _ (fun s a => by simp only [keep_raise, keep_modLaw, implies_true, or_true]) _ _
  have hq (b : Bool) (s : State) : (if b then noteQuantities s else s).keep m = s.keep m := by
    split
    · exact keep_noteQuantities s
    · rfl
  simp only [keep_lawNan, hr, keep_lawEffect, keep_ite, keep_setsBit, keep_modLaw, hq, h, ite_self, implies_true, or_true]

theorem keep_lawHalt (s : State) : ∀ a1 a2, (lawHalt a1 a2 s).keep m = s.keep m := by
  intro a1 a2
  simp only [lawHalt, implies_true, or_true, keep_allHeatersLow, keep_raise, keep_modLaw]

theorem keep_lawDiffer (s : State) : ∀ a1 a2, (lawDiffer a1 a2 s).keep m = s.keep m := by
  intro a1 a2
  simp only [lawDiffer, implies_true, or_true, keep_lawHalt, keep_modLaw]

theorem keep_lawUpsets (hwords : m .words = true) (s : State) : ∀ a1, (lawUpsets a1 s).keep m = s.keep m := by
  intro a1
  simp only [lawUpsets, true_or, keep_modLaw, hwords]

theorem keep_lawStep (hwords : m .words = true) (s : State) : ∀ a1 a2 a3, (lawStep a1 a2 a3 s).keep m = s.keep m := by
  intro a1 a2 a3
  simp only [lawStep, keep_ite, ite_self, implies_true, or_true, keep_lawRetire, keep_lawDiffer, keep_lawUpsets, keep_lawHalt, keep_modLaw, hwords]

theorem keep_spoilCheck (s : State) : (spoilCheck s).keep m = s.keep m := by
  simp only [spoilCheck, keep_condSet]

theorem keep_postRecord (s : State) : ∀ a1, (postRecord a1 s).keep m = s.keep m := by
  intro a1
  simp only [postRecord, keep_ite, ite_self, keep_postEvent, keep_setsBit, keep_spoilCheck, keep_modJobs]

theorem keep_postCairnRecords (s : State) : (postCairnRecords s).keep m = s.keep m := by
  unfold postCairnRecords
  repeat' first
    | with_reducible rfl
    | (simp only [keep_ite, ite_self, implies_true, true_or, or_true, and_self, keep_foldl, keep_postRecord, keep_modBoot]; done)
    | (refine keep_foldl _ ?_ _ _; intro s a)
    | split
    | simp only [keep_ite, ite_self, implies_true, true_or, or_true, and_self, keep_foldl, keep_postRecord, keep_modBoot]

theorem keep_execSpoilRecordPost (s : State) : keepOut m (execSpoilRecordPost s) = some (s.keep m) := by
  unfold execSpoilRecordPost
  repeat' first
    | with_reducible rfl
    | (simp only [keep_ite, ite_self, implies_true, true_or, or_true, and_self, keepOut_next, keepOut_ite, keep_postRecord, keep_modJobs]; done)
    | split
    | simp only [keep_ite, ite_self, implies_true, true_or, or_true, and_self, keepOut_next, keepOut_ite, keep_postRecord, keep_modJobs]

theorem keep_execWasteMarker (s : State) : keepOut m (execWasteMarker s) = some (s.keep m) := by
  simp only [execWasteMarker, ite_self, keepOut_next, keepOut_ite, keep_modJobs]

theorem keep_execWasteMinExpiry (s : State) : keepOut m (execWasteMinExpiry s) = some (s.keep m) := by
  simp only [execWasteMinExpiry, ite_self, keepOut_next, keepOut_ite, keep_modJobs]

theorem keep_sendSeqBlock (s : State) : ∀ a1, (sendSeqBlock a1 s).keep m = s.keep m := by
  intro a1
  simp only [sendSeqBlock, keep_modRing]

theorem keep_sendSeq (s : State) : ∀ a1 a2 a3, (sendSeq a1 a2 a3 s).keep m = s.keep m := by
  intro a1 a2 a3
  simp only [sendSeq, keep_sendSeqBlock, keep_modRing]

theorem keep_ackDown (s : State) : (ackDown s).keep m = s.keep m := by
  unfold ackDown
  repeat' first
    | with_reducible rfl
    | (simp only [keep_ite, ite_self, implies_true, true_or, or_true, and_self, keep_sendSeq, keep_modPwr]; done)
    | split
    | simp only [keep_ite, ite_self, implies_true, true_or, or_true, and_self, keep_sendSeq, keep_modPwr]

theorem keep_ackUp (s : State) : (ackUp s).keep m = s.keep m := by
  unfold ackUp
  repeat' first
    | with_reducible rfl
    | (simp only [keep_ite, ite_self, implies_true, true_or, or_true, and_self, keep_sendSeq, keep_modPwr]; done)
    | split
    | simp only [keep_ite, ite_self, implies_true, true_or, or_true, and_self, keep_sendSeq, keep_modPwr]

theorem keep_railOff (s : State) : ∀ a1, (railOff a1 s).keep m = s.keep m := by
  intro a1
  simp only [railOff, keep_modPwr]

theorem keep_sendStep (s : State) : ∀ a1 a2, (sendStep a1 a2 s).keep m = s.keep m := by
  intro a1 a2
  simp only [sendStep, keep_ite, ite_self, keep_sendSeq]

theorem keep_disableSlot (s : State) : ∀ a1 a2, (disableSlot a1 a2 s).keep m = s.keep m := by
  intro a1 a2
  simp only [disableSlot, keep_ite, ite_self, implies_true, keep_foldl, keep_railOff, keep_sendStep, keep_modPwr]

theorem keep_domainsOperate (hstore : m .store = true) (s : State) : (domainsOperate s).keep m = s.keep m := by
  simp only [domainsOperate, implies_true, or_true, keep_modPwr, keep_modStore, hstore]

theorem keep_pmbWord (s : State) : ∀ a1 a2 a3, (pmbWord a1 a2 a3 s).keep m = s.keep m := by
  intro a1 a2 a3
  simp only [pmbWord, keep_ite, ite_self, keep_pmbSend]

theorem keep_pmbPrepare (s : State) : ∀ a1, (pmbPrepare a1 s).keep m = s.keep m := by
  intro a1
  simp only [pmbPrepare, keep_pmbSend, keep_pmbWord]

theorem keep_railOn (s : State) : ∀ a1, (railOn a1 s).keep m = s.keep m := by
  intro a1
  unfold railOn
  repeat' first
    | with_reducible rfl
    | (simp only [keep_ite, ite_self, implies_true, true_or, or_true, and_self, keep_modPwr]; done)
    | split
    | simp only [keep_ite, ite_self, implies_true, true_or, or_true, and_self, keep_modPwr]

theorem keep_enableSlot (s : State) : ∀ a1, (enableSlot a1 s).keep m = s.keep m := by
  intro a1
  simp only [enableSlot, implies_true, keep_foldl, keep_pmbPrepare, keep_railOn, keep_modPwr]

theorem keep_safeToBoot (s : State) : (safeToBoot s).keep m = s.keep m := by
  simp only [safeToBoot, keep_inhibitEnded, keep_enterState, keep_modEng, keep_modBoot]

theorem keep_shutDownComplete (s : State) : ∀ a1, (shutDownComplete a1 s).keep m = s.keep m := by
  intro a1
  simp only [shutDownComplete, keep_ite, ite_self, keep_domainsOff, keep_writeTail, keep_safeToBoot, keep_modPwr, keep_modBoot]

theorem keep_holdupLow (s : State) : (holdupLow s).keep m = s.keep m := by
  simp only [holdupLow, keep_setsBit, keep_raise, keep_modPwr]

theorem keep_compareHold (s : State) : (compareHold s).keep m = s.keep m := by
  simp only [compareHold, keep_ite, ite_self, keep_holdupLow]

theorem keep_railDown (s : State) : ∀ a1 a2, (railDown a1 a2 s).keep m = s.keep m := by
  intro a1 a2
  simp only [railDown, keep_ackDown, keep_modPwr]

theorem keep_earlyOff (s : State) : ∀ a1 a2, (earlyOff a1 a2 s).keep m = s.keep m := by
  intro a1 a2
  simp only [earlyOff, keep_railDown, keep_setsBit, keep_raise, keep_modPwr]

theorem keep_execHoldUpMeasurement (s : State) : ∀ a1, keepOut m (execHoldUpMeasurement a1 s) = some (s.keep m) := by
  intro a1
  simp only [execHoldUpMeasurement, ite_self, keepOut_next, keepOut_ite, keep_modPwr]

theorem keep_execHoldupLow (s : State) : keepOut m (execHoldupLow s) = some (s.keep m) := by
  simp only [execHoldupLow, keepOut_next, keep_holdupLow]

theorem keep_marginRail (s : State) : ∀ a1 a2, (marginRail a1 a2 s).keep m = s.keep m := by
  intro a1 a2
  unfold marginRail
  repeat' first
    | with_reducible rfl
    | (simp only [keep_ite, ite_self, implies_true, true_or, or_true, and_self, keep_pmbSend, keep_modPwr]; done)
    | split
    | simp only [keep_ite, ite_self, implies_true, true_or, or_true, and_self, keep_pmbSend, keep_modPwr]

theorem keep_writeMargin (s : State) : ∀ a1, (writeMargin a1 s).keep m = s.keep m := by
  intro a1
  simp only [writeMargin, keep_ite, ite_self, implies_true, keep_foldl, keep_marginRail]

theorem keep_execMarginWrite (s : State) : ∀ a1, keepOut m (execMarginWrite a1 s) = some (s.keep m) := by
  intro a1
  simp only [execMarginWrite, keep_ite, ite_self, keepOut_next, keep_writeMargin]

theorem keep_execPmbAlertFall (s : State) : ∀ a1, keepOut m (execPmbAlertFall a1 s) = some (s.keep m) := by
  intro a1
  simp only [execPmbAlertFall, implies_true, keep_foldl, keepOut_next, keep_pmbSend, keep_modPwr]

theorem keep_execPmbusError (s : State) : ∀ a1 a2, keepOut m (execPmbusError a1 a2 s) = some (s.keep m) := by
  intro a1 a2
  simp only [execPmbusError, keepOut_next, keep_raise, keep_modPwr]

theorem keep_execPowerFail (s : State) : ∀ a1 a2 a3 a4, keepOut m (execPowerFail a1 a2 a3 a4 s) = some (s.keep m) := by
  intro a1 a2 a3 a4
  simp only [execPowerFail, keep_ite, ite_self, keepOut_next, keepOut_ite, keep_addTrigger, keep_raiseWith, keep_modPwr]

theorem keep_execPowerFailArming (s : State) : keepOut m (execPowerFailArming s) = some (s.keep m) := by
  simp only [execPowerFailArming, ite_self, keepOut_next, keepOut_ite, keep_modPwr]

theorem keep_railGood (s : State) : ∀ a1, (railGood a1 s).keep m = s.keep m := by
  intro a1
  simp only [railGood, keep_ackUp, keep_modPwr]

theorem keep_execPowerSeqTimeout (s : State) : ∀ a1, keepOut m (execPowerSeqTimeout a1 s) = some (s.keep m) := by
  intro a1
  simp only [execPowerSeqTimeout, keep_ite, ite_self, keepOut_next, keepOut_ite, keep_bootFail, keep_railGood]

theorem keep_startSlot (s : State) : ∀ a1, (startSlot a1 s).keep m = s.keep m := by
  intro a1
  simp only [startSlot, keep_sendStep, keep_enableSlot]

theorem keep_startSlots (s : State) : (startSlots s).keep m = s.keep m := by
  simp only [startSlots, keep_ite, ite_self, keep_compareHold, keep_startSlot, keep_modPwr]

theorem keep_takeStep (s : State) : ∀ a1, (takeStep a1 s).keep m = s.keep m := by
  intro a1
  simp only [takeStep, keep_compareHold, keep_enableSlot, keep_ackUp, keep_modPwr]

theorem keep_execPowerUpSlot (hstore : m .store = true) (s : State) : keepOut m (execPowerUpSlot s) = some (s.keep m) := by
  unfold execPowerUpSlot
  repeat' first
    | with_reducible rfl
    | (simp only [keep_ite, ite_self, implies_true, true_or, or_true, and_self, keepOut_next, keepOut_ite, keep_startSlots, keep_domainsOperate, keep_startSlot, keep_takeStep, hstore]; done)
    | split
    | simp only [keep_ite, ite_self, implies_true, true_or, or_true, and_self, keepOut_next, keepOut_ite, keep_startSlots, keep_domainsOperate, keep_startSlot, keep_takeStep, hstore]

theorem keep_execRailDischargeTimeout (s : State) : ∀ a1, keepOut m (execRailDischargeTimeout a1 s) = some (s.keep m) := by
  intro a1
  unfold execRailDischargeTimeout
  repeat' first
    | with_reducible rfl
    | (simp only [keep_ite, ite_self, implies_true, true_or, or_true, and_self, keepOut_next, keepOut_ite, keep_railDown, keep_setsBit, keep_raise, keep_modPwr]; done)
    | split
    | simp only [keep_ite, ite_self, implies_true, true_or, or_true, and_self, keepOut_next, keepOut_ite, keep_railDown, keep_setsBit, keep_raise, keep_modPwr]

theorem keep_execRailDischarged (s : State) : ∀ a1, keepOut m (execRailDischarged a1 s) = some (s.keep m) := by
  intro a1
  unfold execRailDischarged
  repeat' first
    | with_reducible rfl
    | (simp only [keep_ite, ite_self, implies_true, true_or, or_true, and_self, keepOut_next, keepOut_ite, keep_railDown, keep_pmbSend]; done)
    | split
    | simp only [keep_ite, ite_self, implies_true, true_or, or_true, and_self, keepOut_next, keepOut_ite, keep_railDown, keep_pmbSend]

theorem keep_execRailPowerGood (s : State) : ∀ a1, keepOut m (execRailPowerGood a1 s) = some (s.keep m) := by
  intro a1
  simp only [execRailPowerGood, ite_self, keepOut_next, keepOut_ite, keep_railGood]

theorem keep_readRailStatus (s : State) : ∀ a1, (readRailStatus a1 s).keep m = s.keep m := by
  intro a1
  simp only [readRailStatus, keep_ite, ite_self, keep_pmbSend, keep_State_useFree, keep_modPwr]

theorem keep_execRailPowerGoodLoss (s : State) : ∀ a1, keepOut m (execRailPowerGoodLoss a1 s) = some (s.keep m) := by
  intro a1
  unfold execRailPowerGoodLoss
  repeat' first
    | with_reducible rfl
    | (simp only [keep_ite, ite_self, implies_true, true_or, or_true, and_self, keepOut_next, keepOut_ite, keep_earlyOff, keep_raise, keep_readRailStatus, keep_modPwr]; done)
    | split
    | simp only [keep_ite, ite_self, implies_true, true_or, or_true, and_self, keepOut_next, keepOut_ite, keep_earlyOff, keep_raise, keep_readRailStatus, keep_modPwr]

theorem keep_nextOffSlot (s : State) : ∀ a1 a2, (nextOffSlot a1 a2 s).keep m = s.keep m := by
  intro a1 a2
  simp only [nextOffSlot, keep_ite, ite_self, keep_disableSlot, keep_shutDownComplete]

theorem keep_execShutDownSlot (s : State) : keepOut m (execShutDownSlot s) = some (s.keep m) := by
  unfold execShutDownSlot
  repeat' first
    | with_reducible rfl
    | (simp only [keep_ite, ite_self, implies_true, true_or, or_true, and_self, keepOut_next, keepOut_ite, keep_nextOffSlot, keep_shutDownComplete]; done)
    | split
    | simp only [keep_ite, ite_self, implies_true, true_or, or_true, and_self, keepOut_next, keepOut_ite, keep_nextOffSlot, keep_shutDownComplete]

theorem keep_execTrimStep (s : State) : ∀ a1, keepOut m (execTrimStep a1 s) = some (s.keep m) := by
  intro a1
  simp only [execTrimStep, keepOut_next, keep_modPwr]

theorem keep_execVcpGood (s : State) : ∀ a1, keepOut m (execVcpGood a1 s) = some (s.keep m) := by
  intro a1
  simp only [execVcpGood, keepOut_next, keep_modPwr]

theorem keep_endStep (s : State) : ∀ a1, (endStep a1 s).keep m = s.keep m := by
  intro a1
  simp only [endStep, keep_modBoot]

theorem keep_raiseAgain (s : State) : (raiseAgain s).keep m = s.keep m := by
  simp only [raiseAgain, keep_ite, ite_self, keep_raise]

theorem keep_supplyUnknown (s : State) : (supplyUnknown s).keep m = s.keep m := by
  simp only [supplyUnknown, keep_condOff]

theorem keep_resetUnits (hanch : m .anch = true) (hbus : m .bus = true) (hdrawLim : m .drawLim = true) (hrope : m .rope = true) (hspBus : m .spBus = true) (hstore : m .store = true) (hmem : m .mem = true) (hwords : m .words = true) (s : State) :
    (resetUnits s).keep m = s.keep m := by
  have h := keep_supplyUnknown (m := m) s
  simp only [State.keep, out, hanch, hbus, hdrawLim, hrope, hspBus, hstore, hmem, hwords, if_true, State.keep] at h
  simp only [resetUnits, State.keep, out, hanch, hbus, hdrawLim, hrope, hspBus, hstore, hmem, hwords, if_true]
  exact h

theorem keep_unlockPlls (hclk : m .clk = true) (s : State) : (unlockPlls s).keep m = s.keep m := by
  simp only [unlockPlls, implies_true, keep_foldl, keep_condOff, keep_modClk, hclk]

theorem keep_startStep7 (hanch : m .anch = true) (hbus : m .bus = true) (hclk : m .clk = true) (hdrawLim : m .drawLim = true) (hrope : m .rope = true) (hspBus : m .spBus = true) (hstore : m .store = true) (hmem : m .mem = true) (hwords : m .words = true) (s : State) : (startStep7 s).keep m = s.keep m := by
  simp only [startStep7, keep_domainsOff, keep_resetUnits, keep_unlockPlls, keep_modBoot, hanch, hbus, hclk, hdrawLim, hrope, hspBus, hstore, hmem, hwords]

theorem keep_startStep6 (hanch : m .anch = true) (hbus : m .bus = true) (hclk : m .clk = true) (hdrawLim : m .drawLim = true) (hrope : m .rope = true) (hspBus : m .spBus = true) (hstore : m .store = true) (hmem : m .mem = true) (hwords : m .words = true) (s : State) : (startStep6 s).keep m = s.keep m := by
  simp only [startStep6, keep_ite, ite_self, keep_bootFail, keep_endStep, keep_startStep7, keep_modBoot, hanch, hbus, hclk, hdrawLim, hrope, hspBus, hstore, hmem, hwords]

theorem keep_imageFail (hanch : m .anch = true) (hbus : m .bus = true) (hclk : m .clk = true) (hdrawLim : m .drawLim = true) (hrope : m .rope = true) (hspBus : m .spBus = true) (hstore : m .store = true) (hmem : m .mem = true) (hwords : m .words = true) (s : State) : ∀ a1 a2 a3, (imageFail a1 a2 a3 s).keep m = s.keep m := by
  intro a1 a2 a3
  simp only [imageFail, keep_ite, ite_self, keep_bootFail, keep_startStep6, keep_raise, keep_modBoot, hanch, hbus, hclk, hdrawLim, hrope, hspBus, hstore, hmem, hwords]

theorem keep_lawBudgets (s : State) : (lawBudgets s).keep m = s.keep m := by
  simp only [lawBudgets, implies_true, or_true, keep_modLaw]

theorem keep_takeCairn (hcons : m .cons = true) (hstore : m .store = true) (s : State) : (takeCairn s).keep m = s.keep m := by
  unfold takeCairn
  repeat' first
    | with_reducible rfl
    | (simp only [keep_ite, ite_self, implies_true, true_or, or_true, and_self, keep_modStore, keep_modPers, keep_modBoot, keep_modCons, hcons, hstore]; done)
    | split
    | simp only [keep_ite, ite_self, implies_true, true_or, or_true, and_self, keep_modStore, keep_modPers, keep_modBoot, keep_modCons, hcons, hstore]

theorem keep_setOperate (s : State) : ∀ a1, (setOperate a1 s).keep m = s.keep m := by
  intro a1
  simp only [setOperate, keep_modPwr]

theorem keep_endStep7 (hanch : m .anch = true) (hbus : m .bus = true) (hclk : m .clk = true) (hcons : m .cons = true) (hdrawLim : m .drawLim = true) (hrope : m .rope = true) (hspBus : m .spBus = true) (hstore : m .store = true) (hmem : m .mem = true) (hwords : m .words = true) (s : State) : (endStep7 s).keep m = s.keep m := by
  simp only [endStep7, keep_ite, ite_self, keep_raiseAgain, keep_imageFail, keep_endStep, keep_lawBudgets, keep_takeCairn, keep_setOperate, keep_modHost, hanch, hbus, hclk, hcons, hdrawLim, hrope, hspBus, hstore, hmem, hwords]

theorem keep_finishBoot (s : State) : (finishBoot s).keep m = s.keep m := by
  simp only [finishBoot, implies_true, or_true, keep_enterState, keep_postCairnRecords, keep_noteQuantities, keep_modBoot, keep_modLaw]

theorem keep_startTraining (s : State) : ∀ a1, (startTraining a1 s).keep m = s.keep m := by
  intro a1
  simp only [startTraining, keep_atStage]

theorem keep_startStep11 (s : State) : (startStep11 s).keep m = s.keep m := by
  unfold startStep11
  repeat' first
    | with_reducible rfl
    | (simp only [keep_ite, ite_self, implies_true, true_or, or_true, and_self, keep_foldl, keep_finishBoot, keep_endStep, keep_startTraining]; done)
    | (refine keep_foldl _ ?_ _ _; intro s a)
    | split
    | simp only [keep_ite, ite_self, implies_true, true_or, or_true, and_self, keep_foldl, keep_finishBoot, keep_endStep, keep_startTraining]

theorem keep_optMissing (s : State) : (optMissing s).keep m = s.keep m := by
  simp only [optMissing, keep_raise, keep_modBoot]

theorem keep_firstSample (s : State) : ∀ a1, (firstSample a1 s).keep m = s.keep m := by
  intro a1
  simp only [firstSample, keep_modPwr, keep_modStage, keep_modAux, keep_modIl, keep_modFlt]

theorem keep_porState (hanch : m .anch = true) (hbus : m .bus = true) (hclk : m .clk = true) (hcons : m .cons = true) (hdma : m .dma = true) (hdrawLim : m .drawLim = true) (hfacet : m .facet = true) (hist : m .ist = true) (hotp : m .otp = true) (hreg : m .reg = true) (hrope : m .rope = true) (hspBus : m .spBus = true) (hstore : m .store = true) (htherm : m .therm = true) (hmem : m .mem = true) (harray : m .array = true) (hshadow : m .shadow = true) (hram : m .ram = true) (hwords : m .words = true) (s : State) : ∀ a1, (porState a1 s).keep m = s.keep m := by
  intro a1
  simp only [porState, State.keep, out, hanch, hbus, hclk, hcons, hdma, hdrawLim, hfacet, hist, hotp, hreg, hrope, hspBus, hstore, htherm, hmem, harray, hshadow, hram, hwords, if_true]

theorem keep_setLoad (s : State) : ∀ a1, (setLoad a1 s).keep m = s.keep m := by
  intro a1
  simp only [setLoad, keep_modPwr]

theorem keep_loadLawData (hwords : m .words = true) (s : State) : ∀ a1, (loadLawData a1 s).keep m = s.keep m := by
  intro a1
  simp only [loadLawData, implies_true, keep_foldl, keep_dputAll, hwords]

theorem keep_loadUnit (hanch : m .anch = true) (hwords : m .words = true) (s : State) : ∀ a1 a2, (loadUnit a1 a2 s).keep m = s.keep m := by
  intro a1 a2
  unfold loadUnit
  repeat' first
    | with_reducible rfl
    | (simp only [keep_ite, ite_self, implies_true, true_or, or_true, and_self, keep_loadLawData, keep_raise, keep_modEng, keep_modExpo, keep_modAux, keep_modLaw, keep_modHost, keep_modAnch, hanch, hwords]; done)
    | split
    | simp only [keep_ite, ite_self, implies_true, true_or, or_true, and_self, keep_loadLawData, keep_raise, keep_modEng, keep_modExpo, keep_modAux, keep_modLaw, keep_modHost, keep_modAnch, hanch, hwords]

theorem keep_loadSection (hanch : m .anch = true) (hwords : m .words = true) (s : State) : ∀ a1 a2, (loadSection a1 a2 s).keep m = s.keep m := by
  intro a1 a2
  simp only [loadSection, implies_true, keep_foldl, keep_setLoad, keep_loadUnit, keep_modBoot, hanch, hwords]

theorem keep_takeSection (hanch : m .anch = true) (hbus : m .bus = true) (hclk : m .clk = true) (hcons : m .cons = true) (hdrawLim : m .drawLim = true) (hrope : m .rope = true) (hspBus : m .spBus = true) (hstore : m .store = true) (hmem : m .mem = true) (hwords : m .words = true) (s : State) : ∀ a1 a2 a3, (takeSection a1 a2 a3 s).keep m = s.keep m := by
  intro a1 a2 a3
  unfold takeSection
  repeat' first
    | with_reducible rfl
    | (simp only [keep_ite, ite_self, implies_true, true_or, or_true, and_self, keep_loadSection, keep_imageFail, keep_endStep7, keep_modBoot, hanch, hbus, hclk, hcons, hdrawLim, hrope, hspBus, hstore, hmem, hwords]; done)
    | split
    | simp only [keep_ite, ite_self, implies_true, true_or, or_true, and_self, keep_loadSection, keep_imageFail, keep_endStep7, keep_modBoot, hanch, hbus, hclk, hcons, hdrawLim, hrope, hspBus, hstore, hmem, hwords]

end Sys2Proof.Machine
end

