-- ==== Sys2Proof/Laws/Keep2.lean ====
section
/-! SUPPORT. The parts of the state (Laws/Keep.lean) that each operation and each command leaves alone: the modules
Pins, Boot, Msg, StoreOps, JobMsg, HostLink. A hypothesis names a part that the operation may change. -/

namespace Sys2Proof.Machine

set_option linter.unusedSimpArgs false
set_option maxRecDepth 4000

variable {m : Part → Bool}

theorem keep_estopCheck (s : State) : (estopCheck s).keep m = s.keep m := by
  simp only [estopCheck, keep_ite, ite_self, keep_condOn]

theorem keep_holdInh (s : State) : ∀ a1, (holdInh a1 s).keep m = s.keep m := by
  intro a1
  simp only [holdInh, keep_updateInh, keep_atStage]

theorem keep_fltCheck (s : State) : ∀ a1, (fltCheck a1 s).keep m = s.keep m := by
  intro a1
  simp only [fltCheck, keep_ite, ite_self, keep_condOn, keep_holdInh]

theorem keep_setInterlock (s : State) : ∀ a1 a2, (setInterlock a1 a2 s).keep m = s.keep m := by
  intro a1 a2
  simp only [setInterlock, keep_modIl]

theorem keep_interlockOpened (s : State) : ∀ a1, (interlockOpened a1 s).keep m = s.keep m := by
  intro a1
  simp only [interlockOpened, implies_true, keep_foldl, keep_condOn, keep_setInterlock, keep_laserLow]

theorem keep_stoCheck (s : State) : (stoCheck s).keep m = s.keep m := by
  simp only [stoCheck, keep_ite, ite_self, keep_condOn]

theorem keep_sampleRaises (s : State) : (sampleRaises s).keep m = s.keep m := by
  simp only [sampleRaises, keep_ite, ite_self, implies_true, keep_foldl, keep_fltCheck, keep_interlockOpened, keep_stoCheck, keep_each8, keep_estopCheck]

theorem keep_execEstopInput (s : State) : ∀ a1 a2, keepOut m (execEstopInput a1 a2 s) = some (s.keep m) := by
  intro a1 a2
  simp only [execEstopInput, keepOut_next, keep_estopCheck, keep_modFlt]

theorem keep_execFltPairChange (s : State) : ∀ a1 a2 a3, keepOut m (execFltPairChange a1 a2 a3 s) = some (s.keep m) := by
  intro a1 a2 a3
  simp only [execFltPairChange, keepOut_next, keep_fltCheck, keep_atStage]

theorem keep_execInterlockClose (s : State) : ∀ a1, keepOut m (execInterlockClose a1 s) = some (s.keep m) := by
  intro a1
  simp only [execInterlockClose, keep_ite, ite_self, keepOut_next, keep_setInterlock, keep_condOff]

theorem keep_execInterlockOpen (s : State) : ∀ a1, keepOut m (execInterlockOpen a1 s) = some (s.keep m) := by
  intro a1
  simp only [execInterlockOpen, keepOut_next, keep_interlockOpened]

theorem keep_execLaserEnableRise (s : State) : ∀ a1, keepOut m (execLaserEnableRise a1 s) = some (s.keep m) := by
  intro a1
  simp only [execLaserEnableRise, ite_self, keepOut_next, keepOut_ite, keep_unblank, keep_modIl]

theorem keep_execPairReturnNormal (s : State) : ∀ a1, keepOut m (execPairReturnNormal a1 s) = some (s.keep m) := by
  intro a1
  unfold execPairReturnNormal
  repeat' first
    | with_reducible rfl
    | (simp only [keep_ite, ite_self, implies_true, true_or, or_true, and_self, keepOut_next, keepOut_ite, keep_condOff, keep_atStage, keep_modFlt]; done)
    | split
    | simp only [keep_ite, ite_self, implies_true, true_or, or_true, and_self, keepOut_next, keepOut_ite, keep_condOff, keep_atStage, keep_modFlt]

theorem keep_execPairWireFault (s : State) : ∀ a1, keepOut m (execPairWireFault a1 s) = some (s.keep m) := by
  intro a1
  unfold execPairWireFault
  repeat' first
    | with_reducible rfl
    | (simp only [keep_ite, ite_self, implies_true, true_or, or_true, and_self, keepOut_next, keepOut_ite, keep_stoCheck, keep_estopCheck, keep_condOn, keep_setsBit, keep_holdInh, keep_atStage, keep_modFlt]; done)
    | split
    | simp only [keep_ite, ite_self, implies_true, true_or, or_true, and_self, keepOut_next, keepOut_ite, keep_stoCheck, keep_estopCheck, keep_condOn, keep_setsBit, keep_holdInh, keep_atStage, keep_modFlt]

theorem keep_execStoInput (s : State) : ∀ a1 a2, keepOut m (execStoInput a1 a2 s) = some (s.keep m) := by
  intro a1 a2
  simp only [execStoInput, keepOut_next, keep_stoCheck, keep_modFlt]

theorem keep_applyTrims (hclk : m .clk = true) (s : State) : (applyTrims s).keep m = s.keep m := by
  simp only [applyTrims, keep_modClk, keep_modFreeCtr, hclk]

theorem keep_enumSync (s : State) : ∀ a1, (enumSync a1 s).keep m = s.keep m := by
  intro a1
  simp only [enumSync, keep_ite, ite_self, keep_startStep11, keep_bootFail, keep_endStep]

theorem keep_noteSerials (s : State) : ∀ a1, (noteSerials a1 s).keep m = s.keep m := by
  intro a1
  simp only [noteSerials, keep_modRing]

theorem keep_noteNodes (s : State) : ∀ a1, (noteNodes a1 s).keep m = s.keep m := by
  intro a1
  simp only [noteNodes, keep_modRing]

theorem keep_setRingTime (s : State) : ∀ a1, (setRingTime a1 s).keep m = s.keep m := by
  intro a1
  simp only [setRingTime, keep_ite, ite_self, keep_modEng, keep_modRing]

theorem keep_enumerate (s : State) : ∀ a1, (enumerate a1 s).keep m = s.keep m := by
  intro a1
  unfold enumerate
  repeat' first
    | with_reducible rfl
    | (simp only [keep_ite, ite_self, implies_true, true_or, or_true, and_self, keep_noteSerials, keep_noteNodes, keep_startStep11, keep_setRingTime, keep_bootFail, keep_optMissing, keep_endStep]; done)
    | split
    | simp only [keep_ite, ite_self, implies_true, true_or, or_true, and_self, keep_noteSerials, keep_noteNodes, keep_startStep11, keep_setRingTime, keep_bootFail, keep_optMissing, keep_endStep]

theorem keep_powerOn (hanch : m .anch = true) (hbus : m .bus = true) (hclk : m .clk = true) (hcons : m .cons = true) (hdma : m .dma = true) (hdrawLim : m .drawLim = true) (hfacet : m .facet = true) (hist : m .ist = true) (hotp : m .otp = true) (hreg : m .reg = true) (hrope : m .rope = true) (hspBus : m .spBus = true) (hstore : m .store = true) (htherm : m .therm = true) (hmem : m .mem = true) (harray : m .array = true) (hshadow : m .shadow = true) (hram : m .ram = true) (hwords : m .words = true) (s : State) : ∀ a1 a2, (powerOn a1 a2 s).keep m = s.keep m := by
  intro a1 a2
  simp only [powerOn, keep_countLife, keep_sampleRaises, keep_firstSample, keep_porState, keep_modPwr, keep_modBoot, hanch, hbus, hclk, hcons, hdma, hdrawLim, hfacet, hist, hotp, hreg, hrope, hspBus, hstore, htherm, hmem, harray, hshadow, hram, hwords]

theorem keep_powerOff (hanch : m .anch = true) (hbus : m .bus = true) (hclk : m .clk = true) (hcons : m .cons = true) (hdma : m .dma = true) (hdrawLim : m .drawLim = true) (hfacet : m .facet = true) (hist : m .ist = true) (hotp : m .otp = true) (hreg : m .reg = true) (hrope : m .rope = true) (hspBus : m .spBus = true) (hstore : m .store = true) (htherm : m .therm = true) (hmem : m .mem = true) (harray : m .array = true) (hshadow : m .shadow = true) (hram : m .ram = true) (hwords : m .words = true) (s : State) : ∀ a1, (powerOff a1 s).keep m = s.keep m := by
  intro a1
  simp only [powerOff, keep_porState, keep_modEng, hanch, hbus, hclk, hcons, hdma, hdrawLim, hfacet, hist, hotp, hreg, hrope, hspBus, hstore, htherm, hmem, harray, hshadow, hram, hwords]

theorem keep_execAonPowerOnReset (hanch : m .anch = true) (hbus : m .bus = true) (hclk : m .clk = true) (hcons : m .cons = true) (hdma : m .dma = true) (hdrawLim : m .drawLim = true) (hfacet : m .facet = true) (hist : m .ist = true) (hotp : m .otp = true) (hreg : m .reg = true) (hrope : m .rope = true) (hspBus : m .spBus = true) (hstore : m .store = true) (htherm : m .therm = true) (hmem : m .mem = true) (harray : m .array = true) (hshadow : m .shadow = true) (hram : m .ram = true) (hwords : m .words = true) (s : State) : ∀ a1 a2 a3, keepOut m (execAonPowerOnReset a1 a2 a3 s) = some (s.keep m) := by
  intro a1 a2 a3
  simp only [execAonPowerOnReset, keep_ite, ite_self, keepOut_next, keepOut_ite, keep_powerOn, keep_powerOff, keep_modPwr, hanch, hbus, hclk, hcons, hdma, hdrawLim, hfacet, hist, hotp, hreg, hrope, hspBus, hstore, htherm, hmem, harray, hshadow, hram, hwords]

theorem keep_execBootStepTimeout (s : State) : keepOut m (execBootStepTimeout s) = some (s.keep m) := by
  simp only [execBootStepTimeout, ite_self, keepOut_next, keepOut_ite, keep_bootFail]

theorem keep_execCairnRecordWritten (hanch : m .anch = true) (hbus : m .bus = true) (hclk : m .clk = true) (hcons : m .cons = true) (hdma : m .dma = true) (hdrawLim : m .drawLim = true) (hfacet : m .facet = true) (hist : m .ist = true) (hotp : m .otp = true) (hreg : m .reg = true) (hrope : m .rope = true) (hspBus : m .spBus = true) (hstore : m .store = true) (htherm : m .therm = true) (hmem : m .mem = true) (harray : m .array = true) (hshadow : m .shadow = true) (hram : m .ram = true) (hwords : m .words = true) (s : State) : keepOut m (execCairnRecordWritten s) = some (s.keep m) := by
  unfold execCairnRecordWritten
  repeat' first
    | with_reducible rfl
    | (simp only [keep_ite, ite_self, implies_true, true_or, or_true, and_self, keepOut_next, keepOut_ite, keep_domainsOff, keep_writeCairn, keep_powerOff, keep_enterState, keep_outputsSafe, keep_beginSequence, keep_modPwr, keep_modPers, hanch, hbus, hclk, hcons, hdma, hdrawLim, hfacet, hist, hotp, hreg, hrope, hspBus, hstore, htherm, hmem, harray, hshadow, hram, hwords]; done)
    | split
    | simp only [keep_ite, ite_self, implies_true, true_or, or_true, and_self, keepOut_next, keepOut_ite, keep_domainsOff, keep_writeCairn, keep_powerOff, keep_enterState, keep_outputsSafe, keep_beginSequence, keep_modPwr, keep_modPers, hanch, hbus, hclk, hcons, hdma, hdrawLim, hfacet, hist, hotp, hreg, hrope, hspBus, hstore, htherm, hmem, harray, hshadow, hram, hwords]

theorem keep_execCrystalStart (hclk : m .clk = true) (s : State) : ∀ a1, keepOut m (execCrystalStart a1 s) = some (s.keep m) := by
  intro a1
  simp only [execCrystalStart, ite_self, keepOut_next, keepOut_ite, keep_bootFail, keep_endStep, keep_modClk, hclk]

theorem keep_ringOverride (s : State) : (ringOverride s).keep m = s.keep m := by
  simp only [ringOverride, keep_ite, ite_self, keep_modRing]

theorem keep_loadShadow (hotp : m .otp = true) (hshadow : m .shadow = true) (s : State) : (loadShadow s).keep m = s.keep m := by
  simp only [loadShadow, implies_true, true_or, or_true, and_self, keep_modOtp, hotp, hshadow]

theorem keep_execOtpShadowLoad (hclk : m .clk = true) (hotp : m .otp = true) (hshadow : m .shadow = true) (s : State) : keepOut m (execOtpShadowLoad s) = some (s.keep m) := by
  simp only [execOtpShadowLoad, keep_ite, ite_self, keepOut_next, keepOut_ite, keep_ringOverride, keep_endStep, keep_applyTrims, keep_setOperate, keep_raise, keep_loadShadow, keep_modBoot, hclk, hotp, hshadow]

theorem keep_pllFailed (s : State) : ∀ a1, (pllFailed a1 s).keep m = s.keep m := by
  intro a1
  simp only [pllFailed, keep_ite, ite_self, keep_bootFail]

theorem keep_lockAttempt (hclk : m .clk = true) (s : State) : ∀ a1 a2 a3, (lockAttempt a1 a2 a3 s).keep m = s.keep m := by
  intro a1 a2 a3
  simp only [lockAttempt, keep_ite, ite_self, keep_setsBit, keep_modClk, hclk]

theorem keep_execPllLockAttemptTimeout (hclk : m .clk = true) (s : State) : ∀ a1 a2 a3, keepOut m (execPllLockAttemptTimeout a1 a2 a3 s) = some (s.keep m) := by
  intro a1 a2 a3
  simp only [execPllLockAttemptTimeout, ite_self, keepOut_next, keepOut_ite, keep_pllFailed, keep_lockAttempt, hclk]

theorem keep_noteLinks (s : State) : (noteLinks s).keep m = s.keep m := by
  simp only [noteLinks, keep_ite, ite_self, keep_modBoot]

theorem keep_noteStep8 (s : State) : (noteStep8 s).keep m = s.keep m := by
  simp only [noteStep8, keep_ite, ite_self, keep_endStep, keep_allLasersLow]

theorem keep_pllLocked (hclk : m .clk = true) (s : State) : ∀ a1, (pllLocked a1 s).keep m = s.keep m := by
  intro a1
  simp only [pllLocked, keep_ite, ite_self, keep_noteLinks, keep_endStep, keep_noteStep8, keep_modClk, hclk]

theorem keep_expRelock (s : State) : ∀ a1, (expRelock a1 s).keep m = s.keep m := by
  intro a1
  simp only [expRelock, keep_ite, ite_self, implies_true, keep_foldl, keep_unblank]

theorem keep_execPllLockDeclared (hclk : m .clk = true) (s : State) : ∀ a1 a2 a3, keepOut m (execPllLockDeclared a1 a2 a3 s) = some (s.keep m) := by
  intro a1 a2 a3
  simp only [execPllLockDeclared, keep_ite, ite_self, keepOut_next, keepOut_ite, keep_pllLocked, keep_pllFailed, keep_condOff, keep_expRelock, keep_lockAttempt, hclk]

theorem keep_execPowerReturnReset (hanch : m .anch = true) (hbus : m .bus = true) (hclk : m .clk = true) (hcons : m .cons = true) (hdma : m .dma = true) (hdrawLim : m .drawLim = true) (hfacet : m .facet = true) (hist : m .ist = true) (hotp : m .otp = true) (hreg : m .reg = true) (hrope : m .rope = true) (hspBus : m .spBus = true) (hstore : m .store = true) (htherm : m .therm = true) (hmem : m .mem = true) (harray : m .array = true) (hshadow : m .shadow = true) (hram : m .ram = true) (hwords : m .words = true) (s : State) : ∀ a1 a2, keepOut m (execPowerReturnReset a1 a2 s) = some (s.keep m) := by
  intro a1 a2
  unfold execPowerReturnReset
  repeat' first
    | with_reducible rfl
    | (simp only [keep_ite, ite_self, implies_true, true_or, or_true, and_self, keepOut_next, keepOut_ite, keep_powerOn, hanch, hbus, hclk, hcons, hdma, hdrawLim, hfacet, hist, hotp, hreg, hrope, hspBus, hstore, htherm, hmem, harray, hshadow, hram, hwords]; done)
    | split
    | simp only [keep_ite, ite_self, implies_true, true_or, or_true, and_self, keepOut_next, keepOut_ite, keep_powerOn, hanch, hbus, hclk, hcons, hdma, hdrawLim, hfacet, hist, hotp, hreg, hrope, hspBus, hstore, htherm, hmem, harray, hshadow, hram, hwords]

theorem keep_execPowerUpCalibration (s : State) : ∀ a1, keepOut m (execPowerUpCalibration a1 s) = some (s.keep m) := by
  intro a1
  simp only [execPowerUpCalibration, keep_ite, ite_self, keepOut_next, keepOut_ite, keep_endStep, keep_raise, keep_modFreeCtr, keep_modBoot]

theorem keep_execRingEnumeration (s : State) : ∀ a1, keepOut m (execRingEnumeration a1 s) = some (s.keep m) := by
  intro a1
  unfold execRingEnumeration
  repeat' first
    | with_reducible rfl
    | (simp only [keep_ite, ite_self, implies_true, true_or, or_true, and_self, keepOut_next, keepOut_ite, keep_enumerate, keep_enumSync]; done)
    | split
    | simp only [keep_ite, ite_self, implies_true, true_or, or_true, and_self, keepOut_next, keepOut_ite, keep_enumerate, keep_enumSync]

theorem keep_execSectionLoad (hanch : m .anch = true) (hbus : m .bus = true) (hclk : m .clk = true) (hcons : m .cons = true) (hdrawLim : m .drawLim = true) (hrope : m .rope = true) (hspBus : m .spBus = true) (hstore : m .store = true) (hmem : m .mem = true) (hwords : m .words = true) (s : State) : ∀ a1 a2 a3, keepOut m (execSectionLoad a1 a2 a3 s) = some (s.keep m) := by
  intro a1 a2 a3
  simp only [execSectionLoad, ite_self, keepOut_next, keepOut_ite, keep_takeSection, hanch, hbus, hclk, hcons, hdrawLim, hrope, hspBus, hstore, hmem, hwords]

theorem keep_execSignatureVerification (hanch : m .anch = true) (hbus : m .bus = true) (hclk : m .clk = true) (hdrawLim : m .drawLim = true) (hrope : m .rope = true) (hspBus : m .spBus = true) (hstore : m .store = true) (hmem : m .mem = true) (hwords : m .words = true) (s : State) : ∀ a1, keepOut m (execSignatureVerification a1 s) = some (s.keep m) := by
  intro a1
  unfold execSignatureVerification
  repeat' first
    | with_reducible rfl
    | (simp only [keep_ite, ite_self, implies_true, true_or, or_true, and_self, keepOut_next, keepOut_ite, keep_imageFail, keep_endStep, keep_startStep7, keep_modBoot, hanch, hbus, hclk, hdrawLim, hrope, hspBus, hstore, hmem, hwords]; done)
    | split
    | simp only [keep_ite, ite_self, implies_true, true_or, or_true, and_self, keepOut_next, keepOut_ite, keep_imageFail, keep_endStep, keep_startStep7, keep_modBoot, hanch, hbus, hclk, hdrawLim, hrope, hspBus, hstore, hmem, hwords]

theorem keep_execSlotHeaderRead (hanch : m .anch = true) (hbus : m .bus = true) (hclk : m .clk = true) (hdrawLim : m .drawLim = true) (hrope : m .rope = true) (hspBus : m .spBus = true) (hstore : m .store = true) (hmem : m .mem = true) (hwords : m .words = true) (s : State) : ∀ a1 a2, keepOut m (execSlotHeaderRead a1 a2 s) = some (s.keep m) := by
  intro a1 a2
  simp only [execSlotHeaderRead, ite_self, keepOut_next, keepOut_ite, keep_bootFail, keep_startStep6, keep_endStep, keep_modBoot, hanch, hbus, hclk, hdrawLim, hrope, hspBus, hstore, hmem, hwords]

theorem keep_execStageLinkRetrainTimer (s : State) : ∀ a1, keepOut m (execStageLinkRetrainTimer a1 s) = some (s.keep m) := by
  intro a1
  simp only [execStageLinkRetrainTimer, ite_self, keepOut_next, keepOut_ite, keep_startTraining]

theorem keep_noteStep11 (s : State) : (noteStep11 s).keep m = s.keep m := by
  simp only [noteStep11, keep_ite, ite_self, keep_finishBoot, keep_endStep]

theorem keep_execStageLinkTraining (s : State) : ∀ a1 a2, keepOut m (execStageLinkTraining a1 a2 s) = some (s.keep m) := by
  intro a1 a2
  simp only [execStageLinkTraining, keep_ite, ite_self, keepOut_next, keepOut_ite, keep_bootFail, keep_optMissing, keep_noteStep11, keep_raise, keep_atStage]

theorem keep_reject (s : State) : ∀ a1 a2, (reject a1 a2 s).keep m = s.keep m := by
  intro a1 a2
  simp only [reject, keep_complete, keep_State_useFree]

theorem keep_message (a1 : MsgHdr) (a2 : State → Bool) (a3 : State → Bool) (a4 : State → Bool) (a5 : MsgRef → State → State) (hf : ∀ r s, State.keep m (a5 r s) = State.keep m s) (s : State) : (message a1 a2 a3 a4 a5 s).keep m = s.keep m := by
  simp only [message, keep_ite, ite_self, keep_reject, keep_modHost, hf]

theorem keep_logStore (hstore : m .store = true) (s : State) : ∀ a1 a2 a3 a4, (logStore a1 a2 a3 a4 s).keep m = s.keep m := by
  intro a1 a2 a3 a4
  refine keep_modStore _ _ hstore (.inr fun t => ?_)
  repeat' split
  all_goals rfl

theorem keep_remapLine (hstore : m .store = true) (s : State) : ∀ a1 a2 a3 a4, (remapLine a1 a2 a3 a4 s).keep m = s.keep m := by
  intro a1 a2 a3 a4
  unfold remapLine
  repeat' first
    | with_reducible rfl
    | (simp only [keep_ite, ite_self, implies_true, true_or, or_true, and_self, keep_logStore, keep_setsBit, keep_raise, keep_modStore, hstore]; done)
    | split
    | simp only [keep_ite, ite_self, implies_true, true_or, or_true, and_self, keep_logStore, keep_setsBit, keep_raise, keep_modStore, hstore]

theorem keep_notePage (hstore : m .store = true) (s : State) : ∀ a1, (notePage a1 s).keep m = s.keep m := by
  intro a1
  simp only [notePage, keep_ite, ite_self, implies_true, or_true, keep_raise, keep_modStore, hstore]

theorem keep_correctedWord (hstore : m .store = true) (s : State) : ∀ a1 a2 a4, (correctedWord a1 a2 s a4).keep m = s.keep m := by
  intro a1 a2 a4
  simp only [correctedWord, implies_true, or_true, keep_countLife, keep_logStore, keep_notePage, keep_modStore, hstore]

theorem keep_corrected (hstore : m .store = true) (s : State) : ∀ a1 a2 a3 a4 a5 a6, (corrected a1 a2 a3 a4 a5 a6 s).keep m = s.keep m := by
  intro a1 a2 a3 a4 a5 a6
  simp only [corrected, keep_ite, ite_self, implies_true, keep_foldl, keep_remapLine, keep_correctedWord, hstore]

theorem keep_poisonLine (hstore : m .store = true) (s : State) : ∀ a1, (poisonLine a1 s).keep m = s.keep m := by
  intro a1
  simp only [poisonLine, implies_true, or_true, keep_modStore, hstore]

theorem keep_uncorrected (hstore : m .store = true) (s : State) : ∀ a1 a2 a3 a4 a5 a6, (uncorrected a1 a2 a3 a4 a5 a6 s).keep m = s.keep m := by
  intro a1 a2 a3 a4 a5 a6
  simp only [uncorrected, keep_ite, ite_self, implies_true, or_true, keep_foldl, keep_poisonLine, keep_countLife, keep_remapLine, keep_correctedWord, keep_logStore, keep_modStore, hstore]

theorem keep_readLine (hstore : m .store = true) (s : State) : ∀ a1 a2 a3, (readLine a1 a2 a3 s).1.keep m = s.keep m := by
  intro a1 a2 a3
  unfold readLine
  repeat' first
    | with_reducible rfl
    | (simp only [keep_ite, ite_self, implies_true, true_or, or_true, and_self, keep_logStore, keep_corrected, keep_uncorrected, hstore]; done)
    | split
    | simp only [keep_ite, ite_self, implies_true, true_or, or_true, and_self, keep_logStore, keep_corrected, keep_uncorrected, hstore]

theorem keep_lineWrite (hstore : m .store = true) (hmem : m .mem = true) (s : State) : ∀ a1 a2 a3, (lineWrite a1 a2 a3 s).keep m = s.keep m := by
  intro a1 a2 a3
  simp only [lineWrite, true_or, keep_modStore, hstore, hmem]

theorem keep_flushEntry (hstore : m .store = true) (hmem : m .mem = true) (s : State) : ∀ a1 a2, (flushEntry a1 a2 s).keep m = s.keep m := by
  intro a1 a2
  unfold flushEntry
  repeat' first
    | with_reducible rfl
    | (simp only [keep_ite, ite_self, implies_true, true_or, or_true, and_self, keep_readLine, keep_lineWrite, keep_raise, keep_modStore, hstore, hmem]; done)
    | split
    | simp only [keep_ite, ite_self, implies_true, true_or, or_true, and_self, keep_readLine, keep_lineWrite, keep_raise, keep_modStore, hstore, hmem]

theorem keep_forceFlush (hstore : m .store = true) (hmem : m .mem = true) (s : State) : (forceFlush s).keep m = s.keep m := by
  simp only [forceFlush, keep_flushEntry, keep_modFreeCtr, hstore, hmem]

theorem keep_mergeJoin (hstore : m .store = true) (hmem : m .mem = true) (s : State) : ∀ a1 a2 a3 a4, (mergeJoin a1 a2 a3 a4 s).keep m = s.keep m := by
  intro a1 a2 a3 a4
  unfold mergeJoin
  repeat' first
    | with_reducible rfl
    | (simp only [keep_ite, ite_self, implies_true, true_or, or_true, and_self, keep_flushEntry, keep_modStore, hstore, hmem]; done)
    | split
    | simp only [keep_ite, ite_self, implies_true, true_or, or_true, and_self, keep_flushEntry, keep_modStore, hstore, hmem]

theorem keep_mergeWrite (hstore : m .store = true) (hmem : m .mem = true) (s : State) : ∀ a1 a2 a3, (mergeWrite a1 a2 a3 s).keep m = s.keep m := by
  intro a1 a2 a3
  unfold mergeWrite
  repeat' first
    | with_reducible rfl
    | (simp only [keep_ite, ite_self, implies_true, true_or, or_true, and_self, keep_forceFlush, keep_mergeJoin, keep_modStore, hstore, hmem]; done)
    | split
    | simp only [keep_ite, ite_self, implies_true, true_or, or_true, and_self, keep_forceFlush, keep_mergeJoin, keep_modStore, hstore, hmem]

theorem keep_storeWriteFrom (hstore : m .store = true) (hmem : m .mem = true) (s : State) : ∀ a1 a2 a3 a4 a5, (storeWriteFrom a1 a2 a3 a4 a5 s).keep m = s.keep m := by
  intro a1 a2 a3 a4 a5
  induction a3 generalizing s a1 a2 a4 a5 with
  | zero => exact (by (intros; unfold storeWriteFrom; repeat' first | with_reducible rfl | (simp only [keep_ite, ite_self, implies_true, true_or, or_true, and_self, keep_mergeWrite, keep_lineWrite, hstore, hmem]; done) | split))
  | succ k ih =>
    unfold storeWriteFrom
    repeat' first
      | with_reducible rfl
      | (simp only [keep_ite, ite_self, implies_true, true_or, or_true, and_self, ih, keep_mergeWrite, keep_lineWrite, hstore, hmem]; done)
      | split
      | simp only [keep_ite, ite_self, implies_true, true_or, or_true, and_self, ih, keep_mergeWrite, keep_lineWrite, hstore, hmem]

theorem keep_storePut (hstore : m .store = true) (hmem : m .mem = true) (s : State) : ∀ a1 a2 a3, (storePut a1 a2 a3 s).keep m = s.keep m := by
  intro a1 a2 a3
  simp only [storePut, keep_storeWriteFrom, hstore, hmem]

theorem keep_storeWrite (hstore : m .store = true) (hmem : m .mem = true) (s : State) : ∀ a1 a2, (storeWrite a1 a2 s).keep m = s.keep m := by
  intro a1 a2
  simp only [storeWrite, keep_storePut, hstore, hmem]

theorem keep_jobWriteFrom (hstore : m .store = true) (hmem : m .mem = true) (s : State) : ∀ a1 a2 a3 a4, (jobWriteFrom a1 a2 a3 a4 s).keep m = s.keep m := by
  intro a1 a2 a3 a4
  induction a2 generalizing s a1 a3 a4 with
  | zero => exact (by (intros; unfold jobWriteFrom; repeat' first | with_reducible rfl | (simp only [keep_ite, ite_self, implies_true, true_or, or_true, and_self, keep_storeWrite, hstore, hmem]; done) | split))
  | succ k ih =>
    unfold jobWriteFrom
    repeat' first
      | with_reducible rfl
      | (simp only [keep_ite, ite_self, implies_true, true_or, or_true, and_self, ih, keep_storeWrite, hstore, hmem]; done)
      | split
      | simp only [keep_ite, ite_self, implies_true, true_or, or_true, and_self, ih, keep_storeWrite, hstore, hmem]

theorem keep_jobWrite (hstore : m .store = true) (hmem : m .mem = true) (s : State) : ∀ a1 a2 a3, (jobWrite a1 a2 a3 s).keep m = s.keep m := by
  intro a1 a2 a3
  simp only [jobWrite, keep_jobWriteFrom, hstore, hmem]

theorem keep_readMerged (hstore : m .store = true) (hmem : m .mem = true) (s : State) : ∀ a1 a2 a3, (readMerged a1 a2 a3 s).1.keep m = s.keep m := by
  intro a1 a2 a3
  unfold readMerged
  repeat' first
    | with_reducible rfl
    | (simp only [keep_ite, ite_self, implies_true, true_or, or_true, and_self, keep_readLine, keep_flushEntry, hstore, hmem]; done)
    | split
    | simp only [keep_ite, ite_self, implies_true, true_or, or_true, and_self, keep_readLine, keep_flushEntry, hstore, hmem]

theorem keep_readLines (hstore : m .store = true) (hmem : m .mem = true) (s : State) : ∀ a1 a2 a3, (readLines a1 a2 a3 s).1.keep m = s.keep m := by
  intro a1 a2 a3
  induction a3 generalizing s a1 a2 with
  | nil => intros; rfl
  | cons x r ih =>
    unfold readLines
    repeat' first
      | with_reducible rfl
      | (simp only [keep_ite, ite_self, implies_true, true_or, or_true, and_self, ih, keep_readMerged, hstore, hmem]; done)
      | split
      | simp only [keep_ite, ite_self, implies_true, true_or, or_true, and_self, ih, keep_readMerged, hstore, hmem]

theorem keep_retirePage (hstore : m .store = true) (s : State) : ∀ a1, (retirePage a1 s).keep m = s.keep m := by
  intro a1
  simp only [retirePage, implies_true, or_true, keep_modStore, hstore]

theorem keep_giveBack (s : State) : ∀ a1 a2 a3, (giveBack a1 a2 a3 s).keep m = s.keep m := by
  intro a1 a2 a3
  simp only [giveBack, keep_modJobs]

theorem keep_feedUnitCmp (s : State) : ∀ a2, (feedUnitCmp s a2).keep m = s.keep m := by
  intro a2
  unfold feedUnitCmp
  repeat' first
    | with_reducible rfl
    | (simp only [keep_ite, ite_self, implies_true, true_or, or_true, and_self, keep_modHost]; done)
    | split
    | simp only [keep_ite, ite_self, implies_true, true_or, or_true, and_self, keep_modHost]

theorem keep_feedCompressors (s : State) : (feedCompressors s).keep m = s.keep m := by
  simp only [feedCompressors, implies_true, keep_foldl, keep_feedUnitCmp]

theorem keep_freeCompressor (s : State) : ∀ a1, (freeCompressor a1 s).keep m = s.keep m := by
  intro a1
  simp only [freeCompressor, keep_feedCompressors, keep_modHost]

theorem keep_dropFrame (s : State) : ∀ a1, (dropFrame a1 s).keep m = s.keep m := by
  intro a1
  simp only [dropFrame, keep_releaseEntries, keep_giveBack, keep_releaseData, keep_freeCompressor, keep_modJobs]

theorem keep_abandonFrames (s : State) : ∀ a1, (abandonFrames a1 s).keep m = s.keep m := by
  intro a1
  simp only [abandonFrames, implies_true, keep_foldl, keep_dropFrame]

theorem keep_closeJob (s : State) : ∀ a1, (closeJob a1 s).keep m = s.keep m := by
  intro a1
  simp only [closeJob, keep_releaseEntries, keep_State_modJob, keep_releaseData]

theorem keep_commit (hstore : m .store = true) (hmem : m .mem = true) (s : State) : ∀ a1 a2 a3, (commit a1 a2 a3 s).keep m = s.keep m := by
  intro a1 a2 a3
  simp only [commit, keep_completeWith, keep_jobWrite, keep_State_modFrame, keep_giveBack, keep_State_modJob, keep_releasePages, keep_freeCompressor, hstore, hmem]

theorem keep_quotaSet (s : State) : ∀ a1 a2, (quotaSet a1 a2 s).keep m = s.keep m := by
  intro a1 a2
  unfold quotaSet
  repeat' first
    | with_reducible rfl
    | (simp only [keep_ite, ite_self, implies_true, true_or, or_true, and_self, keep_reject, keep_noteQuota, keep_State_modJob, keep_complete, keep_message]; done)
    | (refine keep_message _ _ _ _ _ ?_ _; intro r s)
    | split
    | simp only [keep_ite, ite_self, implies_true, true_or, or_true, and_self, keep_reject, keep_noteQuota, keep_State_modJob, keep_complete, keep_message]

theorem keep_reserve (s : State) : ∀ a1 a2 a3 a4 a5 a6 a7, (reserve a1 a2 a3 a4 a5 a6 a7 s).keep m = s.keep m := by
  intro a1 a2 a3 a4 a5 a6 a7
  simp only [reserve, keep_noteQuota, keep_State_modJob, keep_modJobs]

theorem keep_framePut (s : State) : ∀ a1 a2 a3 a4 a5 a6 a7 a8, (framePut a1 a2 a3 a4 a5 a6 a7 a8 s).keep m = s.keep m := by
  intro a1 a2 a3 a4 a5 a6 a7 a8
  unfold framePut
  repeat' first
    | with_reducible rfl
    | (simp only [keep_ite, ite_self, implies_true, true_or, or_true, and_self, keep_completeWith, keep_reserve, keep_feedCompressors, keep_reject, keep_message, keep_modHost]; done)
    | (refine keep_message _ _ _ _ _ ?_ _; intro r s)
    | split
    | simp only [keep_ite, ite_self, implies_true, true_or, or_true, and_self, keep_completeWith, keep_reserve, keep_feedCompressors, keep_reject, keep_message, keep_modHost]

theorem keep_forgetMarks (hreg : m .reg = true) (s : State) : ∀ a1, (forgetMarks a1 s).keep m = s.keep m := by
  intro a1
  simp only [forgetMarks, keep_ite, ite_self, keep_modReg, hreg]

theorem keep_jobOpen (hreg : m .reg = true) (s : State) : ∀ a1 a2 a3 a4 a5, (jobOpen a1 a2 a3 a4 a5 s).keep m = s.keep m := by
  intro a1 a2 a3 a4 a5
  simp only [jobOpen, keep_ite, ite_self, implies_true, keep_forgetMarks, keep_reject, keep_complete, keep_message, keep_modJobs, hreg]

theorem keep_jobClose (s : State) : ∀ a1 a2, (jobClose a1 a2 s).keep m = s.keep m := by
  intro a1 a2
  simp only [jobClose, keep_ite, ite_self, implies_true, keep_closeJob, keep_reject, keep_complete, keep_message, keep_modJobs]

theorem keep_rejectCommit (s : State) : ∀ a1 a2, (rejectCommit a1 a2 s).keep m = s.keep m := by
  intro a1 a2
  simp only [rejectCommit, keep_reject, keep_dropFrame]

theorem keep_frameCommit (hstore : m .store = true) (hmem : m .mem = true) (s : State) : ∀ a1 a2 a3, (frameCommit a1 a2 a3 s).keep m = s.keep m := by
  intro a1 a2 a3
  unfold frameCommit
  repeat' first
    | with_reducible rfl
    | (simp only [keep_ite, ite_self, implies_true, true_or, or_true, and_self, keep_rejectCommit, keep_commit, hstore, hmem]; done)
    | split
    | simp only [keep_ite, ite_self, implies_true, true_or, or_true, and_self, keep_rejectCommit, keep_commit, hstore, hmem]

theorem keep_execFrameCommit (hstore : m .store = true) (hmem : m .mem = true) (s : State) : ∀ a1 a2 a3, keepOut m (execFrameCommit a1 a2 a3 s) = some (s.keep m) := by
  intro a1 a2 a3
  simp only [execFrameCommit, keepOut_next, keep_frameCommit, hstore, hmem]

theorem keep_execFramePut (s : State) : ∀ a1 a2 a3 a4 a5 a6 a7, keepOut m (execFramePut a1 a2 a3 a4 a5 a6 a7 s) = some (s.keep m) := by
  intro a1 a2 a3 a4 a5 a6 a7
  simp only [execFramePut, keepOut_next, keep_framePut]

theorem keep_execFramePutRaw (s : State) : ∀ a1 a2 a3 a4 a5 a6 a7, keepOut m (execFramePutRaw a1 a2 a3 a4 a5 a6 a7 s) = some (s.keep m) := by
  intro a1 a2 a3 a4 a5 a6 a7
  simp only [execFramePutRaw, keepOut_next, keep_framePut]

theorem keep_execJobClose (s : State) : ∀ a1 a2, keepOut m (execJobClose a1 a2 s) = some (s.keep m) := by
  intro a1 a2
  simp only [execJobClose, keepOut_next, keep_jobClose]

theorem keep_execJobOpen (hreg : m .reg = true) (s : State) : ∀ a1 a2 a3 a4 a5, keepOut m (execJobOpen a1 a2 a3 a4 a5 s) = some (s.keep m) := by
  intro a1 a2 a3 a4 a5
  simp only [execJobOpen, keepOut_next, keep_jobOpen, hreg]

theorem keep_execQuotaSet (s : State) : ∀ a1 a2, keepOut m (execQuotaSet a1 a2 s) = some (s.keep m) := by
  intro a1 a2
  simp only [execQuotaSet, keepOut_next, keep_quotaSet]

theorem keep_modQ (s : State) : ∀ a1 a2, (modQ a1 a2 s).keep m = s.keep m := by
  intro a1 a2
  simp only [modQ, keep_modHost]

theorem keep_doorbell (s : State) : ∀ a1 a2 a3, (doorbell a1 a2 a3 s).keep m = s.keep m := by
  intro a1 a2 a3
  simp only [doorbell, keep_ite, ite_self, keep_setsBit, keep_modQ, keep_raise]

theorem keep_drainEvents (s : State) : ∀ a1, (drainEvents a1 s).keep m = s.keep m := by
  intro a1
  induction a1 generalizing s with
  | zero => exact (by (intros; unfold drainEvents; repeat' first | with_reducible rfl | (simp only [keep_ite, ite_self, implies_true, true_or, or_true, and_self, keep_putCompletion, keep_modHost]; done) | split))
  | succ k ih =>
    unfold drainEvents
    repeat' first
      | with_reducible rfl
      | (simp only [keep_ite, ite_self, implies_true, true_or, or_true, and_self, ih, keep_putCompletion, keep_modHost]; done)
      | split
      | simp only [keep_ite, ite_self, implies_true, true_or, or_true, and_self, ih, keep_putCompletion, keep_modHost]

theorem keep_execCoalesceTimerExpiry (s : State) : ∀ a1, keepOut m (execCoalesceTimerExpiry a1 s) = some (s.keep m) := by
  intro a1
  simp only [execCoalesceTimerExpiry, keep_ite, ite_self, keepOut_next, keepOut_ite, keep_sendMsix, keep_modQ]

theorem keep_execCompletionQueueHeadWrite (s : State) : ∀ a1 a2, keepOut m (execCompletionQueueHeadWrite a1 a2 s) = some (s.keep m) := by
  intro a1 a2
  simp only [execCompletionQueueHeadWrite, keepOut_next, keep_doorbell]

theorem keep_execCompletionWriteResumed (s : State) : ∀ a1, keepOut m (execCompletionWriteResumed a1 s) = some (s.keep m) := by
  intro a1
  unfold execCompletionWriteResumed
  repeat' first
    | with_reducible rfl
    | (simp only [keep_ite, ite_self, implies_true, true_or, or_true, and_self, keepOut_next, keepOut_ite, keep_putCompletion, keep_modQ]; done)
    | split
    | simp only [keep_ite, ite_self, implies_true, true_or, or_true, and_self, keepOut_next, keepOut_ite, keep_putCompletion, keep_modQ]

theorem keep_execD3hotEntry (s : State) : keepOut m (execD3hotEntry s) = some (s.keep m) := by
  simp only [execD3hotEntry, keep_ite, ite_self, keepOut_next, keep_modHost]

theorem keep_execD3hotExit (s : State) : keepOut m (execD3hotExit s) = some (s.keep m) := by
  simp only [execD3hotExit, keepOut_next, keep_modHost]

theorem keep_execEventFifoDrain (s : State) : keepOut m (execEventFifoDrain s) = some (s.keep m) := by
  simp only [execEventFifoDrain, ite_self, keepOut_next, keepOut_ite, keep_writeLost, keep_drainEvents]

theorem keep_resetMsix (s : State) : (resetMsix s).keep m = s.keep m := by
  simp only [resetMsix, keep_modHost]

theorem keep_hostLinkReset (hdma : m .dma = true) (s : State) : (hostLinkReset s).keep m = s.keep m := by
  simp only [hostLinkReset, keep_ite, ite_self, implies_true, or_true, keep_abandonFrames, keep_raise, keep_resetMsix, keep_modDma, keep_modHost, hdma]

theorem keep_execHostLinkReset (hdma : m .dma = true) (s : State) : ∀ a1, keepOut m (execHostLinkReset a1 s) = some (s.keep m) := by
  intro a1
  unfold execHostLinkReset
  repeat' first
    | with_reducible rfl
    | (simp only [keep_ite, ite_self, implies_true, true_or, or_true, and_self, keepOut_next, keepOut_ite, keep_hostLinkReset, hdma]; done)
    | split
    | simp only [keep_ite, ite_self, implies_true, true_or, or_true, and_self, keepOut_next, keepOut_ite, keep_hostLinkReset, hdma]

theorem keep_unmaskVector (s : State) : ∀ a1, (unmaskVector a1 s).keep m = s.keep m := by
  intro a1
  simp only [unmaskVector, keep_ite, ite_self, keep_sendMsix, keep_modHost]

theorem keep_execMsixVectorUnmask (s : State) : ∀ a1, keepOut m (execMsixVectorUnmask a1 s) = some (s.keep m) := by
  intro a1
  simp only [execMsixVectorUnmask, keep_ite, ite_self, keepOut_next, keep_unmaskVector]

theorem keep_writeQueueControl (s : State) : ∀ a1 a2, (writeQueueControl a1 a2 s).keep m = s.keep m := by
  intro a1 a2
  simp only [writeQueueControl, keep_ite, ite_self, keep_abandonFrames, keep_modQ]

theorem keep_execQueueControlWrite (s : State) : ∀ a1 a2, keepOut m (execQueueControlWrite a1 a2 s) = some (s.keep m) := by
  intro a1 a2
  simp only [execQueueControlWrite, keep_ite, ite_self, keepOut_next, keep_writeQueueControl]

theorem keep_execSubmissionQueueTailWrite (s : State) : ∀ a1 a2, keepOut m (execSubmissionQueueTailWrite a1 a2 s) = some (s.keep m) := by
  intro a1 a2
  simp only [execSubmissionQueueTailWrite, keepOut_next, keep_doorbell]

end Sys2Proof.Machine
end

