-- ==== Sys2Proof/Laws/Keep3.lean ====
section
/-! SUPPORT. The parts of the state (Laws/Keep.lean) that each operation and each command leaves alone: the modules
Admin, Store, Decoders, Services, RunMsg, Anchor, AuxAxes, Thermal, Clear, Params. A hypothesis names a part that the operation may change. -/

namespace Sys2Proof.Machine

set_option linter.unusedSimpArgs false
set_option maxRecDepth 4000

variable {m : Part → Bool}

theorem keep_ackEntry (s : State) : ∀ a1, (ackEntry a1 s).keep m = s.keep m := by
  intro a1
  simp only [ackEntry, keep_State_modFrame]

theorem keep_ackSpoil (s : State) : (ackSpoil s).keep m = s.keep m := by
  simp only [ackSpoil, implies_true, keep_foldl, keep_releaseEntries, keep_ackEntry, keep_spoilCheck, keep_modJobs]

theorem keep_beginSet (s : State) : ∀ a1 a2, (beginSet a1 a2 s).keep m = s.keep m := by
  intro a1 a2
  simp only [beginSet, keep_modEng]

theorem keep_calibRead (s : State) : ∀ a1 a2 a3, (calibRead a1 a2 a3 s).keep m = s.keep m := by
  intro a1 a2 a3
  simp only [calibRead, implies_true, keep_complete, keep_message, keep_hostWrite, keep_modFreeCtr]

theorem keep_calibWrite (s : State) : ∀ a1 a2 a3, (calibWrite a1 a2 a3 s).keep m = s.keep m := by
  intro a1 a2 a3
  simp only [calibWrite, keep_ite, ite_self, implies_true, keep_reject, keep_complete, keep_message, keep_modBoot]

theorem keep_idleCheck (s : State) : (idleCheck s).keep m = s.keep m := by
  unfold idleCheck
  repeat' first
    | with_reducible rfl
    | (simp only [keep_ite, ite_self, implies_true, true_or, or_true, and_self, keep_enterState, keep_complete, keep_modEng]; done)
    | split
    | simp only [keep_ite, ite_self, implies_true, true_or, or_true, and_self, keep_enterState, keep_complete, keep_modEng]

theorem keep_cancelArming (s : State) : ∀ a1, (cancelArming a1 s).keep m = s.keep m := by
  intro a1
  unfold cancelArming
  repeat' first
    | with_reducible rfl
    | (simp only [keep_ite, ite_self, implies_true, true_or, or_true, and_self, keep_beginSet, keep_idleCheck, keep_complete]; done)
    | split
    | simp only [keep_ite, ite_self, implies_true, true_or, or_true, and_self, keep_beginSet, keep_idleCheck, keep_complete]

theorem keep_execArmTimeout (s : State) : keepOut m (execArmTimeout s) = some (s.keep m) := by
  unfold execArmTimeout
  repeat' first
    | with_reducible rfl
    | (simp only [keep_ite, ite_self, implies_true, true_or, or_true, and_self, keepOut_next, keepOut_ite, keep_enterState, keep_setArmTmo, keep_complete, keep_modEng]; done)
    | split
    | simp only [keep_ite, ite_self, implies_true, true_or, or_true, and_self, keepOut_next, keepOut_ite, keep_enterState, keep_setArmTmo, keep_complete, keep_modEng]

theorem keep_execArmingComplete (s : State) : keepOut m (execArmingComplete s) = some (s.keep m) := by
  simp only [execArmingComplete, keep_ite, ite_self, keepOut_next, keep_enterState]

theorem keep_execCalibRead (s : State) : ∀ a1 a2 a3, keepOut m (execCalibRead a1 a2 a3 s) = some (s.keep m) := by
  intro a1 a2 a3
  simp only [execCalibRead, keepOut_next, keep_calibRead]

theorem keep_execCalibWrite (s : State) : ∀ a1 a2 a3 a4, keepOut m (execCalibWrite a1 a2 a3 a4 s) = some (s.keep m) := by
  intro a1 a2 a3 a4
  simp only [execCalibWrite, keepOut_next, keep_calibWrite]

theorem keep_setRow (s : State) : ∀ a1 a2, (setRow a1 a2 s).keep m = s.keep m := by
  intro a1 a2
  unfold setRow
  repeat' first
    | with_reducible rfl
    | (simp only [keep_ite, ite_self, implies_true, true_or, or_true, and_self, keep_beginSet, keep_shutDown, keep_idleCheck, keep_enterState, keep_reject]; done)
    | split
    | simp only [keep_ite, ite_self, implies_true, true_or, or_true, and_self, keep_beginSet, keep_shutDown, keep_idleCheck, keep_enterState, keep_reject]

theorem keep_stateSet (s : State) : ∀ a1 a2, (stateSet a1 a2 s).keep m = s.keep m := by
  intro a1 a2
  unfold stateSet
  repeat' first
    | with_reducible rfl
    | (simp only [keep_ite, ite_self, implies_true, true_or, or_true, and_self, keep_setRow, keep_reject, keep_cancelArming, keep_message]; done)
    | (refine keep_message _ _ _ _ _ ?_ _; intro r s)
    | split
    | simp only [keep_ite, ite_self, implies_true, true_or, or_true, and_self, keep_setRow, keep_reject, keep_cancelArming, keep_message]

theorem keep_logRead (s : State) : ∀ a1 a2 a3 a4, (logRead a1 a2 a3 a4 s).keep m = s.keep m := by
  intro a1 a2 a3 a4
  simp only [logRead, implies_true, keep_complete, keep_message, keep_hostWrite, keep_modJobs]

theorem keep_faultPinRelease (s : State) : ∀ a1, (faultPinRelease a1 s).keep m = s.keep m := by
  intro a1
  simp only [faultPinRelease, keep_ite, ite_self, implies_true, keep_reject, keep_complete, keep_message, keep_modFlt]

theorem keep_giveResult (s : State) : ∀ a1 a2 a3 a4 a5, (giveResult a1 a2 a3 a4 a5 s).keep m = s.keep m := by
  intro a1 a2 a3 a4 a5
  simp only [giveResult, keep_ite, ite_self, keep_completeWith, keep_reject, keep_hostWrite]

theorem keep_getSpoil (s : State) : ∀ a1 a2 a3, (getSpoil a1 a2 a3 s).keep m = s.keep m := by
  intro a1 a2 a3
  simp only [getSpoil, keep_ite, ite_self, keep_reject, keep_giveResult, keep_modJobs]

theorem keep_getOther (s : State) : ∀ a1 a2 a3 a4, (getOther a1 a2 a3 a4 s).keep m = s.keep m := by
  intro a1 a2 a3 a4
  unfold getOther
  repeat' first
    | with_reducible rfl
    | (simp only [keep_ite, ite_self, implies_true, true_or, or_true, and_self, keep_reject, keep_giveResult, keep_modJobs]; done)
    | split
    | simp only [keep_ite, ite_self, implies_true, true_or, or_true, and_self, keep_reject, keep_giveResult, keep_modJobs]

theorem keep_resultGet (s : State) : ∀ a1 a2 a3 a4, (resultGet a1 a2 a3 a4 s).keep m = s.keep m := by
  intro a1 a2 a3 a4
  simp only [resultGet, keep_ite, ite_self, implies_true, keep_getSpoil, keep_message, keep_getOther]

theorem keep_resultAck (s : State) : ∀ a1 a2, (resultAck a1 a2 s).keep m = s.keep m := by
  intro a1 a2
  unfold resultAck
  repeat' first
    | with_reducible rfl
    | (simp only [keep_ite, ite_self, implies_true, true_or, or_true, and_self, keep_ackSpoil, keep_reject, keep_complete, keep_message, keep_modJobs]; done)
    | (refine keep_message _ _ _ _ _ ?_ _; intro r s)
    | split
    | simp only [keep_ite, ite_self, implies_true, true_or, or_true, and_self, keep_ackSpoil, keep_reject, keep_complete, keep_message, keep_modJobs]

theorem keep_ident (s : State) : ∀ a1 a2 a3, (ident a1 a2 a3 s).keep m = s.keep m := by
  intro a1 a2 a3
  simp only [ident, implies_true, keep_complete, keep_message, keep_hostWrite, keep_modJobs]

theorem keep_execFaultPinPulseEnd (s : State) : keepOut m (execFaultPinPulseEnd s) = some (s.keep m) := by
  simp only [execFaultPinPulseEnd, keepOut_next, keep_modFlt]

theorem keep_execFaultPinRelease (s : State) : ∀ a1, keepOut m (execFaultPinRelease a1 s) = some (s.keep m) := by
  intro a1
  simp only [execFaultPinRelease, keepOut_next, keep_faultPinRelease]

theorem keep_execIdent (s : State) : ∀ a1 a2 a3, keepOut m (execIdent a1 a2 a3 s) = some (s.keep m) := by
  intro a1 a2 a3
  simp only [execIdent, keepOut_next, keep_ident]

theorem keep_execLogRead (s : State) : ∀ a1 a2 a3 a4, keepOut m (execLogRead a1 a2 a3 a4 s) = some (s.keep m) := by
  intro a1 a2 a3 a4
  simp only [execLogRead, keepOut_next, keep_logRead]

theorem keep_execResultAck (s : State) : ∀ a1 a2, keepOut m (execResultAck a1 a2 s) = some (s.keep m) := by
  intro a1 a2
  simp only [execResultAck, keepOut_next, keep_resultAck]

theorem keep_execResultGet (s : State) : ∀ a1 a2 a3 a4, keepOut m (execResultGet a1 a2 a3 a4 s) = some (s.keep m) := by
  intro a1 a2 a3 a4
  simp only [execResultGet, keepOut_next, keep_resultGet]

theorem keep_execStateSet (s : State) : ∀ a1 a2, keepOut m (execStateSet a1 a2 s) = some (s.keep m) := by
  intro a1 a2
  simp only [execStateSet, keepOut_next, keep_stateSet]

theorem keep_bar2WriteFrom (hstore : m .store = true) (hmem : m .mem = true) (s : State) : ∀ a1 a2 a3, (bar2WriteFrom a1 a2 a3 s).keep m = s.keep m := by
  intro a1 a2 a3
  induction a1 generalizing s a2 a3 with
  | zero => exact (by (intros; unfold bar2WriteFrom; repeat' first | with_reducible rfl | (simp only [keep_ite, ite_self, implies_true, true_or, or_true, and_self, keep_storeWrite, hstore, hmem]; done) | split))
  | succ k ih =>
    unfold bar2WriteFrom
    repeat' first
      | with_reducible rfl
      | (simp only [keep_ite, ite_self, implies_true, true_or, or_true, and_self, ih, keep_storeWrite, hstore, hmem]; done)
      | split
      | simp only [keep_ite, ite_self, implies_true, true_or, or_true, and_self, ih, keep_storeWrite, hstore, hmem]

theorem keep_beginMigration (hstore : m .store = true) (s : State) : ∀ a1 a2 a3, (beginMigration a1 a2 a3 s).keep m = s.keep m := by
  intro a1 a2 a3
  simp only [beginMigration, implies_true, or_true, keep_modStore, keep_modHost, hstore]

theorem keep_raiseUe (s : State) : ∀ a1, (raiseUe a1 s).keep m = s.keep m := by
  intro a1
  induction a1 generalizing s with
  | zero => exact (by (intros; unfold raiseUe; repeat' first | with_reducible rfl | (simp only [keep_ite, ite_self, implies_true, true_or, or_true, and_self, keep_raise]; done) | split))
  | succ k ih =>
    unfold raiseUe
    repeat' first
      | with_reducible rfl
      | (simp only [keep_ite, ite_self, implies_true, true_or, or_true, and_self, ih, keep_raise]; done)
      | split
      | simp only [keep_ite, ite_self, implies_true, true_or, or_true, and_self, ih, keep_raise]

theorem keep_consume (hstore : m .store = true) (hmem : m .mem = true) (s : State) : ∀ a1 a2 a3, (consume a1 a2 a3 s).1.keep m = s.keep m := by
  intro a1 a2 a3
  simp only [consume, keep_raiseUe, keep_readLines, hstore, hmem]

theorem keep_countDrop (hstore : m .store = true) (s : State) : (countDrop s).keep m = s.keep m := by
  simp only [countDrop, implies_true, or_true, keep_modStore, hstore]

theorem keep_endMigration (hstore : m .store = true) (s : State) : (endMigration s).keep m = s.keep m := by
  unfold endMigration
  repeat' first
    | with_reducible rfl
    | (simp only [keep_ite, ite_self, implies_true, true_or, or_true, and_self, keep_retirePage, keep_complete, keep_modStore, keep_modJobs, keep_modHost, hstore]; done)
    | split
    | simp only [keep_ite, ite_self, implies_true, true_or, or_true, and_self, keep_retirePage, keep_complete, keep_modStore, keep_modJobs, keep_modHost, hstore]

theorem keep_writeBar2Base (hstore : m .store = true) (s : State) : ∀ a1, (writeBar2Base a1 s).keep m = s.keep m := by
  intro a1
  simp only [writeBar2Base, keep_ite, ite_self, implies_true, or_true, keep_modStore, hstore]

theorem keep_execBar2BaseWrite (hstore : m .store = true) (s : State) : ∀ a1, keepOut m (execBar2BaseWrite a1 s) = some (s.keep m) := by
  intro a1
  simp only [execBar2BaseWrite, keep_ite, ite_self, keepOut_next, keep_writeBar2Base, hstore]

theorem keep_execBar2Read (hstore : m .store = true) (hmem : m .mem = true) (s : State) : ∀ a1 a2 a3, keepOut m (execBar2Read a1 a2 a3 s) = some (s.keep m) := by
  intro a1 a2 a3
  simp only [execBar2Read, ite_self, keepOut_next, keepOut_ite, keep_consume, keep_modFreeCtr, keep_modHost, hstore, hmem]

theorem keep_execBar2Write (hstore : m .store = true) (hmem : m .mem = true) (s : State) : ∀ a1 a2, keepOut m (execBar2Write a1 a2 s) = some (s.keep m) := by
  intro a1 a2
  simp only [execBar2Write, keep_ite, ite_self, keepOut_next, keepOut_ite, keep_countDrop, keep_bar2WriteFrom, hstore, hmem]

theorem keep_retire (hstore : m .store = true) (s : State) : ∀ a1 a2, (retire a1 a2 s).keep m = s.keep m := by
  intro a1 a2
  unfold retire
  repeat' first
    | with_reducible rfl
    | (simp only [keep_ite, ite_self, implies_true, true_or, or_true, and_self, keep_beginMigration, keep_retirePage, keep_reject, keep_complete, hstore]; done)
    | split
    | simp only [keep_ite, ite_self, implies_true, true_or, or_true, and_self, keep_beginMigration, keep_retirePage, keep_reject, keep_complete, hstore]

theorem keep_pageRetire (hstore : m .store = true) (s : State) : ∀ a1 a2, (pageRetire a1 a2 s).keep m = s.keep m := by
  intro a1 a2
  simp only [pageRetire, implies_true, keep_retire, keep_message, hstore]

theorem keep_execMergeBufferFlush (hstore : m .store = true) (hmem : m .mem = true) (s : State) : ∀ a1 a2, keepOut m (execMergeBufferFlush a1 a2 s) = some (s.keep m) := by
  intro a1 a2
  simp only [execMergeBufferFlush, keep_ite, ite_self, keepOut_next, keep_flushEntry, hstore, hmem]

theorem keep_migrateLine (hstore : m .store = true) (hmem : m .mem = true) (e : List (Nat × EccRead)) (x : State × List Nat) (l : Nat) :
    (migrateLine e x l).1.keep m = x.1.keep m := by
  simp only [migrateLine]
  split
  · simp only [keep_raise, keep_readMerged hstore hmem]
  · simp only [keep_readMerged hstore hmem]

theorem keep_migrateTo (hstore : m .store = true) (hmem : m .mem = true) (s : State) : ∀ a1 a2, (migrateTo a1 a2 s).keep m = s.keep m := by
  intro a1 a2
  have h (l : List Nat) (x : State × List Nat) : (l.foldl (migrateLine a2) x).1.keep m = x.1.keep m := by
    induction l generalizing x with
    | nil => rfl
    | cons a l ih => simp only [List.foldl, ih, keep_migrateLine, hstore, hmem]
  simp only [migrateTo, keep_modStore, h, true_or, hstore, hmem]

theorem keep_flushSource (hstore : m .store = true) (hmem : m .mem = true) (s : State) : ∀ a1, (flushSource a1 s).keep m = s.keep m := by
  intro a1
  unfold flushSource
  repeat' first
    | with_reducible rfl
    | (simp only [keep_ite, ite_self, implies_true, true_or, or_true, and_self, keep_foldl, keep_flushEntry, hstore, hmem]; done)
    | (refine keep_foldl _ ?_ _ _; intro s a)
    | split
    | simp only [keep_ite, ite_self, implies_true, true_or, or_true, and_self, keep_foldl, keep_flushEntry, hstore, hmem]

theorem keep_execMigrationComplete (hstore : m .store = true) (hmem : m .mem = true) (s : State) : ∀ a1, keepOut m (execMigrationComplete a1 s) = some (s.keep m) := by
  intro a1
  unfold execMigrationComplete
  repeat' first
    | with_reducible rfl
    | (simp only [keep_ite, ite_self, implies_true, true_or, or_true, and_self, keepOut_next, keepOut_ite, keep_migrateTo, keep_endMigration, keep_flushSource, hstore, hmem]; done)
    | split
    | simp only [keep_ite, ite_self, implies_true, true_or, or_true, and_self, keepOut_next, keepOut_ite, keep_migrateTo, keep_endMigration, keep_flushSource, hstore, hmem]

theorem keep_execPageRetire (hstore : m .store = true) (s : State) : ∀ a1 a2, keepOut m (execPageRetire a1 a2 s) = some (s.keep m) := by
  intro a1 a2
  simp only [execPageRetire, keepOut_next, keep_pageRetire, hstore]

theorem keep_scrubLine (hstore : m .store = true) (hmem : m .mem = true) (s : State) : ∀ a1 a2, (scrubLine a1 a2 s).keep m = s.keep m := by
  intro a1 a2
  unfold scrubLine
  repeat' first
    | with_reducible rfl
    | (simp only [keep_ite, ite_self, implies_true, true_or, or_true, and_self, keep_poisonLine, keep_corrected, keep_flushEntry, keep_raise, keep_uncorrected, keep_modStore, hstore, hmem]; done)
    | split
    | simp only [keep_ite, ite_self, implies_true, true_or, or_true, and_self, keep_poisonLine, keep_corrected, keep_flushEntry, keep_raise, keep_uncorrected, keep_modStore, hstore, hmem]

theorem keep_scrubLap (hstore : m .store = true) (s : State) : (scrubLap s).keep m = s.keep m := by
  simp only [scrubLap, keep_ite, ite_self, implies_true, or_true, keep_raise, keep_modStore, hstore]

theorem keep_scrubNext (hstore : m .store = true) (s : State) : ∀ a1, (scrubNext a1 s).keep m = s.keep m := by
  intro a1
  simp only [scrubNext, keep_ite, ite_self, implies_true, or_true, keep_scrubLap, keep_modStore, hstore]

theorem keep_scrubBurst (hstore : m .store = true) (hmem : m .mem = true) (s : State) : ∀ a1, (scrubBurst a1 s).keep m = s.keep m := by
  intro a1
  simp only [scrubBurst, keep_ite, ite_self, implies_true, or_true, keep_scrubLine, keep_scrubLap, keep_scrubNext, keep_modStore, hstore, hmem]

theorem keep_execScrubBurst (hstore : m .store = true) (hmem : m .mem = true) (s : State) : ∀ a1, keepOut m (execScrubBurst a1 s) = some (s.keep m) := by
  intro a1
  simp only [execScrubBurst, keep_ite, ite_self, keepOut_next, keep_scrubBurst, hstore, hmem]

theorem keep_scrubWriteBack (hstore : m .store = true) (s : State) : (scrubWriteBack s).keep m = s.keep m := by
  unfold scrubWriteBack
  repeat' first
    | with_reducible rfl
    | (simp only [keep_ite, ite_self, implies_true, true_or, or_true, and_self, keep_remapLine, keep_modStore, hstore]; done)
    | split
    | simp only [keep_ite, ite_self, implies_true, true_or, or_true, and_self, keep_remapLine, keep_modStore, hstore]

theorem keep_execScrubWriteBack (hstore : m .store = true) (s : State) : keepOut m (execScrubWriteBack s) = some (s.keep m) := by
  simp only [execScrubWriteBack, keep_ite, ite_self, keepOut_next, keep_scrubWriteBack, hstore]

theorem keep_reportBlank (s : State) : ∀ a1 a2 a3 a4, (reportBlank a1 a2 a3 a4 s).keep m = s.keep m := by
  intro a1 a2 a3 a4
  simp only [reportBlank, keep_ite, ite_self, keep_raise, keep_atDec]

theorem keep_reportResync (s : State) : ∀ a1, (reportResync a1 s).keep m = s.keep m := by
  intro a1
  simp only [reportResync, keep_raise, keep_atDec]

theorem keep_readFor (hstore : m .store = true) (hmem : m .mem = true) (s : State) : ∀ a1 a2 a3 a4, (readFor a1 a2 a3 a4 s).1.keep m = s.keep m := by
  intro a1 a2 a3 a4
  simp only [readFor, keep_consume, hstore, hmem]

theorem keep_finishLine (hstore : m .store = true) (hmem : m .mem = true) (s : State) : ∀ a1 a2 a3 a4 a5 a6, (finishLine a1 a2 a3 a4 a5 a6 s).keep m = s.keep m := by
  intro a1 a2 a3 a4 a5 a6
  unfold finishLine
  repeat' first
    | with_reducible rfl
    | (simp only [keep_ite, ite_self, implies_true, true_or, or_true, and_self, keep_foldl, keep_reportBlank, keep_reportResync, keep_readFor, keep_atDec, hstore, hmem]; done)
    | (refine keep_foldl _ ?_ _ _; intro s a)
    | split
    | simp only [keep_ite, ite_self, implies_true, true_or, or_true, and_self, keep_foldl, keep_reportBlank, keep_reportResync, keep_readFor, keep_atDec, hstore, hmem]

theorem keep_decodeLine (hstore : m .store = true) (hmem : m .mem = true) (s : State) : ∀ a1 a2, (decodeLine a1 a2 s).keep m = s.keep m := by
  intro a1 a2
  unfold decodeLine
  repeat' first
    | with_reducible rfl
    | (simp only [keep_ite, ite_self, implies_true, true_or, or_true, and_self, keep_finishLine, keep_atDec, hstore, hmem]; done)
    | split
    | simp only [keep_ite, ite_self, implies_true, true_or, or_true, and_self, keep_finishLine, keep_atDec, hstore, hmem]

theorem keep_execDecodeLine (hstore : m .store = true) (hmem : m .mem = true) (s : State) : ∀ a1 a2, keepOut m (execDecodeLine a1 a2 s) = some (s.keep m) := by
  intro a1 a2
  simp only [execDecodeLine, keepOut_next, keep_decodeLine, hstore, hmem]

theorem keep_compress (s : State) : ∀ a1 a2, (compress a1 a2 s).keep m = s.keep m := by
  intro a1 a2
  unfold compress
  repeat' first
    | with_reducible rfl
    | (simp only [keep_ite, ite_self, implies_true, true_or, or_true, and_self, keep_feedCompressors, keep_message, keep_modHost]; done)
    | (refine keep_message _ _ _ _ _ ?_ _; intro r s)
    | split
    | simp only [keep_ite, ite_self, implies_true, true_or, or_true, and_self, keep_feedCompressors, keep_message, keep_modHost]

theorem keep_decompress (s : State) : ∀ a1 a2, (decompress a1 a2 s).keep m = s.keep m := by
  intro a1 a2
  unfold decompress
  repeat' first
    | with_reducible rfl
    | (simp only [keep_ite, ite_self, implies_true, true_or, or_true, and_self, keep_message, keep_modHost]; done)
    | (refine keep_message _ _ _ _ _ ?_ _; intro r s)
    | split
    | simp only [keep_ite, ite_self, implies_true, true_or, or_true, and_self, keep_message, keep_modHost]

theorem keep_endDecompress (s : State) : ∀ a1 a2 a3 a4 a5 a6, (endDecompress a1 a2 a3 a4 a5 a6 s).keep m = s.keep m := by
  intro a1 a2 a3 a4 a5 a6
  simp only [endDecompress, keep_ite, ite_self, keep_complete, keep_hostWrite, keep_modJobs, keep_modHost]

theorem keep_decompressAll (s : State) : ∀ a1 a2, (decompressAll a1 a2 s).keep m = s.keep m := by
  intro a1 a2
  simp only [decompressAll, keep_ite, ite_self, keep_endDecompress, keep_modFreeCtr]

theorem keep_endCompress (s : State) : ∀ a1 a2 a3 a4 a5, (endCompress a1 a2 a3 a4 a5 s).keep m = s.keep m := by
  intro a1 a2 a3 a4 a5
  simp only [endCompress, keep_ite, ite_self, keep_feedCompressors, keep_complete, keep_hostWrite, keep_modJobs, keep_modHost]

theorem keep_execCompress (s : State) : ∀ a1 a2, keepOut m (execCompress a1 a2 s) = some (s.keep m) := by
  intro a1 a2
  simp only [execCompress, keepOut_next, keep_compress]

theorem keep_execCompressRun (s : State) : ∀ a1 a2 a3, keepOut m (execCompressRun a1 a2 a3 s) = some (s.keep m) := by
  intro a1 a2 a3
  unfold execCompressRun
  repeat' first
    | with_reducible rfl
    | (simp only [keep_ite, ite_self, implies_true, true_or, or_true, and_self, keepOut_next, keepOut_ite, keep_endCompress]; done)
    | split
    | simp only [keep_ite, ite_self, implies_true, true_or, or_true, and_self, keepOut_next, keepOut_ite, keep_endCompress]

theorem keep_execDecompress (s : State) : ∀ a1 a2, keepOut m (execDecompress a1 a2 s) = some (s.keep m) := by
  intro a1 a2
  simp only [execDecompress, keepOut_next, keep_decompress]

theorem keep_execDecompressRun (s : State) : ∀ a1 a2, keepOut m (execDecompressRun a1 a2 s) = some (s.keep m) := by
  intro a1 a2
  unfold execDecompressRun
  repeat' first
    | with_reducible rfl
    | (simp only [keep_ite, ite_self, implies_true, true_or, or_true, and_self, keepOut_next, keepOut_ite, keep_endDecompress, keep_decompressAll]; done)
    | split
    | simp only [keep_ite, ite_self, implies_true, true_or, or_true, and_self, keepOut_next, keepOut_ite, keep_endDecompress, keep_decompressAll]

theorem keep_applyModify (s : State) : ∀ a1, (applyModify a1 s).keep m = s.keep m := by
  intro a1
  simp only [applyModify, keep_ite, ite_self, keep_reject, keep_complete, keep_modRun]

theorem keep_applyModifies (s : State) : (applyModifies s).keep m = s.keep m := by
  simp only [applyModifies, implies_true, keep_foldl, keep_applyModify, keep_modHost]

theorem keep_regCheck (hreg : m .reg = true) (s : State) : ∀ a1 a2 a3 a4, (regCheck a1 a2 a3 a4 s).keep m = s.keep m := by
  intro a1 a2 a3 a4
  simp only [regCheck, keep_ite, ite_self, keep_raise, keep_atReg, hreg]

theorem keep_beginStretch (hreg : m .reg = true) (s : State) : ∀ a1 a2, (beginStretch a1 a2 s).keep m = s.keep m := by
  intro a1 a2
  simp only [beginStretch, keep_ite, ite_self, keep_State_useFree, keep_modReg, keep_modRun, hreg]

theorem keep_beginWait (s : State) : ∀ a1, (beginWait a1 s).keep m = s.keep m := by
  intro a1
  simp only [beginWait, keep_ite, ite_self, keep_clearDecoders, keep_modHost]

theorem keep_discardRun (s : State) : (discardRun s).keep m = s.keep m := by
  simp only [discardRun, keep_postEvent, keep_modRun]

theorem keep_dropWait (s : State) : ∀ a1 a2, (dropWait a1 a2 s).keep m = s.keep m := by
  intro a1 a2
  simp only [dropWait, keep_reject, keep_modRing, keep_modHost]

theorem keep_regBegin (hreg : m .reg = true) (s : State) : (regBegin s).keep m = s.keep m := by
  simp only [regBegin, implies_true, keep_foldl, keep_regCheck, hreg]

theorem keep_enterRun (hreg : m .reg = true) (s : State) : ∀ a1 a2 a3, (enterRun a1 a2 a3 s).keep m = s.keep m := by
  intro a1 a2 a3
  simp only [enterRun, keep_regBegin, keep_beginStretch, keep_enterState, keep_complete, keep_modRun, keep_modHost, hreg]

theorem keep_runResume (s : State) : ∀ a1 a2 a3, (runResume a1 a2 a3 s).keep m = s.keep m := by
  intro a1 a2 a3
  simp only [runResume, keep_ite, ite_self, implies_true, keep_beginWait, keep_reject, keep_message]

theorem keep_runStart (s : State) : ∀ a1 a2 a3 a4, (runStart a1 a2 a3 a4 s).keep m = s.keep m := by
  intro a1 a2 a3 a4
  unfold runStart
  repeat' first
    | with_reducible rfl
    | (simp only [keep_ite, ite_self, implies_true, true_or, or_true, and_self, keep_beginWait, keep_reject, keep_message]; done)
    | (refine keep_message _ _ _ _ _ ?_ _; intro r s)
    | split
    | simp only [keep_ite, ite_self, implies_true, true_or, or_true, and_self, keep_beginWait, keep_reject, keep_message]

theorem keep_runStopMsg (s : State) : ∀ a1, (runStopMsg a1 s).keep m = s.keep m := by
  intro a1
  unfold runStopMsg
  repeat' first
    | with_reducible rfl
    | (simp only [keep_ite, ite_self, implies_true, true_or, or_true, and_self, keep_discardRun, keep_startHalt, keep_complete, keep_message]; done)
    | (refine keep_message _ _ _ _ _ ?_ _; intro r s)
    | split
    | simp only [keep_ite, ite_self, implies_true, true_or, or_true, and_self, keep_discardRun, keep_startHalt, keep_complete, keep_message]

theorem keep_runModify (s : State) : ∀ a1 a2 a3 a4, (runModify a1 a2 a3 a4 s).keep m = s.keep m := by
  intro a1 a2 a3 a4
  simp only [runModify, keep_ite, ite_self, implies_true, keep_reject, keep_message, keep_modHost]

theorem keep_sendGroup (s : State) : ∀ a1 a2 a3, (sendGroup a1 a2 a3 s).keep m = s.keep m := by
  intro a1 a2 a3
  simp only [sendGroup, keep_modRing]

theorem keep_leadRun (hreg : m .reg = true) (s : State) : ∀ a1 a2, (leadRun a1 a2 s).keep m = s.keep m := by
  intro a1 a2
  simp only [leadRun, keep_sendGroup, keep_enterRun, keep_modRing, hreg]

theorem keep_sendReady (s : State) : ∀ a1, (sendReady a1 s).keep m = s.keep m := by
  intro a1
  simp only [sendReady, keep_ite, ite_self, keep_sendGroup]

theorem keep_runEntry (hreg : m .reg = true) (s : State) : (runEntry s).keep m = s.keep m := by
  unfold runEntry
  repeat' first
    | with_reducible rfl
    | (simp only [keep_ite, ite_self, implies_true, true_or, or_true, and_self, keep_leadRun, keep_enterRun, keep_dropWait, keep_sendReady, hreg]; done)
    | split
    | simp only [keep_ite, ite_self, implies_true, true_or, or_true, and_self, keep_leadRun, keep_enterRun, keep_dropWait, keep_sendReady, hreg]

theorem keep_execRunEntry (hreg : m .reg = true) (s : State) : keepOut m (execRunEntry s) = some (s.keep m) := by
  simp only [execRunEntry, keepOut_next, keep_runEntry, hreg]

theorem keep_execRunModify (s : State) : ∀ a1 a2 a3 a4, keepOut m (execRunModify a1 a2 a3 a4 s) = some (s.keep m) := by
  intro a1 a2 a3 a4
  simp only [execRunModify, keepOut_next, keep_runModify]

theorem keep_execRunResume (s : State) : ∀ a1 a2 a3, keepOut m (execRunResume a1 a2 a3 s) = some (s.keep m) := by
  intro a1 a2 a3
  simp only [execRunResume, keepOut_next, keep_runResume]

theorem keep_execRunStart (s : State) : ∀ a1 a2 a3 a4, keepOut m (execRunStart a1 a2 a3 a4 s) = some (s.keep m) := by
  intro a1 a2 a3 a4
  simp only [execRunStart, keepOut_next, keep_runStart]

theorem keep_execRunStop (s : State) : ∀ a1, keepOut m (execRunStop a1 s) = some (s.keep m) := by
  intro a1
  simp only [execRunStop, keepOut_next, keep_runStopMsg]

theorem keep_countOver (hanch : m .anch = true) (s : State) : (countOver s).keep m = s.keep m := by
  simp only [countOver, keep_ite, ite_self, keep_modAnch, hanch]

theorem keep_stillCheck (hanch : m .anch = true) (s : State) : (stillCheck s).keep m = s.keep m := by
  simp only [stillCheck, keep_ite, ite_self, keep_modAnch, hanch]

theorem keep_countStill (hanch : m .anch = true) (s : State) : (countStill s).keep m = s.keep m := by
  simp only [countStill, keep_stillCheck, keep_modAnch, hanch]

theorem keep_facetMode (hfacet : m .facet = true) (s : State) : ∀ a1, (facetMode a1 s).keep m = s.keep m := by
  intro a1
  unfold facetMode
  repeat' first
    | with_reducible rfl
    | (simp only [keep_ite, ite_self, implies_true, true_or, or_true, and_self, keep_modFacet, hfacet]; done)
    | split
    | simp only [keep_ite, ite_self, implies_true, true_or, or_true, and_self, keep_modFacet, hfacet]

theorem keep_debtCheck (hanch : m .anch = true) (s : State) : (debtCheck s).keep m = s.keep m := by
  simp only [debtCheck, keep_ite, ite_self, keep_setsBit, keep_raise, keep_modAnch, hanch]

theorem keep_placeAnchor (hanch : m .anch = true) (hcons : m .cons = true) (hfacet : m .facet = true) (s : State) : ∀ a1, (placeAnchor a1 s).keep m = s.keep m := by
  intro a1
  simp only [placeAnchor, keep_facetMode, keep_debtCheck, keep_travel, keep_stillCheck, keep_modAnch, hanch, hcons, hfacet]

theorem keep_moveAnchor (hanch : m .anch = true) (hcons : m .cons = true) (hfacet : m .facet = true) (s : State) : ∀ a1, (moveAnchor a1 s).keep m = s.keep m := by
  intro a1
  simp only [moveAnchor, keep_placeAnchor, hanch, hcons, hfacet]

theorem keep_countWeb (hanch : m .anch = true) (hcons : m .cons = true) (hfacet : m .facet = true) (s : State) : ∀ a1 a2, (countWeb a1 a2 s).keep m = s.keep m := by
  intro a1 a2
  simp only [countWeb, keep_ite, ite_self, keep_moveAnchor, keep_modAnch, hanch, hcons, hfacet]

theorem keep_execAnchorCount (hanch : m .anch = true) (hcons : m .cons = true) (hfacet : m .facet = true) (s : State) : ∀ a1 a2 a3, keepOut m (execAnchorCount a1 a2 a3 s) = some (s.keep m) := by
  intro a1 a2 a3
  simp only [execAnchorCount, ite_self, keepOut_next, keepOut_ite, keep_setsBit, keep_countWeb, keep_raise, keep_modAnch, hanch, hcons, hfacet]

theorem keep_execAnchorOverspeed (hanch : m .anch = true) (s : State) : keepOut m (execAnchorOverspeed s) = some (s.keep m) := by
  simp only [execAnchorOverspeed, ite_self, keepOut_next, keepOut_ite, keep_raise, keep_modAnch, hanch]

theorem keep_execAnchorStale (hanch : m .anch = true) (s : State) : keepOut m (execAnchorStale s) = some (s.keep m) := by
  simp only [execAnchorStale, ite_self, keepOut_next, keepOut_ite, keep_setsBit, keep_raise, keep_modAnch, hanch]

theorem keep_execAnchorZPulse (hanch : m .anch = true) (s : State) : ∀ a1, keepOut m (execAnchorZPulse a1 s) = some (s.keep m) := by
  intro a1
  unfold execAnchorZPulse
  repeat' first
    | with_reducible rfl
    | (simp only [keep_ite, ite_self, implies_true, true_or, or_true, and_self, keepOut_next, keepOut_ite, keep_setsBit, keep_raise, keep_modAnch, hanch]; done)
    | split
    | simp only [keep_ite, ite_self, implies_true, true_or, or_true, and_self, keepOut_next, keepOut_ite, keep_setsBit, keep_raise, keep_modAnch, hanch]

theorem keep_execEyeletAnchorReport (hanch : m .anch = true) (hcons : m .cons = true) (hfacet : m .facet = true) (s : State) : ∀ a1 a2, keepOut m (execEyeletAnchorReport a1 a2 s) = some (s.keep m) := by
  intro a1 a2
  unfold execEyeletAnchorReport
  repeat' first
    | with_reducible rfl
    | (simp only [keep_ite, ite_self, implies_true, true_or, or_true, and_self, keepOut_next, keepOut_ite, keep_placeAnchor, keep_modAnch, hanch, hcons, hfacet]; done)
    | split
    | simp only [keep_ite, ite_self, implies_true, true_or, or_true, and_self, keepOut_next, keepOut_ite, keep_placeAnchor, keep_modAnch, hanch, hcons, hfacet]

theorem keep_extrapolate (hanch : m .anch = true) (hcons : m .cons = true) (hfacet : m .facet = true) (s : State) : (extrapolate s).keep m = s.keep m := by
  simp only [extrapolate, keep_ite, ite_self, keep_placeAnchor, hanch, hcons, hfacet]

theorem keep_alarmStop (s : State) : ∀ a1, (alarmStop a1 s).keep m = s.keep m := by
  intro a1
  simp only [alarmStop, keep_ite, ite_self, keep_atAux]

theorem keep_auxMove (s : State) : ∀ a1 a2, (auxMove a1 a2 s).keep m = s.keep m := by
  intro a1 a2
  simp only [auxMove, keep_alarmStop, keep_atAux]

theorem keep_auxReject (s : State) : ∀ a1, (auxReject a1 s).keep m = s.keep m := by
  intro a1
  simp only [auxReject, keep_setsBit, keep_atAux]

theorem keep_auxResume (s : State) : ∀ a1, (auxResume a1 s).keep m = s.keep m := by
  intro a1
  unfold auxResume
  repeat' first
    | with_reducible rfl
    | (simp only [keep_ite, ite_self, implies_true, true_or, or_true, and_self, keep_auxMove, keep_auxReject]; done)
    | split
    | simp only [keep_ite, ite_self, implies_true, true_or, or_true, and_self, keep_auxMove, keep_auxReject]

theorem keep_auxStart (s : State) : ∀ a1, (auxStart a1 s).keep m = s.keep m := by
  intro a1
  unfold auxStart
  repeat' first
    | with_reducible rfl
    | (simp only [keep_ite, ite_self, implies_true, true_or, or_true, and_self, keep_auxMove, keep_auxReject]; done)
    | split
    | simp only [keep_ite, ite_self, implies_true, true_or, or_true, and_self, keep_auxMove, keep_auxReject]

theorem keep_auxFlt (s : State) : ∀ a1, (auxFlt a1 s).keep m = s.keep m := by
  intro a1
  unfold auxFlt
  repeat' first
    | with_reducible rfl
    | (simp only [keep_ite, ite_self, implies_true, true_or, or_true, and_self, keep_alarmStop, keep_raise, keep_atAux]; done)
    | split
    | simp only [keep_ite, ite_self, implies_true, true_or, or_true, and_self, keep_alarmStop, keep_raise, keep_atAux]

theorem keep_auxProfile (s : State) : ∀ a1 a2, (auxProfile a1 a2 s).keep m = s.keep m := by
  intro a1 a2
  simp only [auxProfile, keep_ite, ite_self, keep_auxReject, keep_atAux]

theorem keep_execAuxAbort (s : State) : ∀ a1, keepOut m (execAuxAbort a1 s) = some (s.keep m) := by
  intro a1
  simp only [execAuxAbort, keep_ite, ite_self, keepOut_next, keep_atAux]

theorem keep_execAuxFltInput (s : State) : ∀ a1, keepOut m (execAuxFltInput a1 s) = some (s.keep m) := by
  intro a1
  simp only [execAuxFltInput, ite_self, keepOut_next, keepOut_ite, keep_auxFlt]

theorem keep_execAuxFltRelease (s : State) : ∀ a1, keepOut m (execAuxFltRelease a1 s) = some (s.keep m) := by
  intro a1
  simp only [execAuxFltRelease, keepOut_next, keep_atAux]

theorem keep_execAuxProfileWrite (s : State) : ∀ a1 a2, keepOut m (execAuxProfileWrite a1 a2 s) = some (s.keep m) := by
  intro a1 a2
  simp only [execAuxProfileWrite, keep_ite, ite_self, keepOut_next, keep_auxProfile]

theorem keep_execAuxResume (s : State) : ∀ a1, keepOut m (execAuxResume a1 s) = some (s.keep m) := by
  intro a1
  simp only [execAuxResume, keep_ite, ite_self, keepOut_next, keep_auxResume]

theorem keep_execAuxStart (s : State) : ∀ a1, keepOut m (execAuxStart a1 s) = some (s.keep m) := by
  intro a1
  simp only [execAuxStart, keep_ite, ite_self, keepOut_next, keep_auxStart]

theorem keep_execAuxStep (s : State) : ∀ a1, keepOut m (execAuxStep a1 s) = some (s.keep m) := by
  intro a1
  simp only [execAuxStep, keepOut_next, keep_atAux]

theorem keep_execAuxStop (s : State) : ∀ a1, keepOut m (execAuxStop a1 s) = some (s.keep m) := by
  intro a1
  simp only [execAuxStop, keep_ite, ite_self, keepOut_next, keep_atAux]

theorem keep_releaseCutoffs (s : State) : (releaseCutoffs s).keep m = s.keep m := by
  simp only [releaseCutoffs, keep_modHtr]

theorem keep_convert (htherm : m .therm = true) (s : State) : ∀ a1 a2, (convert a1 a2 s).keep m = s.keep m := by
  intro a1 a2
  simp only [convert, keep_ite, ite_self, keep_raise, keep_modTherm, htherm]

theorem keep_cutoff (s : State) : ∀ a1, (cutoff a1 s).keep m = s.keep m := by
  intro a1
  simp only [cutoff, keep_ite, ite_self, keep_heaterLow, keep_condSet, keep_modHtr]

theorem keep_execHvNodeLost (s : State) : ∀ a1, keepOut m (execHvNodeLost a1 s) = some (s.keep m) := by
  intro a1
  simp only [execHvNodeLost, ite_self, keepOut_next, keepOut_ite, keep_raise, keep_modHv]

theorem keep_throttle (htherm : m .therm = true) (s : State) : ∀ a1, (throttle a1 s).keep m = s.keep m := by
  intro a1
  simp only [throttle, keep_ite, ite_self, keep_condSet, keep_raise, keep_modTherm, htherm]

theorem keep_execSensorConversion (htherm : m .therm = true) (s : State) : ∀ a1, keepOut m (execSensorConversion a1 s) = some (s.keep m) := by
  intro a1
  simp only [execSensorConversion, ite_self, implies_true, keep_foldl, keepOut_next, keepOut_ite, keep_cutoff, keep_State_useFree, keep_convert, keep_throttle, htherm]

theorem keep_heaterEdge (s : State) : ∀ a1, (heaterEdge a1 s).keep m = s.keep m := by
  intro a1
  simp only [heaterEdge, keep_ite, ite_self, keep_heaterLow, keep_modHtr]

theorem keep_zcLost (s : State) : (zcLost s).keep m = s.keep m := by
  simp only [zcLost, keep_ite, ite_self, keep_allHeatersLow, keep_raise, keep_modHtr]

theorem keep_execZeroCrossEdge (hcons : m .cons = true) (s : State) : ∀ a1, keepOut m (execZeroCrossEdge a1 s) = some (s.keep m) := by
  intro a1
  simp only [execZeroCrossEdge, keep_ite, ite_self, implies_true, keep_foldl, keepOut_next, keepOut_ite, keep_heaterEdge, keep_chargeHeaters, keep_zcLost, keep_modHtr, hcons]

theorem keep_execZeroCrossLost (s : State) : keepOut m (execZeroCrossLost s) = some (s.keep m) := by
  simp only [execZeroCrossLost, keepOut_next, keep_zcLost]

theorem keep_clearItems (hbus : m .bus = true) (s : State) : (clearItems s).keep m = s.keep m := by
  simp only [clearItems, implies_true, keep_unblank, keep_each8, keep_releaseCutoffs, keep_updateInh, keep_modEng, keep_modStage, keep_modSp, keep_modAux, keep_modBus, hbus]

theorem keep_clearMasks (s : State) : (clearMasks s).keep m = s.keep m := by
  simp only [clearMasks, keep_modFlt]

theorem keep_safeToIdle (s : State) : (safeToIdle s).keep m = s.keep m := by
  simp only [safeToIdle, implies_true, or_true, keep_inhibitEnded, keep_enterState, keep_postCairnRecords, keep_modLaw]

theorem keep_leaveSafe (s : State) : (leaveSafe s).keep m = s.keep m := by
  simp only [leaveSafe, keep_ite, ite_self, keep_safeToBoot, keep_safeToIdle, keep_modBoot]

theorem keep_faultClear (hbus : m .bus = true) (s : State) : ∀ a1, (faultClear a1 s).keep m = s.keep m := by
  intro a1
  simp only [faultClear, keep_ite, ite_self, implies_true, keep_clearItems, keep_countLife, keep_clearMasks, keep_reject, keep_complete, keep_leaveSafe, keep_message, hbus]

theorem keep_execFaultClear (hbus : m .bus = true) (s : State) : ∀ a1, keepOut m (execFaultClear a1 s) = some (s.keep m) := by
  intro a1
  simp only [execFaultClear, keepOut_next, keep_faultClear, hbus]

theorem keep_applyParam (hwords : m .words = true) (s : State) : ∀ a1, (applyParam a1 s).keep m = s.keep m := by
  intro a1
  unfold applyParam
  repeat' first
    | with_reducible rfl
    | (simp only [keep_ite, ite_self, implies_true, true_or, or_true, and_self, keep_complete, keep_noteQuantities, keep_dput, keep_atSp, keep_modHost, hwords]; done)
    | split
    | simp only [keep_ite, ite_self, implies_true, true_or, or_true, and_self, keep_complete, keep_noteQuantities, keep_dput, keep_atSp, keep_modHost, hwords]

theorem keep_paramGet (s : State) : ∀ a1 a2 a3, (paramGet a1 a2 a3 s).keep m = s.keep m := by
  intro a1 a2 a3
  unfold paramGet
  repeat' first
    | with_reducible rfl
    | (simp only [keep_ite, ite_self, implies_true, true_or, or_true, and_self, keep_lawReads, keep_reject, keep_complete, keep_message]; done)
    | (refine keep_message _ _ _ _ _ ?_ _; intro r s)
    | split
    | simp only [keep_ite, ite_self, implies_true, true_or, or_true, and_self, keep_lawReads, keep_reject, keep_complete, keep_message]

theorem keep_paramSet (s : State) : ∀ a1 a2 a3 a4, (paramSet a1 a2 a3 a4 s).keep m = s.keep m := by
  intro a1 a2 a3 a4
  unfold paramSet
  repeat' first
    | with_reducible rfl
    | (simp only [keep_ite, ite_self, implies_true, true_or, or_true, and_self, keep_reject, keep_message, keep_modHost]; done)
    | (refine keep_message _ _ _ _ _ ?_ _; intro r s)
    | split
    | simp only [keep_ite, ite_self, implies_true, true_or, or_true, and_self, keep_reject, keep_message, keep_modHost]

theorem keep_execParamGet (s : State) : ∀ a1 a2 a3, keepOut m (execParamGet a1 a2 a3 s) = some (s.keep m) := by
  intro a1 a2 a3
  simp only [execParamGet, keepOut_next, keep_paramGet]

theorem keep_execParamSet (s : State) : ∀ a1 a2 a3 a4, keepOut m (execParamSet a1 a2 a3 a4 s) = some (s.keep m) := by
  intro a1 a2 a3 a4
  simp only [execParamSet, keepOut_next, keep_paramSet]

end Sys2Proof.Machine
end

