-- ==== Sys2Proof/Laws/Keep4.lean ====
section
/-! SUPPORT. The parts of the state (Laws/Keep.lean) that each operation and each command leaves alone: the modules
DmaOps, Forward, Facet, Registration, Stage, RingOps, Ring. A hypothesis names a part that the operation may change. -/

namespace Sys2Proof.Machine

set_option linter.unusedSimpArgs false
set_option maxRecDepth 4000

variable {m : Part → Bool}

theorem keep_State_atCh (hdma : m .dma = true) (s : State) : ∀ a2 a3, (State.atCh s a2 a3).keep m = s.keep m := by
  intro a2 a3
  simp only [State.atCh, implies_true, or_true, keep_modDma, hdma]

theorem keep_State_atCu (hdma : m .dma = true) (s : State) : ∀ a2 a3, (State.atCu s a2 a3).keep m = s.keep m := by
  intro a2 a3
  simp only [State.atCu, implies_true, or_true, keep_modDma, hdma]

theorem keep_dmaEvent (hdma : m .dma = true) (s : State) : ∀ a1, (dmaEvent a1 s).keep m = s.keep m := by
  intro a1
  simp only [dmaEvent, implies_true, or_true, keep_modDma, hdma]

theorem keep_consumeLine (hstore : m .store = true) (hmem : m .mem = true) : ∀ ecc l b, (consumeLine ecc l b).st.keep m = b.st.keep m := by
  intro ecc l b
  unfold consumeLine
  repeat' first
    | with_reducible rfl
    | (simp only [keep_consume hstore hmem]; done)
    | exact keep_flushEntry hstore hmem _ _ _
    | split

theorem keep_dmaBoundary (hdma : m .dma = true) (s : State) : ∀ a1 a2, (dmaBoundary a1 a2 s).keep m = s.keep m := by
  intro a1 a2
  simp only [dmaBoundary, keep_State_atCh, keep_State_useFree, hdma]

theorem keep_dmaHalt (hdma : m .dma = true) (s : State) : ∀ a1 a2 a3 a4, (dmaHalt a1 a2 a3 a4 s).keep m = s.keep m := by
  intro a1 a2 a3 a4
  simp only [dmaHalt, keep_State_atCh, keep_raise, hdma]

theorem keep_scanEnds (hdma : m .dma = true) (s : State) : ∀ a1 a2, (scanEnds a1 a2 s).keep m = s.keep m := by
  intro a1 a2
  unfold scanEnds
  repeat' first
    | with_reducible rfl
    | (simp only [keep_ite, ite_self, implies_true, true_or, or_true, and_self, keep_State_atCu, keep_dmaEvent, hdma]; done)
    | split
    | simp only [keep_ite, ite_self, implies_true, true_or, or_true, and_self, keep_State_atCu, keep_dmaEvent, hdma]

theorem keep_dmaFinish (hdma : m .dma = true) (s : State) : ∀ a1 a2, (dmaFinish a1 a2 s).keep m = s.keep m := by
  intro a1 a2
  unfold dmaFinish
  repeat' first
    | with_reducible rfl
    | (simp only [keep_ite, ite_self, implies_true, true_or, or_true, and_self, keep_dmaBoundary, keep_dmaHalt, keep_scanEnds, hdma]; done)
    | split
    | simp only [keep_ite, ite_self, implies_true, true_or, or_true, and_self, keep_dmaBoundary, keep_dmaHalt, keep_scanEnds, hdma]

theorem keep_putBytes (f : Nat → Byte → State → State) (hf : ∀ a b s, State.keep m (f a b s) = State.keep m s) (s : State) :
    ∀ a bs, (putBytes f a bs s).keep m = s.keep m := by
  intro a bs
  induction bs generalizing a s with
  | nil => rfl
  | cons b r ih => simp only [putBytes, ih, hf]

theorem keep_putDataByte (hwords : m .words = true) (s : State) : ∀ a1 a2 a3, (putDataByte a1 a2 a3 s).keep m = s.keep m := by
  intro a1 a2 a3
  simp only [putDataByte, true_or, keep_noteQuantities, keep_modLaw, hwords]

theorem keep_putRamWord (hdma : m .dma = true) (hram : m .ram = true) (s : State) : ∀ a1 a2 a3, (putRamWord a1 a2 a3 s).keep m = s.keep m := by
  intro a1 a2 a3
  simp only [putRamWord, true_or, keep_modDma, hdma, hram]

theorem keep_putRamByte (hdma : m .dma = true) (hram : m .ram = true) (s : State) : ∀ a1 a2 a3 a4 a5, (putRamByte a1 a2 a3 a4 a5 s).keep m = s.keep m := by
  intro a1 a2 a3 a4 a5
  simp only [putRamByte, keep_putRamWord, hdma, hram]

theorem keep_putLawByte (s : State) : ∀ a1 a2 a3, (putLawByte a1 a2 a3 s).keep m = s.keep m := by
  intro a1 a2 a3
  simp only [putLawByte, implies_true, or_true, keep_modLaw]

theorem keep_writeBeat (hdma : m .dma = true) (hstore : m .store = true) (hmem : m .mem = true) (hram : m .ram = true) (hwords : m .words = true) (s : State) : ∀ a1 a2 a3 a4 a5 a6, (writeBeat a1 a2 a3 a4 a5 a6 s).keep m = s.keep m := by
  intro a1 a2 a3 a4 a5 a6
  unfold writeBeat
  repeat' first
    | with_reducible rfl
    | (simp only [keep_ite, ite_self, implies_true, true_or, or_true, and_self, keep_putBytes, keep_putDataByte, keep_storePut, keep_putRamByte, keep_putLawByte, keep_modHost, hdma, hstore, hmem, hram, hwords]; done)
    | split
    | simp only [keep_ite, ite_self, implies_true, true_or, or_true, and_self, keep_putBytes, keep_putDataByte, keep_storePut, keep_putRamByte, keep_putLawByte, keep_modHost, hdma, hstore, hmem, hram, hwords]

theorem keep_iterate (g : State → State) (h : ∀ s, State.keep m (g s) = State.keep m s) (n : Nat) (s : State) :
    State.keep m (Bits.iterate g n s) = State.keep m s := by
  induction n generalizing s with
  | zero => rfl
  | succ n ih => simp only [Bits.iterate, ih, h]

theorem keep_dmaDataUe (s : State) : ∀ a n, (dmaDataUe a n s).keep m = s.keep m := by
  intro a n
  exact keep_iterate _ (fun s => by simp only [keep_raise, keep_modLaw, implies_true, or_true]) _ _

theorem keep_storeBytes : ∀ a n b, (storeBytes a n b).1.st.keep m = b.st.keep m := by
  intro a n b
  simp only [storeBytes]
  split <;> rfl

theorem keep_ramBytes : ∀ ecc bad lo hi a n f b, (ramBytes ecc bad lo hi a n f b).1.st.keep m = b.st.keep m := by
  intro ecc bad lo hi a n f b
  unfold ramBytes
  split <;> rfl

theorem keep_readBeat (hstore : m .store = true) (hmem : m .mem = true) : ∀ h ecc lo len sp a off n b, (readBeat h ecc lo len sp a off n b).1.st.keep m = b.st.keep m := by
  intro h ecc lo len sp a off n b
  unfold readBeat
  repeat' first
    | with_reducible rfl
    | (simp only [keep_ramBytes]; done)
    | (simp only [keep_storeBytes, keep_consumeLine, keep_dmaDataUe, hstore, hmem]; done)
    | split

theorem keep_moveBeat (hdma : m .dma = true) (hstore : m .store = true) (hmem : m .mem = true) (hram : m .ram = true) (hwords : m .words = true) : ∀ h ecc carry ss src ds dst len b x, (moveBeat h ecc carry ss src ds dst len b x).st.keep m = b.st.keep m := by
  intro h ecc carry ss src ds dst len b x
  simp only [moveBeat]
  repeat' first
    | with_reducible rfl
    | (simp only [keep_ite, ite_self, keep_readBeat, keep_writeBeat, hdma, hstore, hmem, hram, hwords]; done)
    | split

theorem keep_beats {α : Type} (g : Beats → α → Beats) (h : ∀ b x, (g b x).st.keep m = b.st.keep m) (l : List α) (b : Beats) :
    (l.foldl g b).st.keep m = b.st.keep m := by
  induction l generalizing b with
  | nil => rfl
  | cons a l ih => simp only [List.foldl, ih, h]

theorem keep_dmaBursts (hdma : m .dma = true) (k n : Nat) (xs : List (Nat × Nat)) (w : DmaWork) (f : Beats → Nat × Nat → Beats)
    (hf : ∀ b x, (f b x).st.keep m = b.st.keep m) (s : State) : (dmaBursts k n xs w f s).keep m = s.keep m := by
  simp only [dmaBursts, keep_State_atCh hdma]
  exact keep_beats _ hf _ _

theorem keep_scanBeat (hdma : m .dma = true) (hstore : m .store = true) (hmem : m .mem = true) : ∀ h ecc carry u sp addr len b x, (scanBeat h ecc carry u sp addr len b x).st.keep m = b.st.keep m := by
  intro h ecc carry u sp addr len b x
  simp only [scanBeat]
  repeat' first
    | with_reducible rfl
    | (simp only [keep_ite, ite_self, keep_readBeat, keep_setsBit, keep_State_atCu, hdma, hstore, hmem]; done)
    | split

theorem keep_dmaRun (hdma : m .dma = true) (hstore : m .store = true) (hmem : m .mem = true) (hram : m .ram = true) (hwords : m .words = true) (s : State) : ∀ k n, (dmaRun k n s).keep m = s.keep m := by
  intro k n
  unfold dmaRun
  dsimp only
  split
  · exact keep_dmaBursts hdma _ _ _ _ _ (fun b x => by simp only [keep_moveBeat, hdma, hstore, hmem, hram, hwords]) _
  · exact keep_dmaBursts hdma _ _ _ _ _ (fun b x => by simp only [keep_scanBeat, hdma, hstore, hmem, hram, hwords]) _
  · rfl

theorem keep_dmaRound (hdma : m .dma = true) (hstore : m .store = true) (hmem : m .mem = true) (hram : m .ram = true) (hwords : m .words = true) (s : State) : ∀ n, (dmaRound n s).keep m = s.keep m := by
  intro n
  induction n generalizing s with
  | zero => rfl
  | succ n ih =>
    unfold dmaRound
    split
    · rfl
    · split
      · rfl
      · simp only [ih, keep_modDma, keep_dmaRun, true_or, hdma, hstore, hmem, hram, hwords]

theorem keep_dmaServe (hdma : m .dma = true) (hstore : m .store = true) (hmem : m .mem = true) (hram : m .ram = true) (hwords : m .words = true) (s : State) : (dmaServe s).keep m = s.keep m := by
  simp only [dmaServe, keep_dmaRound, hdma, hstore, hmem, hram, hwords]

theorem keep_dmaBegin (hdma : m .dma = true) (hstore : m .store = true) (hmem : m .mem = true) (hram : m .ram = true) (hwords : m .words = true) (s : State) : ∀ a1 a2 a3, (dmaBegin a1 a2 a3 s).keep m = s.keep m := by
  intro a1 a2 a3
  simp only [dmaBegin, keep_State_atCh, keep_dmaServe, hdma, hstore, hmem, hram, hwords]

theorem keep_dmaHaltOpen (hdma : m .dma = true) (s : State) : ∀ a1 a2, (dmaHaltOpen a1 a2 s).keep m = s.keep m := by
  intro a1 a2
  simp only [dmaHaltOpen, keep_dmaHalt, keep_State_useFree, hdma]

theorem keep_dmaExec (a1 : Nat) (a2 : Nat) (a3 : DmaOp → State → State) (hdma : m .dma = true) (hf : ∀ o s, State.keep m (a3 o s) = State.keep m s) (s : State) : (dmaExec a1 a2 a3 s).keep m = s.keep m := by
  unfold dmaExec
  repeat' first
    | with_reducible rfl
    | (simp only [keep_ite, ite_self, implies_true, true_or, or_true, and_self, keep_State_atCh, keep_dmaHaltOpen, hdma, hf]; done)
    | split
    | simp only [keep_ite, ite_self, implies_true, true_or, or_true, and_self, keep_State_atCh, keep_dmaHaltOpen, hdma, hf]

theorem keep_loopTop (hdma : m .dma = true) (s : State) : ∀ a1 a2, (loopTop a1 a2 s).keep m = s.keep m := by
  intro a1 a2
  unfold loopTop
  repeat' first
    | with_reducible rfl
    | (simp only [keep_ite, ite_self, implies_true, true_or, or_true, and_self, keep_State_atCh, keep_dmaBoundary, hdma]; done)
    | split
    | simp only [keep_ite, ite_self, implies_true, true_or, or_true, and_self, keep_State_atCh, keep_dmaBoundary, hdma]

theorem keep_dmaLoop (hdma : m .dma = true) (s : State) : ∀ a1 a2 a3, (dmaLoop a1 a2 a3 s).keep m = s.keep m := by
  intro a1 a2 a3
  simp only [dmaLoop, keep_ite, ite_self, keep_State_atCh, keep_loopTop, keep_dmaHaltOpen, hdma]

theorem keep_dmaScan (hdma : m .dma = true) (hstore : m .store = true) (hmem : m .mem = true) (hram : m .ram = true) (hwords : m .words = true) (s : State) : ∀ a1 a2 a3 a4 a5, (dmaScan a1 a2 a3 a4 a5 s).keep m = s.keep m := by
  intro a1 a2 a3 a4 a5
  simp only [dmaScan, keep_ite, ite_self, keep_State_atCh, keep_dmaBegin, keep_dmaServe, keep_State_atCu, hdma, hstore, hmem, hram, hwords]

theorem keep_dmaSignal (hdma : m .dma = true) (s : State) : ∀ a1 a2 a3 a4 a5 a6, (dmaSignal a1 a2 a3 a4 a5 a6 s).keep m = s.keep m := by
  intro a1 a2 a3 a4 a5 a6
  simp only [dmaSignal, keep_ite, ite_self, implies_true, or_true, keep_foldl, keep_State_atCh, keep_sendMsix, keep_dmaBoundary, keep_setsBit, keep_modDma, hdma]

theorem keep_waitDone (hdma : m .dma = true) (s : State) : ∀ a1 a2 a3 a4 t, waitDone a1 a2 a3 a4 s = some t → t.keep m = s.keep m := by
  intro a1 a2 a3 a4 t h
  simp only [waitDone] at h
  repeat' first
    | (cases h; done)
    | (cases h; first | with_reducible rfl | (simp only [keep_State_atCh, keep_modDma, implies_true, or_true, hdma]; done))
    | split at h

theorem keep_reword (s : State) : ∀ a1 a2 a3, (reword a1 a2 a3 s).keep m = s.keep m := by
  intro a1 a2 a3
  simp only [reword, keep_atExpo]

theorem keep_frameTones (s : State) : ∀ a1, (frameTones a1 s).keep m = s.keep m := by
  intro a1
  unfold frameTones
  repeat' first
    | with_reducible rfl
    | (simp only [keep_ite, ite_self, implies_true, true_or, or_true, and_self, keep_reword, keep_atExpo]; done)
    | split
    | simp only [keep_ite, ite_self, implies_true, true_or, or_true, and_self, keep_reword, keep_atExpo]

theorem keep_toneTick (s : State) : ∀ a1 a2, (toneTick a1 a2 s).keep m = s.keep m := by
  intro a1 a2
  simp only [toneTick, keep_ite, ite_self, keep_frameTones]

theorem keep_sendWords (s : State) : ∀ a1 a2 a3, (sendWords a1 a2 a3 s).keep m = s.keep m := by
  intro a1 a2 a3
  simp only [sendWords, keep_atExpo]

theorem keep_sendSlots (s : State) : ∀ a1, (sendSlots a1 s).keep m = s.keep m := by
  intro a1
  unfold sendSlots
  repeat' first
    | with_reducible rfl
    | (simp only [keep_ite, ite_self, implies_true, true_or, or_true, and_self, keep_sendWords]; done)
    | split
    | simp only [keep_ite, ite_self, implies_true, true_or, or_true, and_self, keep_sendWords]

theorem keep_sendStart (s : State) : ∀ a1, (sendStart a1 s).keep m = s.keep m := by
  intro a1
  unfold sendStart
  repeat' first
    | with_reducible rfl
    | (simp only [keep_ite, ite_self, implies_true, true_or, or_true, and_self, keep_atExpo]; done)
    | split
    | simp only [keep_ite, ite_self, implies_true, true_or, or_true, and_self, keep_atExpo]

theorem keep_retrace (s : State) : ∀ a1, (retrace a1 s).keep m = s.keep m := by
  intro a1
  unfold retrace
  repeat' first
    | with_reducible rfl
    | (simp only [keep_ite, ite_self, implies_true, true_or, or_true, and_self, keep_atExpo]; done)
    | split
    | simp only [keep_ite, ite_self, implies_true, true_or, or_true, and_self, keep_atExpo]

theorem keep_forwardTick (hcons : m .cons = true) (s : State) : ∀ a1, (forwardTick a1 s).keep m = s.keep m := by
  intro a1
  simp only [forwardTick, keep_ite, ite_self, keep_sendSlots, keep_toneTick, keep_sendStart, keep_addUsage, keep_retrace, keep_atExpo, hcons]

theorem keep_slipCheck (hfacet : m .facet = true) (s : State) : ∀ a1 a2 a3, (slipCheck a1 a2 a3 s).keep m = s.keep m := by
  intro a1 a2 a3
  simp only [slipCheck, keep_ite, ite_self, keep_blankNow, keep_raise, keep_atExpo, keep_modFacet, hfacet]

theorem keep_noteDead (s : State) : ∀ a1 a2, (noteDead a1 a2 s).keep m = s.keep m := by
  intro a1 a2
  simp only [noteDead, keep_ite, ite_self, keep_setsBit, keep_atExpo]

theorem keep_chooseWindow (hfacet : m .facet = true) (s : State) : ∀ a1 a2, (chooseWindow a1 a2 s).keep m = s.keep m := by
  intro a1 a2
  simp only [chooseWindow, keep_setsBit, keep_modFacet, hfacet]

theorem keep_takeOffsets (hreg : m .reg = true) (s : State) : ∀ a1, (takeOffsets a1 s).keep m = s.keep m := by
  intro a1
  simp only [takeOffsets, keep_atScan, keep_atReg, hreg]

theorem keep_exposeSlots (s : State) : ∀ a1 a2 a3, (exposeSlots a1 a2 a3 s).keep m = s.keep m := by
  intro a1 a2 a3
  simp only [exposeSlots, keep_modJobs]

theorem keep_missFacet (s : State) : ∀ a1, (missFacet a1 s).keep m = s.keep m := by
  intro a1
  unfold missFacet
  repeat' first
    | with_reducible rfl
    | (simp only [keep_ite, ite_self, implies_true, true_or, or_true, and_self, keep_atExpo]; done)
    | split
    | simp only [keep_ite, ite_self, implies_true, true_or, or_true, and_self, keep_atExpo]

theorem keep_noteLate (s : State) : ∀ a1 a2, (noteLate a1 a2 s).keep m = s.keep m := by
  intro a1 a2
  unfold noteLate
  repeat' first
    | with_reducible rfl
    | (simp only [keep_ite, ite_self, implies_true, true_or, or_true, and_self, keep_raise, keep_atExpo]; done)
    | split
    | simp only [keep_ite, ite_self, implies_true, true_or, or_true, and_self, keep_raise, keep_atExpo]

theorem keep_regFrame (hreg : m .reg = true) (s : State) : ∀ a1 a2, (regFrame a1 a2 s).keep m = s.keep m := by
  intro a1 a2
  unfold regFrame
  repeat' first
    | with_reducible rfl
    | (simp only [keep_ite, ite_self, implies_true, true_or, or_true, and_self, keep_regCheck, hreg]; done)
    | split
    | simp only [keep_ite, ite_self, implies_true, true_or, or_true, and_self, keep_regCheck, hreg]

theorem keep_beginFacet (hreg : m .reg = true) (s : State) : ∀ a1 a2 a3 a4, (beginFacet a1 a2 a3 a4 s).keep m = s.keep m := by
  intro a1 a2 a3 a4
  simp only [beginFacet, keep_ite, ite_self, keep_takeOffsets, keep_holdBlank, keep_toneTick, keep_exposeSlots, keep_missFacet, keep_frameTones, keep_noteLate, keep_regFrame, keep_State_useFree, keep_atExpo, keep_atScan, hreg]

theorem keep_dropBand (s : State) : ∀ a1 a2, (dropBand a1 a2 s).keep m = s.keep m := by
  intro a1 a2
  simp only [dropBand, keep_atDec]

theorem keep_passFacet (s : State) : (passFacet s).keep m = s.keep m := by
  simp only [passFacet, keep_modJobs]

theorem keep_endFacet (s : State) : (endFacet s).keep m = s.keep m := by
  simp only [endFacet, keep_endPassed, keep_passFacet]

theorem keep_reloadTimer (hfacet : m .facet = true) (s : State) : ∀ a1 a2 a3, (reloadTimer a1 a2 a3 s).keep m = s.keep m := by
  intro a1 a2 a3
  simp only [reloadTimer, keep_modFacet, hfacet]

theorem keep_facetPulse (hdma : m .dma = true) (hfacet : m .facet = true) (hreg : m .reg = true) (s : State) : (facetPulse s).keep m = s.keep m := by
  simp only [facetPulse, keep_ite, ite_self, implies_true, keep_foldl, keep_facetMode, keep_each8, keep_reloadTimer, keep_beginFacet, keep_setsBit, keep_dropBand, keep_endFacet, keep_dmaEvent, keep_modFacet, hdma, hfacet, hreg]

theorem keep_execFacetReferencePulse (hdma : m .dma = true) (hfacet : m .facet = true) (hreg : m .reg = true) (s : State) : keepOut m (execFacetReferencePulse s) = some (s.keep m) := by
  simp only [execFacetReferencePulse, keep_ite, ite_self, keepOut_next, keep_facetPulse, hdma, hfacet, hreg]

theorem keep_startFrame (s : State) : ∀ a1, (startFrame a1 s).keep m = s.keep m := by
  intro a1
  simp only [startFrame, keep_State_modFrame, keep_modRun, keep_modJobs]

theorem keep_frameStart (s : State) : (frameStart s).keep m = s.keep m := by
  unfold frameStart
  repeat' first
    | with_reducible rfl
    | (simp only [keep_ite, ite_self, implies_true, true_or, or_true, and_self, keep_startFrame]; done)
    | split
    | simp only [keep_ite, ite_self, implies_true, true_or, or_true, and_self, keep_startFrame]

theorem keep_execFrameStart (s : State) : keepOut m (execFrameStart s) = some (s.keep m) := by
  simp only [execFrameStart, keepOut_next, keep_frameStart]

theorem keep_frameStarved (s : State) : (frameStarved s).keep m = s.keep m := by
  unfold frameStarved
  repeat' first
    | with_reducible rfl
    | (simp only [keep_ite, ite_self, implies_true, true_or, or_true, and_self, keep_raise]; done)
    | split
    | simp only [keep_ite, ite_self, implies_true, true_or, or_true, and_self, keep_raise]

theorem keep_execFrameStarved (s : State) : keepOut m (execFrameStarved s) = some (s.keep m) := by
  simp only [execFrameStarved, keepOut_next, keep_frameStarved]

theorem keep_regNext (hreg : m .reg = true) (s : State) : ∀ a1, (regNext a1 s).keep m = s.keep m := by
  intro a1
  simp only [regNext, keep_regCheck, hreg]

theorem keep_execCameraMarkReport (hfacet : m .facet = true) (hreg : m .reg = true) (s : State) : ∀ a1 a2 a3 a4, keepOut m (execCameraMarkReport a1 a2 a3 a4 s) = some (s.keep m) := by
  intro a1 a2 a3 a4
  simp only [execCameraMarkReport, keep_ite, ite_self, keepOut_next, keep_regNext, keep_atReg, keep_modFacet, hfacet, hreg]

theorem keep_writeRegBase (hreg : m .reg = true) (s : State) : ∀ a1 a2, (writeRegBase a1 a2 s).keep m = s.keep m := by
  intro a1 a2
  simp only [writeRegBase, keep_ite, ite_self, keep_atReg, hreg]

theorem keep_execRegBaseWrite (hreg : m .reg = true) (s : State) : ∀ a1 a2, keepOut m (execRegBaseWrite a1 a2 s) = some (s.keep m) := by
  intro a1 a2
  simp only [execRegBaseWrite, keep_ite, ite_self, keepOut_next, keep_writeRegBase, hreg]

theorem keep_writeRegOffset (hreg : m .reg = true) (s : State) : ∀ a1 a2 a3, (writeRegOffset a1 a2 a3 s).keep m = s.keep m := by
  intro a1 a2 a3
  simp only [writeRegOffset, keep_regNext, keep_atReg, hreg]

theorem keep_execRegOffsetWrite (hreg : m .reg = true) (s : State) : ∀ a1 a2 a3, keepOut m (execRegOffsetWrite a1 a2 a3 s) = some (s.keep m) := by
  intro a1 a2 a3
  simp only [execRegOffsetWrite, keep_ite, ite_self, keepOut_next, keep_writeRegOffset, hreg]

theorem keep_ropeStandstill (s : State) : (ropeStandstill s).keep m = s.keep m := by
  simp only [ropeStandstill, keep_ite, ite_self, keep_belayExit]

theorem keep_execRopeStandstill (s : State) : keepOut m (execRopeStandstill s) = some (s.keep m) := by
  simp only [execRopeStandstill, keepOut_next, keep_ropeStandstill]

theorem keep_runDone (s : State) : (runDone s).keep m = s.keep m := by
  simp only [runDone, keep_enterState, keep_runAtRest]

theorem keep_standstillExit (s : State) : (standstillExit s).keep m = s.keep m := by
  unfold standstillExit
  repeat' first
    | with_reducible rfl
    | (simp only [keep_ite, ite_self, implies_true, true_or, or_true, and_self, keep_runDone, keep_hardExit, keep_runAtRest, keep_stopReached, keep_haltExit, keep_belayExit]; done)
    | split
    | simp only [keep_ite, ite_self, implies_true, true_or, or_true, and_self, keep_runDone, keep_hardExit, keep_runAtRest, keep_stopReached, keep_haltExit, keep_belayExit]

theorem keep_webStandstill (hanch : m .anch = true) (s : State) : (webStandstill s).keep m = s.keep m := by
  simp only [webStandstill, keep_ite, ite_self, keep_standstillExit, keep_raise, keep_modAnch, hanch]

theorem keep_execWebStandstill (hanch : m .anch = true) (s : State) : keepOut m (execWebStandstill s) = some (s.keep m) := by
  simp only [execWebStandstill, keepOut_next, keep_webStandstill, hanch]

theorem keep_rampEnd (s : State) : (rampEnd s).keep m = s.keep m := by
  simp only [rampEnd, keep_ite, ite_self, keep_hardExit, keep_rampExit]

theorem keep_rampAxisOff (s : State) : ∀ a1, (rampAxisOff a1 s).keep m = s.keep m := by
  intro a1
  simp only [rampAxisOff, keep_modRamp]

theorem keep_busAbsorbLost (hbus : m .bus = true) (s : State) : ∀ a1, (busAbsorbLost a1 s).keep m = s.keep m := by
  intro a1
  simp only [busAbsorbLost, keep_ite, ite_self, keep_raise, keep_atBus, hbus]

theorem keep_execBelaySlow (s : State) : keepOut m (execBelaySlow s) = some (s.keep m) := by
  simp only [execBelaySlow, ite_self, keepOut_next, keepOut_ite, keep_raise]

theorem keep_execBusAbsorbLost (hbus : m .bus = true) (s : State) : ∀ a1, keepOut m (execBusAbsorbLost a1 s) = some (s.keep m) := by
  intro a1
  simp only [execBusAbsorbLost, keepOut_next, keep_busAbsorbLost, hbus]

theorem keep_execBusTrip (hbus : m .bus = true) (s : State) : ∀ a1, keepOut m (execBusTrip a1 s) = some (s.keep m) := by
  intro a1
  simp only [execBusTrip, ite_self, keepOut_next, keepOut_ite, keep_setsBit, keep_raise, keep_atBus, hbus]

theorem keep_execCoastTimeout (s : State) : keepOut m (execCoastTimeout s) = some (s.keep m) := by
  simp only [execCoastTimeout, ite_self, keepOut_next, keepOut_ite, keep_enterSafe]

theorem keep_groupRemoteStop (s : State) : ∀ a1, (groupRemoteStop a1 s).keep m = s.keep m := by
  intro a1
  simp only [groupRemoteStop, keep_ite, ite_self, keep_raiseWith]

theorem keep_execGroupRemoteStop (s : State) : ∀ a1, keepOut m (execGroupRemoteStop a1 s) = some (s.keep m) := by
  intro a1
  simp only [execGroupRemoteStop, keepOut_next, keep_groupRemoteStop]

theorem keep_latchPorts (s : State) : (latchPorts s).keep m = s.keep m := by
  simp only [latchPorts, implies_true, or_true, keep_State_useFree, keep_modLaw]

theorem keep_execRampAxisTimeout (s : State) : ∀ a1, keepOut m (execRampAxisTimeout a1 s) = some (s.keep m) := by
  intro a1
  simp only [execRampAxisTimeout, ite_self, keepOut_next, keepOut_ite, keep_rampEnd, keep_rampAxisOff]

theorem keep_ropeRemoteStop (s : State) : ∀ a1, (ropeRemoteStop a1 s).keep m = s.keep m := by
  intro a1
  simp only [ropeRemoteStop, keep_ite, ite_self, keep_raiseWith]

theorem keep_execRopeRemoteStop (s : State) : ∀ a1, keepOut m (execRopeRemoteStop a1 s) = some (s.keep m) := by
  intro a1
  simp only [execRopeRemoteStop, keepOut_next, keep_ropeRemoteStop]

theorem keep_execShareStale (hrope : m .rope = true) (s : State) : ∀ a1, keepOut m (execShareStale a1 s) = some (s.keep m) := by
  intro a1
  simp only [execShareStale, ite_self, keepOut_next, keepOut_ite, keep_raise, keep_atRope, hrope]

theorem keep_execSpliceEdge (hrope : m .rope = true) (s : State) : ∀ a1, keepOut m (execSpliceEdge a1 s) = some (s.keep m) := by
  intro a1
  simp only [execSpliceEdge, implies_true, keep_foldl, keepOut_next, keep_atRope, hrope]

theorem keep_execSpliceWindowExpiry (hrope : m .rope = true) (s : State) : ∀ a1, keepOut m (execSpliceWindowExpiry a1 s) = some (s.keep m) := by
  intro a1
  simp only [execSpliceWindowExpiry, keepOut_next, keep_atRope, hrope]

theorem keep_stageLost (s : State) : ∀ a1 a2, (stageLost a1 a2 s).keep m = s.keep m := by
  intro a1 a2
  simp only [stageLost, keep_ite, ite_self, keep_raise, keep_atStage]

theorem keep_execStageLost (s : State) : ∀ a1 a2, keepOut m (execStageLost a1 a2 s) = some (s.keep m) := by
  intro a1 a2
  simp only [execStageLost, keepOut_next, keep_stageLost]

theorem keep_execTensionLimit (hrope : m .rope = true) (s : State) : ∀ a1, keepOut m (execTensionLimit a1 s) = some (s.keep m) := by
  intro a1
  simp only [execTensionLimit, ite_self, keepOut_next, keepOut_ite, keep_raise, keep_atRope, hrope]

theorem keep_takeSlot (s : State) : ∀ a1 a2 a3 a4, (takeSlot a1 a2 a3 a4 s).keep m = s.keep m := by
  intro a1 a2 a3 a4
  simp only [takeSlot, keep_ite, ite_self, keep_condSet, keep_atStage]

theorem keep_takeFrame (s : State) : ∀ a1 a2, (takeFrame a1 a2 s).keep m = s.keep m := by
  intro a1 a2
  simp only [takeFrame, keep_ite, ite_self, keep_takeSlot, keep_raise, keep_atStage]

theorem keep_upstreamFrame (s : State) : ∀ a1 a2 a3, (upstreamFrame a1 a2 a3 s).keep m = s.keep m := by
  intro a1 a2 a3
  simp only [upstreamFrame, keep_ite, ite_self, keep_raise, keep_takeFrame, keep_atStage]

theorem keep_execUpstreamFrame (s : State) : ∀ a1 a2 a3, keepOut m (execUpstreamFrame a1 a2 a3 s) = some (s.keep m) := by
  intro a1 a2 a3
  simp only [execUpstreamFrame, keepOut_next, keep_upstreamFrame]

theorem keep_State_atCtrl (s : State) : ∀ a2 a3, (State.atCtrl s a2 a3).keep m = s.keep m := by
  intro a2 a3
  simp only [State.atCtrl, keep_modRing]

theorem keep_State_atNode (s : State) : ∀ a2 a3, (State.atNode s a2 a3).keep m = s.keep m := by
  intro a2 a3
  simp only [State.atNode, keep_modRing]

theorem keep_State_atPort (s : State) : ∀ a2 a3, (State.atPort s a2 a3).keep m = s.keep m := by
  intro a2 a3
  simp only [State.atPort, keep_modRing]

theorem keep_countShare (hrope : m .rope = true) (s : State) : ∀ a1, (countShare a1 s).keep m = s.keep m := by
  intro a1
  simp only [countShare, keep_atRope, hrope]

theorem keep_deliverAliases (s : State) : ∀ a1 a2 a3 a4 a5, (deliverAliases a1 a2 a3 a4 a5 s).keep m = s.keep m := by
  intro a1 a2 a3 a4 a5
  induction a5 generalizing s a1 a2 a3 a4 with
  | nil => intros; rfl
  | cons x r ih =>
    unfold deliverAliases
    repeat' first
      | with_reducible rfl
      | (simp only [keep_ite, ite_self, implies_true, true_or, or_true, and_self, ih, keep_State_atNode]; done)
      | split
      | simp only [keep_ite, ite_self, implies_true, true_or, or_true, and_self, ih, keep_State_atNode]

theorem keep_noteReady (s : State) : ∀ a1 a2, (noteReady a1 a2 s).keep m = s.keep m := by
  intro a1 a2
  simp only [noteReady, keep_ite, ite_self, keep_modRing]

theorem keep_deliverCtrl (s : State) : ∀ a1 a2, (deliverCtrl a1 a2 s).keep m = s.keep m := by
  intro a1 a2
  simp only [deliverCtrl, keep_ite, ite_self, keep_State_atCtrl, keep_noteReady, keep_deliverAliases, keep_modFreeCtr]

theorem keep_hvCheck (s : State) : ∀ a1, (hvCheck a1 s).keep m = s.keep m := by
  intro a1
  simp only [hvCheck, keep_ite, ite_self, keep_raise, keep_modHv]

theorem keep_deliverEyelet (s : State) : ∀ a1 a2, (deliverEyelet a1 a2 s).keep m = s.keep m := by
  intro a1 a2
  simp only [deliverEyelet, keep_ite, ite_self, implies_true, keep_foldl, keep_State_atNode, keep_hvCheck, keep_raise]

theorem keep_deliverSlot (s : State) : ∀ a1 a2, (deliverSlot a1 a2 s).keep m = s.keep m := by
  intro a1 a2
  simp only [deliverSlot, keep_ite, ite_self, keep_State_atCtrl, keep_deliverEyelet, keep_deliverCtrl]

theorem keep_electMaster (s : State) : (electMaster s).keep m = s.keep m := by
  simp only [electMaster, keep_modRing]

theorem keep_hvClose (s : State) : (hvClose s).keep m = s.keep m := by
  simp only [hvClose, keep_modHv]

theorem keep_sendControl (s : State) : ∀ a1 a2, (sendControl a1 a2 s).keep m = s.keep m := by
  intro a1 a2
  simp only [sendControl, keep_State_atPort]

theorem keep_sendTsReq (s : State) : ∀ a1, (sendTsReq a1 s).keep m = s.keep m := by
  intro a1
  simp only [sendTsReq, keep_ite, ite_self, keep_State_atPort, keep_sendControl, keep_State_useFree]

theorem keep_ringClose (hrope : m .rope = true) (s : State) : (ringClose s).keep m = s.keep m := by
  simp only [ringClose, keep_ite, ite_self, implies_true, or_true, keep_foldl, keep_hvClose, keep_sendTsReq, keep_electMaster, keep_countShare, keep_modLaw, keep_modRing, hrope]

theorem keep_latchAnchor (s : State) : (latchAnchor s).keep m = s.keep m := by
  unfold latchAnchor
  repeat' first
    | with_reducible rfl
    | (simp only [keep_ite, ite_self, implies_true, true_or, or_true, and_self, keep_modRing]; done)
    | split
    | simp only [keep_ite, ite_self, implies_true, true_or, or_true, and_self, keep_modRing]

theorem keep_lateSlot (s : State) : (lateSlot s).keep m = s.keep m := by
  simp only [lateSlot, keep_ite, ite_self, keep_raise, keep_modRing]

theorem keep_aliasLost (s : State) : ∀ a1, (aliasLost a1 s).keep m = s.keep m := by
  intro a1
  simp only [aliasLost, implies_true, keep_foldl, keep_State_atNode]

theorem keep_applyGroupHalt (s : State) : (applyGroupHalt s).keep m = s.keep m := by
  simp only [applyGroupHalt, keep_ite, ite_self, keep_setStop, keep_enterState, keep_unstartNow, keep_haltExit, keep_modRun, keep_modRing]

theorem keep_groupHaltPosition (s : State) : (groupHaltPosition s).keep m = s.keep m := by
  simp only [groupHaltPosition, keep_ite, ite_self, keep_applyGroupHalt]

theorem keep_groupHalt (s : State) : ∀ a1, (groupHalt a1 s).keep m = s.keep m := by
  intro a1
  simp only [groupHalt, keep_ite, ite_self, keep_groupHaltPosition, keep_modRing]

theorem keep_execGroupHalt (s : State) : ∀ a1, keepOut m (execGroupHalt a1 s) = some (s.keep m) := by
  intro a1
  simp only [execGroupHalt, keepOut_next, keep_groupHalt]

theorem keep_execGroupHaltPosition (s : State) : keepOut m (execGroupHaltPosition s) = some (s.keep m) := by
  simp only [execGroupHaltPosition, keepOut_next, keep_groupHaltPosition]

theorem keep_execGroupReady (s : State) : ∀ a1, keepOut m (execGroupReady a1 s) = some (s.keep m) := by
  intro a1
  simp only [execGroupReady, ite_self, keepOut_next, keepOut_ite, keep_modRing]

theorem keep_groupStart (hreg : m .reg = true) (s : State) : ∀ a1, (groupStart a1 s).keep m = s.keep m := by
  intro a1
  unfold groupStart
  repeat' first
    | with_reducible rfl
    | (simp only [keep_ite, ite_self, implies_true, true_or, or_true, and_self, keep_enterRun, keep_dropWait, keep_modRing, hreg]; done)
    | split
    | simp only [keep_ite, ite_self, implies_true, true_or, or_true, and_self, keep_enterRun, keep_dropWait, keep_modRing, hreg]

theorem keep_execGroupStart (hreg : m .reg = true) (s : State) : ∀ a1, keepOut m (execGroupStart a1 s) = some (s.keep m) := by
  intro a1
  simp only [execGroupStart, keepOut_next, keep_groupStart, hreg]

theorem keep_execGroupTimeout (s : State) : keepOut m (execGroupTimeout s) = some (s.keep m) := by
  unfold execGroupTimeout
  repeat' first
    | with_reducible rfl
    | (simp only [keep_ite, ite_self, implies_true, true_or, or_true, and_self, keepOut_next, keepOut_ite, keep_dropWait]; done)
    | split
    | simp only [keep_ite, ite_self, implies_true, true_or, or_true, and_self, keepOut_next, keepOut_ite, keep_dropWait]

theorem keep_nodeLost (s : State) : ∀ a1, (nodeLost a1 s).keep m = s.keep m := by
  intro a1
  simp only [nodeLost, keep_ite, ite_self, keep_State_atCtrl, keep_aliasLost, keep_State_atNode, keep_raise]

theorem keep_execNodeLost (s : State) : ∀ a1, keepOut m (execNodeLost a1 s) = some (s.keep m) := by
  intro a1
  simp only [execNodeLost, keepOut_next, keep_nodeLost]

theorem keep_setWrap (s : State) : ∀ a1 a2, (setWrap a1 a2 s).keep m = s.keep m := by
  intro a1 a2
  simp only [setWrap, keep_modRing]

theorem keep_ringPortsOff (s : State) : (ringPortsOff s).keep m = s.keep m := by
  simp only [ringPortsOff, keep_ite, ite_self, implies_true, keep_foldl, keep_setsBit, keep_State_atPort, keep_setWrap]

theorem keep_ringPortDown (s : State) : ∀ a1, (ringPortDown a1 s).keep m = s.keep m := by
  intro a1
  simp only [ringPortDown, keep_ite, ite_self, keep_countLife, keep_setsBit, keep_State_atPort, keep_setWrap, keep_raise]

theorem keep_execRingPortDown (s : State) : ∀ a1, keepOut m (execRingPortDown a1 s) = some (s.keep m) := by
  intro a1
  simp only [execRingPortDown, keepOut_next, keep_ringPortDown]

theorem keep_execRingPortRetrainTimer (s : State) : ∀ a1, keepOut m (execRingPortRetrainTimer a1 s) = some (s.keep m) := by
  intro a1
  simp only [execRingPortRetrainTimer, ite_self, keepOut_next, keepOut_ite, keep_State_atPort, keep_sendControl]

theorem keep_portUp (s : State) : ∀ a1 a2, (portUp a1 a2 s).keep m = s.keep m := by
  intro a1 a2
  simp only [portUp, keep_ite, ite_self, keep_State_atPort, keep_setWrap, keep_sendControl]

theorem keep_noteNeighbour (s : State) : ∀ a1 a2 a3, (noteNeighbour a1 a2 a3 s).keep m = s.keep m := by
  intro a1 a2 a3
  simp only [noteNeighbour, keep_ite, ite_self, keep_State_atCtrl, keep_State_atNode]

theorem keep_ringPortTraining (s : State) : ∀ a1 a2 a3 a4 a5, (ringPortTraining a1 a2 a3 a4 a5 s).keep m = s.keep m := by
  intro a1 a2 a3 a4 a5
  simp only [ringPortTraining, keep_ite, ite_self, keep_portUp, keep_noteNeighbour, keep_State_atPort, keep_sendControl]

theorem keep_execRingPortTraining (s : State) : ∀ a1 a2 a3 a4 a5, keepOut m (execRingPortTraining a1 a2 a3 a4 a5 s) = some (s.keep m) := by
  intro a1 a2 a3 a4 a5
  simp only [execRingPortTraining, keepOut_next, keep_ringPortTraining]

theorem keep_execRingTime (s : State) : keepOut m (execRingTime s) = some (s.keep m) := by
  simp only [execRingTime, ite_self, keepOut_next, keepOut_ite, keep_raise, keep_modRing]

theorem keep_followSlot (s : State) : ∀ a1, (followSlot a1 s).keep m = s.keep m := by
  intro a1
  unfold followSlot
  repeat' first
    | with_reducible rfl
    | (simp only [keep_ite, ite_self, implies_true, true_or, or_true, and_self, keep_disableSlot, keep_ackDown]; done)
    | split
    | simp only [keep_ite, ite_self, implies_true, true_or, or_true, and_self, keep_disableSlot, keep_ackDown]

theorem keep_seqShutDown (s : State) : ∀ a1, (seqShutDown a1 s).keep m = s.keep m := by
  intro a1
  simp only [seqShutDown, keep_ite, ite_self, keep_shutDown, keep_followSlot]

theorem keep_seqAbort (s : State) : (seqAbort s).keep m = s.keep m := by
  unfold seqAbort
  repeat' first
    | with_reducible rfl
    | (simp only [keep_ite, ite_self, implies_true, true_or, or_true, and_self, keep_shutDown, keep_bootFail, keep_modPwr]; done)
    | split
    | simp only [keep_ite, ite_self, implies_true, true_or, or_true, and_self, keep_shutDown, keep_bootFail, keep_modPwr]

theorem keep_seqAck (s : State) : ∀ a1 a2, (seqAck a1 a2 s).keep m = s.keep m := by
  intro a1 a2
  simp only [seqAck, keep_modPwr]

theorem keep_seqPowerUp (s : State) : ∀ a1, (seqPowerUp a1 s).keep m = s.keep m := by
  intro a1
  simp only [seqPowerUp, keep_ite, ite_self, keep_takeStep, keep_modPwr]

theorem keep_seqAct (s : State) : ∀ a1, (seqAct a1 s).keep m = s.keep m := by
  intro a1
  unfold seqAct
  repeat' first
    | with_reducible rfl
    | (simp only [keep_ite, ite_self, implies_true, true_or, or_true, and_self, keep_seqShutDown, keep_seqAbort, keep_seqAck, keep_seqPowerUp]; done)
    | split
    | simp only [keep_ite, ite_self, implies_true, true_or, or_true, and_self, keep_seqShutDown, keep_seqAbort, keep_seqAck, keep_seqPowerUp]

theorem keep_seqBlock (s : State) : ∀ a1 a2, (seqBlock a1 a2 s).keep m = s.keep m := by
  intro a1 a2
  simp only [seqBlock, keep_ite, ite_self, keep_seqAct, keep_modRing]

theorem keep_execSeq (s : State) : ∀ a1 a2, keepOut m (execSeq a1 a2 s) = some (s.keep m) := by
  intro a1 a2
  simp only [execSeq, keepOut_next, keep_seqBlock]

theorem keep_seqStepTimeout (s : State) : (seqStepTimeout s).keep m = s.keep m := by
  unfold seqStepTimeout
  repeat' first
    | with_reducible rfl
    | (simp only [keep_ite, ite_self, implies_true, true_or, or_true, and_self, keep_foldl, keep_sendSeq, keep_bootFail, keep_modPwr]; done)
    | (refine keep_foldl _ ?_ _ _; intro s a)
    | split
    | simp only [keep_ite, ite_self, implies_true, true_or, or_true, and_self, keep_foldl, keep_sendSeq, keep_bootFail, keep_modPwr]

theorem keep_execSeqStepTimeout (s : State) : keepOut m (execSeqStepTimeout s) = some (s.keep m) := by
  simp only [execSeqStepTimeout, keepOut_next, keep_seqStepTimeout]

theorem keep_slotLaunch (s : State) : (slotLaunch s).keep m = s.keep m := by
  simp only [slotLaunch, keep_ite, ite_self, keep_latchAnchor, keep_modFreeCtr, keep_modHv, keep_modRing]

theorem keep_execSlotLaunch (s : State) : keepOut m (execSlotLaunch s) = some (s.keep m) := by
  simp only [execSlotLaunch, keepOut_next, keep_slotLaunch]

theorem keep_forwardSlot (s : State) : ∀ a1 a2, (forwardSlot a1 a2 s).keep m = s.keep m := by
  intro a1 a2
  simp only [forwardSlot, keep_ite, ite_self, keep_modRing]

theorem keep_slotReceive (s : State) : ∀ a1 a2, (slotReceive a1 a2 s).keep m = s.keep m := by
  intro a1 a2
  simp only [slotReceive, keep_ite, ite_self, keep_lateSlot, keep_State_atPort, keep_forwardSlot, keep_deliverSlot]

theorem keep_execSlotReceive (s : State) : ∀ a1 a2, keepOut m (execSlotReceive a1 a2 s) = some (s.keep m) := by
  intro a1 a2
  simp only [execSlotReceive, keepOut_next, keep_slotReceive]

theorem keep_tsFup (s : State) : ∀ a1 a2, (tsFup a1 a2 s).keep m = s.keep m := by
  intro a1 a2
  unfold tsFup
  repeat' first
    | with_reducible rfl
    | (simp only [keep_ite, ite_self, implies_true, true_or, or_true, and_self, keep_State_atPort, keep_modRing]; done)
    | split
    | simp only [keep_ite, ite_self, implies_true, true_or, or_true, and_self, keep_State_atPort, keep_modRing]

theorem keep_execTsFup (s : State) : ∀ a1 a2, keepOut m (execTsFup a1 a2 s) = some (s.keep m) := by
  intro a1 a2
  simp only [execTsFup, keepOut_next, keep_tsFup]

theorem keep_execTsReq (s : State) : ∀ a1 a2 a3 a4, keepOut m (execTsReq a1 a2 a3 a4 s) = some (s.keep m) := by
  intro a1 a2 a3 a4
  simp only [execTsReq, ite_self, keepOut_next, keepOut_ite, keep_State_atPort, keep_sendControl]

theorem keep_execTsRsp (s : State) : ∀ a1 a2 a3, keepOut m (execTsRsp a1 a2 a3 s) = some (s.keep m) := by
  intro a1 a2 a3
  simp only [execTsRsp, ite_self, keepOut_next, keepOut_ite, keep_State_atPort]

end Sys2Proof.Machine
end

