-- ==== Sys2Proof/Laws/Keep5.lean ====
section
/-! SUPPORT. The parts of the state (Laws/Keep.lean) that each operation and each command leaves alone: the modules
Clocks, Consumables, Dma, SpOps, Scan, Exposure, Ist, LawInstr. A hypothesis names a part that the operation may change. -/

namespace Sys2Proof.Machine

set_option linter.unusedSimpArgs false
set_option maxRecDepth 4000

variable {m : Part → Bool}

theorem keep_backupGone (hclk : m .clk = true) (s : State) : (backupGone s).keep m = s.keep m := by
  simp only [backupGone, keep_condOn, keep_modClk, hclk]

theorem keep_toBackup (hclk : m .clk = true) (s : State) : (toBackup s).keep m = s.keep m := by
  simp only [toBackup, keep_modClk, hclk]

theorem keep_refGone (hclk : m .clk = true) (s : State) : (refGone s).keep m = s.keep m := by
  simp only [refGone, keep_ite, ite_self, keep_condOn, keep_setsBit, keep_toBackup, keep_bootFail, keep_modClk, hclk]

theorem keep_clockWindow (hclk : m .clk = true) (s : State) : ∀ a1, (clockWindow a1 s).keep m = s.keep m := by
  intro a1
  simp only [clockWindow, keep_ite, ite_self, keep_backupGone, keep_refGone, keep_condOff, keep_modClk, hclk]

theorem keep_execClockMonitorWindow (hclk : m .clk = true) (s : State) : ∀ a1, keepOut m (execClockMonitorWindow a1 s) = some (s.keep m) := by
  intro a1
  simp only [execClockMonitorWindow, keepOut_next, keep_clockWindow, hclk]

theorem keep_unlockEffect (hclk : m .clk = true) (hdma : m .dma = true) (s : State) : ∀ a1, (unlockEffect a1 s).keep m = s.keep m := by
  intro a1
  simp only [unlockEffect, keep_ite, ite_self, implies_true, keep_foldl, keep_darkNow, keep_toBackup, keep_ringPortsOff, keep_hostLinkReset, hclk, hdma]

theorem keep_pllUnlocks (hclk : m .clk = true) (hdma : m .dma = true) (s : State) : ∀ a1, (pllUnlocks a1 s).keep m = s.keep m := by
  intro a1
  simp only [pllUnlocks, keep_ite, ite_self, keep_condOn, keep_setsBit, keep_unlockEffect, keep_modClk, hclk, hdma]

theorem keep_execPllUnlock (hclk : m .clk = true) (hdma : m .dma = true) (s : State) : ∀ a1, keepOut m (execPllUnlock a1 s) = some (s.keep m) := by
  intro a1
  simp only [execPllUnlock, keepOut_next, keep_pllUnlocks, hclk, hdma]

theorem keep_execRefLost (hclk : m .clk = true) (s : State) : keepOut m (execRefLost s) = some (s.keep m) := by
  simp only [execRefLost, keepOut_next, keep_refGone, hclk]

theorem keep_refReturns (hclk : m .clk = true) (s : State) : (refReturns s).keep m = s.keep m := by
  simp only [refReturns, keep_ite, ite_self, keep_modClk, hclk]

theorem keep_execRefReturn (hclk : m .clk = true) (s : State) : keepOut m (execRefReturn s) = some (s.keep m) := by
  simp only [execRefReturn, keepOut_next, keep_refReturns, hclk]

theorem keep_tempUpdate (hclk : m .clk = true) (s : State) : ∀ a1 a2, (tempUpdate a1 a2 s).keep m = s.keep m := by
  intro a1 a2
  simp only [tempUpdate, keep_ite, ite_self, keep_setsBit, keep_condSet, keep_modClk, hclk]

theorem keep_execTemperatureCompensationUpdate (hclk : m .clk = true) (s : State) : ∀ a1 a2, keepOut m (execTemperatureCompensationUpdate a1 a2 s) = some (s.keep m) := by
  intro a1 a2
  simp only [execTemperatureCompensationUpdate, keepOut_next, keep_tempUpdate, hclk]

theorem keep_State_atTag (hcons : m .cons = true) (s : State) : ∀ a2 a3, (State.atTag s a2 a3).keep m = s.keep m := by
  intro a2 a3
  simp only [State.atTag, keep_modCons, hcons]

theorem keep_syncDone (s : State) : (syncDone s).keep m = s.keep m := by
  unfold syncDone
  repeat' first
    | with_reducible rfl
    | (simp only [keep_ite, ite_self, implies_true, true_or, or_true, and_self, keep_complete, keep_modHost]; done)
    | split
    | simp only [keep_ite, ite_self, implies_true, true_or, or_true, and_self, keep_complete, keep_modHost]

theorem keep_consumableSync (s : State) : ∀ a1 a2, (consumableSync a1 a2 s).keep m = s.keep m := by
  intro a1 a2
  simp only [consumableSync, keep_ite, ite_self, implies_true, keep_syncDone, keep_reject, keep_message, keep_modHost]

theorem keep_endTag (hcons : m .cons = true) (s : State) : ∀ a1 a2, (endTag a1 a2 s).keep m = s.keep m := by
  intro a1 a2
  unfold endTag
  repeat' first
    | with_reducible rfl
    | (simp only [keep_ite, ite_self, implies_true, true_or, or_true, and_self, keep_syncDone, keep_modCons, keep_modHost, hcons]; done)
    | split
    | simp only [keep_ite, ite_self, implies_true, true_or, or_true, and_self, keep_syncDone, keep_modCons, keep_modHost, hcons]

theorem keep_execConsumableSync (s : State) : ∀ a1 a2, keepOut m (execConsumableSync a1 a2 s) = some (s.keep m) := by
  intro a1 a2
  simp only [execConsumableSync, keepOut_next, keep_consumableSync]

theorem keep_execConsumableSyncTimer (hcons : m .cons = true) (s : State) : keepOut m (execConsumableSyncTimer s) = some (s.keep m) := by
  simp only [execConsumableSyncTimer, keep_ite, ite_self, keepOut_next, keep_modCons, hcons]

theorem keep_execLifetimeCounterPersist (s : State) : keepOut m (execLifetimeCounterPersist s) = some (s.keep m) := by
  simp only [execLifetimeCounterPersist, keepOut_next, keep_persistLife]

theorem keep_takeResponse (hcons : m .cons = true) (s : State) : ∀ a1 a2, (takeResponse a1 a2 s).keep m = s.keep m := by
  intro a1 a2
  simp only [takeResponse, keep_ite, ite_self, keep_endTag, keep_State_atTag, keep_raise, hcons]

theorem keep_tryFailed (hcons : m .cons = true) (s : State) : ∀ a1 a2 a3, (tryFailed a1 a2 a3 s).keep m = s.keep m := by
  intro a1 a2 a3
  simp only [tryFailed, keep_ite, ite_self, keep_endTag, keep_State_atTag, keep_raise, keep_modCons, hcons]

theorem keep_tagPoll (hcons : m .cons = true) (s : State) : ∀ a1, (tagPoll a1 s).keep m = s.keep m := by
  intro a1
  unfold tagPoll
  repeat' first
    | with_reducible rfl
    | (simp only [keep_ite, ite_self, implies_true, true_or, or_true, and_self, keep_takeResponse, keep_tryFailed, keep_modCons, hcons]; done)
    | split
    | simp only [keep_ite, ite_self, implies_true, true_or, or_true, and_self, keep_takeResponse, keep_tryFailed, keep_modCons, hcons]

theorem keep_execTagPoll (hcons : m .cons = true) (s : State) : ∀ a1, keepOut m (execTagPoll a1 s) = some (s.keep m) := by
  intro a1
  simp only [execTagPoll, keepOut_next, keep_tagPoll, hcons]

theorem keep_logDiscarded (hcons : m .cons = true) (s : State) : ∀ a1 a2, (logDiscarded a1 a2 s).keep m = s.keep m := by
  intro a1 a2
  simp only [logDiscarded, keep_ite, ite_self, keep_modCons, hcons]

theorem keep_rootRefused (hcons : m .cons = true) (s : State) : (rootRefused s).keep m = s.keep m := by
  simp only [rootRefused, keep_ite, ite_self, keep_raise, keep_modCons, hcons]

theorem keep_sendCommand (hcons : m .cons = true) (s : State) : ∀ a1 a2 a3, (sendCommand a1 a2 a3 s).keep m = s.keep m := by
  intro a1 a2 a3
  simp only [sendCommand, keep_State_atTag, keep_modCons, hcons]

theorem keep_takeHeader (hcons : m .cons = true) (s : State) : ∀ a1 a2 a3, (takeHeader a1 a2 a3 s).keep m = s.keep m := by
  intro a1 a2 a3
  simp only [takeHeader, keep_ite, ite_self, keep_logDiscarded, keep_rootRefused, keep_endTag, keep_State_atTag, keep_raise, keep_sendCommand, hcons]

theorem keep_tagSync (hcons : m .cons = true) (s : State) : ∀ a1 a2, (tagSync a1 a2 s).keep m = s.keep m := by
  intro a1 a2
  unfold tagSync
  repeat' first
    | with_reducible rfl
    | (simp only [keep_ite, ite_self, implies_true, true_or, or_true, and_self, keep_chargeHeaters, keep_takeHeader, keep_tryFailed, keep_modCons, hcons]; done)
    | split
    | simp only [keep_ite, ite_self, implies_true, true_or, or_true, and_self, keep_chargeHeaters, keep_takeHeader, keep_tryFailed, keep_modCons, hcons]

theorem keep_execTagSynchronisation (hcons : m .cons = true) (s : State) : ∀ a1 a2, keepOut m (execTagSynchronisation a1 a2 s) = some (s.keep m) := by
  intro a1 a2
  simp only [execTagSynchronisation, keepOut_next, keep_tagSync, hcons]

theorem keep_execUsageMirrorPersist (hcons : m .cons = true) (s : State) : keepOut m (execUsageMirrorPersist s) = some (s.keep m) := by
  simp only [execUsageMirrorPersist, keepOut_next, keep_chargeHeaters, keep_modCons, hcons]

theorem keep_dmaStart (hdma : m .dma = true) (s : State) : ∀ a1, (dmaStart a1 s).keep m = s.keep m := by
  intro a1
  simp only [dmaStart, keep_ite, ite_self, keep_State_atCh, hdma]

theorem keep_dmaResume (hdma : m .dma = true) (s : State) : ∀ a1, (dmaResume a1 s).keep m = s.keep m := by
  intro a1
  unfold dmaResume
  repeat' first
    | with_reducible rfl
    | (simp only [keep_ite, ite_self, implies_true, true_or, or_true, and_self, keep_State_atCh, hdma]; done)
    | split
    | simp only [keep_ite, ite_self, implies_true, true_or, or_true, and_self, keep_State_atCh, hdma]

theorem keep_dmaStop (hdma : m .dma = true) (s : State) : ∀ a1, (dmaStop a1 s).keep m = s.keep m := by
  intro a1
  unfold dmaStop
  repeat' first
    | with_reducible rfl
    | (simp only [keep_ite, ite_self, implies_true, true_or, or_true, and_self, keep_State_atCh, hdma]; done)
    | split
    | simp only [keep_ite, ite_self, implies_true, true_or, or_true, and_self, keep_State_atCh, hdma]

theorem keep_dmaReset (hdma : m .dma = true) (s : State) : ∀ a1, (dmaReset a1 s).keep m = s.keep m := by
  intro a1
  unfold dmaReset
  repeat' first
    | with_reducible rfl
    | (simp only [keep_ite, ite_self, implies_true, true_or, or_true, and_self, keep_State_atCh, hdma]; done)
    | split
    | simp only [keep_ite, ite_self, implies_true, true_or, or_true, and_self, keep_State_atCh, hdma]

theorem keep_dmaAnswered (hdma : m .dma = true) (s : State) : ∀ a1 a2, (dmaAnswered a1 a2 s).keep m = s.keep m := by
  intro a1 a2
  unfold dmaAnswered
  repeat' first
    | with_reducible rfl
    | (simp only [keep_ite, ite_self, implies_true, true_or, or_true, and_self, keep_dmaFinish, hdma]; done)
    | split
    | simp only [keep_ite, ite_self, implies_true, true_or, or_true, and_self, keep_dmaFinish, hdma]

theorem keep_dmaBurstFails (hdma : m .dma = true) (s : State) : ∀ a1 a2, (dmaBurstFails a1 a2 s).keep m = s.keep m := by
  intro a1 a2
  unfold dmaBurstFails
  repeat' first
    | with_reducible rfl
    | (simp only [keep_ite, ite_self, implies_true, true_or, or_true, and_self, keep_State_atCh, hdma]; done)
    | split
    | simp only [keep_ite, ite_self, implies_true, true_or, or_true, and_self, keep_State_atCh, hdma]

theorem keep_writeCuRun (hdma : m .dma = true) (s : State) : ∀ a1 a2, (writeCuRun a1 a2 s).keep m = s.keep m := by
  intro a1 a2
  simp only [writeCuRun, keep_State_atCu, hdma]

theorem keep_execCheckUnitRunWrite (hdma : m .dma = true) (s : State) : ∀ a1 a2, keepOut m (execCheckUnitRunWrite a1 a2 s) = some (s.keep m) := by
  intro a1 a2
  simp only [execCheckUnitRunWrite, keep_ite, ite_self, keepOut_next, keep_writeCuRun, hdma]

theorem keep_writeChanCfg (hdma : m .dma = true) (s : State) : ∀ a1 a2, (writeChanCfg a1 a2 s).keep m = s.keep m := by
  intro a1 a2
  simp only [writeChanCfg, keep_State_atCh, hdma]

theorem keep_execDmaConfigWrite (hdma : m .dma = true) (s : State) : ∀ a1 a2, keepOut m (execDmaConfigWrite a1 a2 s) = some (s.keep m) := by
  intro a1 a2
  simp only [execDmaConfigWrite, keep_ite, ite_self, keepOut_next, keep_writeChanCfg, hdma]

theorem keep_execDmaEnd (hdma : m .dma = true) (s : State) : ∀ a1, keepOut m (execDmaEnd a1 s) = some (s.keep m) := by
  intro a1
  unfold execDmaEnd
  repeat' first
    | with_reducible rfl
    | (simp only [keep_ite, ite_self, implies_true, true_or, or_true, and_self, keepOut_next, keepOut_ite, keep_State_atCh, keep_dmaExec, hdma]; done)
    | refine congrArg some ?_
    | (refine keep_dmaExec _ _ _ hdma ?_ _; intro o s)
    | split
    | simp only [keep_ite, ite_self, implies_true, true_or, or_true, and_self, keepOut_next, keepOut_ite, keep_State_atCh, keep_dmaExec, hdma]

theorem keep_execDmaInstructionComplete (hdma : m .dma = true) (hstore : m .store = true) (hmem : m .mem = true) (hram : m .ram = true) (hwords : m .words = true) (s : State) : ∀ a1 a2, keepOut m (execDmaInstructionComplete a1 a2 s) = some (s.keep m) := by
  intro a1 a2
  simp only [execDmaInstructionComplete, keep_ite, ite_self, keepOut_next, keepOut_ite, keep_dmaServe, keep_dmaHaltOpen, keep_dmaBurstFails, keep_dmaAnswered, hdma, hstore, hmem, hram, hwords]

theorem keep_execDmaReset (hdma : m .dma = true) (s : State) : ∀ a1, keepOut m (execDmaReset a1 s) = some (s.keep m) := by
  intro a1
  simp only [execDmaReset, keep_ite, ite_self, keepOut_next, keep_dmaReset, hdma]

theorem keep_execDmaResume (hdma : m .dma = true) (s : State) : ∀ a1, keepOut m (execDmaResume a1 s) = some (s.keep m) := by
  intro a1
  simp only [execDmaResume, keep_ite, ite_self, keepOut_next, keep_dmaResume, hdma]

theorem keep_execDmaStart (hdma : m .dma = true) (s : State) : ∀ a1, keepOut m (execDmaStart a1 s) = some (s.keep m) := by
  intro a1
  simp only [execDmaStart, keep_ite, ite_self, keepOut_next, keep_dmaStart, hdma]

theorem keep_execDmaStop (hdma : m .dma = true) (hstore : m .store = true) (hmem : m .mem = true) (hram : m .ram = true) (hwords : m .words = true) (s : State) : ∀ a1, keepOut m (execDmaStop a1 s) = some (s.keep m) := by
  intro a1
  simp only [execDmaStop, keep_ite, ite_self, keepOut_next, keep_dmaStop, keep_dmaServe, hdma, hstore, hmem, hram, hwords]

theorem keep_writeChanTail (hdma : m .dma = true) (s : State) : ∀ a1 a2, (writeChanTail a1 a2 s).keep m = s.keep m := by
  intro a1 a2
  simp only [writeChanTail, keep_State_atCh, hdma]

theorem keep_execDmaTailWrite (hdma : m .dma = true) (s : State) : ∀ a1 a2, keepOut m (execDmaTailWrite a1 a2 s) = some (s.keep m) := by
  intro a1 a2
  simp only [execDmaTailWrite, keep_ite, ite_self, keepOut_next, keep_writeChanTail, hdma]

theorem keep_execJump (hdma : m .dma = true) (s : State) : ∀ a1, keepOut m (execJump a1 s) = some (s.keep m) := by
  intro a1
  unfold execJump
  repeat' first
    | with_reducible rfl
    | (simp only [keep_ite, ite_self, implies_true, true_or, or_true, and_self, keepOut_next, keepOut_ite, keep_State_atCh, keep_dmaBoundary, keep_dmaExec, hdma]; done)
    | refine congrArg some ?_
    | (refine keep_dmaExec _ _ _ hdma ?_ _; intro o s)
    | split
    | simp only [keep_ite, ite_self, implies_true, true_or, or_true, and_self, keepOut_next, keepOut_ite, keep_State_atCh, keep_dmaBoundary, keep_dmaExec, hdma]

theorem keep_execLoop (hdma : m .dma = true) (s : State) : ∀ a1, keepOut m (execLoop a1 s) = some (s.keep m) := by
  intro a1
  unfold execLoop
  repeat' first
    | with_reducible rfl
    | (simp only [keep_ite, ite_self, implies_true, true_or, or_true, and_self, keepOut_next, keepOut_ite, keep_dmaLoop, keep_dmaExec, hdma]; done)
    | refine congrArg some ?_
    | (refine keep_dmaExec _ _ _ hdma ?_ _; intro o s)
    | split
    | simp only [keep_ite, ite_self, implies_true, true_or, or_true, and_self, keepOut_next, keepOut_ite, keep_dmaLoop, keep_dmaExec, hdma]

theorem keep_execMove (hdma : m .dma = true) (hstore : m .store = true) (hmem : m .mem = true) (hram : m .ram = true) (hwords : m .words = true) (s : State) : ∀ a1 a2 a3, keepOut m (execMove a1 a2 a3 s) = some (s.keep m) := by
  intro a1 a2 a3
  unfold execMove
  repeat' first
    | with_reducible rfl
    | (simp only [keep_ite, ite_self, implies_true, true_or, or_true, and_self, keepOut_next, keepOut_ite, keep_dmaBegin, keep_dmaExec, hdma, hstore, hmem, hram, hwords]; done)
    | refine congrArg some ?_
    | (refine keep_dmaExec _ _ _ hdma ?_ _; intro o s)
    | split
    | simp only [keep_ite, ite_self, implies_true, true_or, or_true, and_self, keepOut_next, keepOut_ite, keep_dmaBegin, keep_dmaExec, hdma, hstore, hmem, hram, hwords]

theorem keep_execNop (hdma : m .dma = true) (s : State) : ∀ a1, keepOut m (execNop a1 s) = some (s.keep m) := by
  intro a1
  unfold execNop
  repeat' first
    | with_reducible rfl
    | (simp only [keep_ite, ite_self, implies_true, true_or, or_true, and_self, keepOut_next, keepOut_ite, keep_dmaBoundary, keep_dmaExec, hdma]; done)
    | refine congrArg some ?_
    | (refine keep_dmaExec _ _ _ hdma ?_ _; intro o s)
    | split
    | simp only [keep_ite, ite_self, implies_true, true_or, or_true, and_self, keepOut_next, keepOut_ite, keep_dmaBoundary, keep_dmaExec, hdma]

theorem keep_execScan (hdma : m .dma = true) (hstore : m .store = true) (hmem : m .mem = true) (hram : m .ram = true) (hwords : m .words = true) (s : State) : ∀ a1 a2 a3, keepOut m (execScan a1 a2 a3 s) = some (s.keep m) := by
  intro a1 a2 a3
  unfold execScan
  repeat' first
    | with_reducible rfl
    | (simp only [keep_ite, ite_self, implies_true, true_or, or_true, and_self, keepOut_next, keepOut_ite, keep_dmaScan, keep_dmaExec, hdma, hstore, hmem, hram, hwords]; done)
    | refine congrArg some ?_
    | (refine keep_dmaExec _ _ _ hdma ?_ _; intro o s)
    | split
    | simp only [keep_ite, ite_self, implies_true, true_or, or_true, and_self, keepOut_next, keepOut_ite, keep_dmaScan, keep_dmaExec, hdma, hstore, hmem, hram, hwords]

theorem keep_execSignal (hdma : m .dma = true) (s : State) : ∀ a1, keepOut m (execSignal a1 s) = some (s.keep m) := by
  intro a1
  unfold execSignal
  repeat' first
    | with_reducible rfl
    | (simp only [keep_ite, ite_self, implies_true, true_or, or_true, and_self, keepOut_next, keepOut_ite, keep_dmaSignal, keep_dmaExec, hdma]; done)
    | refine congrArg some ?_
    | (refine keep_dmaExec _ _ _ hdma ?_ _; intro o s)
    | split
    | simp only [keep_ite, ite_self, implies_true, true_or, or_true, and_self, keepOut_next, keepOut_ite, keep_dmaSignal, keep_dmaExec, hdma]

theorem keep_execWait (hdma : m .dma = true) (s : State) : ∀ a1, keepOut m (execWait a1 s) = some (s.keep m) := by
  intro a1
  unfold execWait
  repeat' first
    | with_reducible rfl
    | (simp only [keep_ite, ite_self, implies_true, true_or, or_true, and_self, keepOut_next, keepOut_ite, keep_State_atCh, keep_dmaExec, hdma]; done)
    | refine congrArg some ?_
    | (refine keep_dmaExec _ _ _ hdma ?_ _; intro o s)
    | split
    | simp only [keep_ite, ite_self, implies_true, true_or, or_true, and_self, keepOut_next, keepOut_ite, keep_State_atCh, keep_dmaExec, hdma]

theorem keep_execWaitComplete (hdma : m .dma = true) (s : State) : ∀ a1, keepOut m (execWaitComplete a1 s) = some (s.keep m) := by
  intro a1
  unfold execWaitComplete
  repeat' first
    | with_reducible rfl
    | (simp only [keep_ite, ite_self, implies_true, true_or, or_true, and_self, keepOut_next, keepOut_ite, keep_dmaBoundary, hdma]; done)
    | (rename_i hw; exact congrArg some (keep_waitDone hdma _ _ _ _ _ _ hw))
    | split
    | simp only [keep_ite, ite_self, implies_true, true_or, or_true, and_self, keepOut_next, keepOut_ite, keep_dmaBoundary, hdma]

theorem keep_facetPart (s : State) : ∀ a1 a2, (facetPart a1 a2 s).keep m = s.keep m := by
  intro a1 a2
  simp only [facetPart, keep_ite, ite_self, keep_atSp]

theorem keep_catchFailed (s : State) : ∀ a1, (catchFailed a1 s).keep m = s.keep m := by
  intro a1
  simp only [catchFailed, keep_setsBit, keep_atSp]

theorem keep_setGates (s : State) : ∀ a1, (setGates a1 s).keep m = s.keep m := by
  intro a1
  simp only [setGates, keep_atSp]

theorem keep_enterSp (s : State) : ∀ a1 a2 a3, (enterSp a1 a2 a3 s).keep m = s.keep m := by
  intro a1 a2 a3
  simp only [enterSp, keep_setGates, keep_atSp]

theorem keep_enterShort (s : State) : ∀ a1, (enterShort a1 s).keep m = s.keep m := by
  intro a1
  simp only [enterShort, keep_enterSp]

theorem keep_coastSpeed (s : State) : ∀ a1, (coastSpeed a1 s).keep m = s.keep m := by
  intro a1
  simp only [coastSpeed, keep_ite, ite_self, keep_catchFailed, keep_enterShort, keep_atSp]

theorem keep_syncLoss (s : State) : ∀ a1, (syncLoss a1 s).keep m = s.keep m := by
  intro a1
  simp only [syncLoss, keep_dropChannel, keep_atSp]

theorem keep_enterClosed (s : State) : ∀ a1, (enterClosed a1 s).keep m = s.keep m := by
  intro a1
  simp only [enterClosed, keep_enterSp]

theorem keep_drive (s : State) : ∀ a1 a2, (drive a1 a2 s).keep m = s.keep m := by
  intro a1 a2
  simp only [drive, keep_atSp]

theorem keep_enterAlign (s : State) : ∀ a1, (enterAlign a1 s).keep m = s.keep m := by
  intro a1
  simp only [enterAlign, keep_enterSp]

theorem keep_enterBrake (s : State) : ∀ a1, (enterBrake a1 s).keep m = s.keep m := by
  intro a1
  simp only [enterBrake, keep_leaveLock, keep_enterSp]

theorem keep_startSense (s : State) : ∀ a1, (startSense a1 s).keep m = s.keep m := by
  intro a1
  simp only [startSense, keep_enterSp]

theorem keep_senseOrCoast (s : State) : ∀ a1, (senseOrCoast a1 s).keep m = s.keep m := by
  intro a1
  simp only [senseOrCoast, keep_ite, ite_self, keep_dropChannel, keep_startSense]

theorem keep_enterOff (s : State) : ∀ a1, (enterOff a1 s).keep m = s.keep m := by
  intro a1
  simp only [enterOff, keep_ite, ite_self, keep_senseOrCoast, keep_enterSp, keep_atSp]

theorem keep_enterRamp (s : State) : ∀ a1, (enterRamp a1 s).keep m = s.keep m := by
  intro a1
  simp only [enterRamp, keep_enterSp]

theorem keep_rampFailed (s : State) : ∀ a1, (rampFailed a1 s).keep m = s.keep m := by
  intro a1
  simp only [rampFailed, keep_enterShort, keep_atSp]

theorem keep_speedRows (s : State) : ∀ a1, (speedRows a1 s).keep m = s.keep m := by
  intro a1
  unfold speedRows
  repeat' first
    | with_reducible rfl
    | (simp only [keep_ite, ite_self, implies_true, true_or, or_true, and_self, keep_coastSpeed, keep_enterShort, keep_rampFailed, keep_atSp]; done)
    | split
    | simp only [keep_ite, ite_self, implies_true, true_or, or_true, and_self, keep_coastSpeed, keep_enterShort, keep_rampFailed, keep_atSp]

theorem keep_startFailed (s : State) : ∀ a1, (startFailed a1 s).keep m = s.keep m := by
  intro a1
  simp only [startFailed, keep_setsBit, keep_enterOff, keep_atSp]

theorem keep_shortOver (s : State) : ∀ a1, (shortOver a1 s).keep m = s.keep m := by
  intro a1
  simp only [shortOver, keep_ite, ite_self, keep_startFailed, keep_enterAlign, keep_enterOff]

theorem keep_spDrive (s : State) : ∀ a1, (spDrive a1 s).keep m = s.keep m := by
  intro a1
  simp only [spDrive, keep_raise]

theorem keep_noteRun (s : State) : ∀ a1, (noteRun a1 s).keep m = s.keep m := by
  intro a1
  simp only [noteRun, keep_atSp]

theorem keep_runCommand (s : State) : ∀ a1, (runCommand a1 s).keep m = s.keep m := by
  intro a1
  unfold runCommand
  repeat' first
    | with_reducible rfl
    | (simp only [keep_ite, ite_self, implies_true, true_or, or_true, and_self, keep_enterClosed, keep_senseOrCoast, keep_enterBrake, keep_noteRun, keep_enterShort]; done)
    | split
    | simp only [keep_ite, ite_self, implies_true, true_or, or_true, and_self, keep_enterClosed, keep_senseOrCoast, keep_enterBrake, keep_noteRun, keep_enterShort]

theorem keep_settleOwed (s : State) : ∀ a1 a2, (settleOwed a1 a2 s).keep m = s.keep m := by
  intro a1 a2
  unfold settleOwed
  repeat' first
    | with_reducible rfl
    | (simp only [keep_ite, ite_self, implies_true, true_or, or_true, and_self, keep_countLife, keep_idleCheck, keep_spDrive, keep_raise]; done)
    | split
    | simp only [keep_ite, ite_self, implies_true, true_or, or_true, and_self, keep_countLife, keep_idleCheck, keep_spDrive, keep_raise]

theorem keep_settleChannel (s : State) : ∀ a1, (settleChannel a1 s).keep m = s.keep m := by
  intro a1
  unfold settleChannel
  repeat' first
    | with_reducible rfl
    | (simp only [keep_ite, ite_self, implies_true, true_or, or_true, and_self, keep_foldl, keep_settleOwed, keep_atSp]; done)
    | (refine keep_foldl _ ?_ _ _; intro s a)
    | split
    | simp only [keep_ite, ite_self, implies_true, true_or, or_true, and_self, keep_foldl, keep_settleOwed, keep_atSp]

theorem keep_judgePrediction (s : State) : ∀ a1 a2, (judgePrediction a1 a2 s).keep m = s.keep m := by
  intro a1 a2
  simp only [judgePrediction, keep_ite, ite_self, keep_setsBit, keep_raise, keep_atScan]

theorem keep_badRev (s : State) : ∀ a1, (badRev a1 s).keep m = s.keep m := by
  intro a1
  simp only [badRev, keep_ite, ite_self, keep_leaveLock, keep_State_useFree, keep_atSp]

theorem keep_noteLock (s : State) : ∀ a1, (noteLock a1 s).keep m = s.keep m := by
  intro a1
  simp only [noteLock, keep_ite, ite_self, keep_unblank]

theorem keep_goodRev (s : State) : ∀ a1, (goodRev a1 s).keep m = s.keep m := by
  intro a1
  simp only [goodRev, keep_ite, ite_self, keep_noteLock, keep_atSp, keep_atScan]

theorem keep_scanInterval (s : State) : ∀ a1 a2, (scanInterval a1 a2 s).keep m = s.keep m := by
  intro a1 a2
  simp only [scanInterval, keep_ite, ite_self, keep_badRev, keep_goodRev, keep_atScan]

theorem keep_settleFacet (hfacet : m .facet = true) (s : State) : ∀ a1, (settleFacet a1 s).keep m = s.keep m := by
  intro a1
  unfold settleFacet
  repeat' first
    | with_reducible rfl
    | (simp only [keep_ite, ite_self, implies_true, true_or, or_true, and_self, keep_slipCheck, keep_noteDead, keep_chooseWindow, keep_atExpo, hfacet]; done)
    | split
    | simp only [keep_ite, ite_self, implies_true, true_or, or_true, and_self, keep_slipCheck, keep_noteDead, keep_chooseWindow, keep_atExpo, hfacet]

theorem keep_transmit (s : State) : ∀ a1 a2 a3, (transmit a1 a2 a3 s).keep m = s.keep m := by
  intro a1 a2 a3
  unfold transmit
  repeat' first
    | with_reducible rfl
    | (simp only [keep_ite, ite_self, implies_true, true_or, or_true, and_self, keep_State_useFree, keep_atExpo]; done)
    | split
    | simp only [keep_ite, ite_self, implies_true, true_or, or_true, and_self, keep_State_useFree, keep_atExpo]

theorem keep_deliverScan (hfacet : m .facet = true) (s : State) : ∀ a1 a2 a3, (deliverScan a1 a2 a3 s).keep m = s.keep m := by
  intro a1 a2 a3
  simp only [deliverScan, keep_ite, ite_self, keep_scanInterval, keep_settleFacet, keep_facetPart, keep_transmit, keep_atScan, hfacet]

theorem keep_modelPulse (s : State) : ∀ a1 a2 a3 a4, (modelPulse a1 a2 a3 a4 s).keep m = s.keep m := by
  intro a1 a2 a3 a4
  simp only [modelPulse, keep_ite, ite_self, keep_setsBit, keep_atScan]

theorem keep_acceptPulse (hfacet : m .facet = true) (s : State) : ∀ a1 a2 a3, (acceptPulse a1 a2 a3 s).keep m = s.keep m := by
  intro a1 a2 a3
  simp only [acceptPulse, keep_ite, ite_self, keep_judgePrediction, keep_deliverScan, keep_modelPulse, keep_noteLock, keep_atScan, hfacet]

theorem keep_writeCross (s : State) : ∀ a1 a2 a3, (writeCross a1 a2 a3 s).keep m = s.keep m := by
  intro a1 a2 a3
  simp only [writeCross, keep_atScan]

theorem keep_execScanCrossWrite (s : State) : ∀ a1 a2 a3, keepOut m (execScanCrossWrite a1 a2 a3 s) = some (s.keep m) := by
  intro a1 a2 a3
  simp only [execScanCrossWrite, keep_ite, ite_self, keepOut_next, keep_writeCross]

theorem keep_sosPulse (hfacet : m .facet = true) (s : State) : ∀ a1 a2 a3 a4, (sosPulse a1 a2 a3 a4 s).keep m = s.keep m := by
  intro a1 a2 a3 a4
  simp only [sosPulse, keep_ite, ite_self, keep_acceptPulse, keep_State_useFree, hfacet]

theorem keep_execSosPulse (hfacet : m .facet = true) (s : State) : ∀ a1 a2 a3 a4, keepOut m (execSosPulse a1 a2 a3 a4 s) = some (s.keep m) := by
  intro a1 a2 a3 a4
  simp only [execSosPulse, keep_ite, ite_self, keepOut_next, keep_sosPulse, hfacet]

theorem keep_substitute (hfacet : m .facet = true) (s : State) : ∀ a1, (substitute a1 s).keep m = s.keep m := by
  intro a1
  simp only [substitute, keep_ite, ite_self, keep_deliverScan, keep_raise, keep_atScan, hfacet]

theorem keep_execSosWindowExpiry (hfacet : m .facet = true) (s : State) : ∀ a1, keepOut m (execSosWindowExpiry a1 s) = some (s.keep m) := by
  intro a1
  simp only [execSosWindowExpiry, keep_ite, ite_self, keepOut_next, keep_substitute, hfacet]

theorem keep_expoDown (s : State) : ∀ a1, (expoDown a1 s).keep m = s.keep m := by
  intro a1
  simp only [expoDown, keep_ite, ite_self, keep_raise, keep_atExpo]

theorem keep_badFrame (s : State) : ∀ a1, (badFrame a1 s).keep m = s.keep m := by
  intro a1
  simp only [badFrame, keep_ite, ite_self, keep_expoDown, keep_atExpo]

theorem keep_noteHealth (s : State) : ∀ a1 a2 a3 a4, (noteHealth a1 a2 a3 a4 s).keep m = s.keep m := by
  intro a1 a2 a3 a4
  simp only [noteHealth, keep_ite, ite_self, keep_raise, keep_atExpo]

theorem keep_linkCrc (s : State) : ∀ a1 a2 a3, (linkCrc a1 a2 a3 s).keep m = s.keep m := by
  intro a1 a2 a3
  simp only [linkCrc, keep_raise, keep_modJobs]

theorem keep_noteCrc (s : State) : ∀ a1 a2 a3 a4, (noteCrc a1 a2 a3 a4 s).keep m = s.keep m := by
  intro a1 a2 a3 a4
  simp only [noteCrc, keep_ite, ite_self, keep_linkCrc, keep_atExpo]

theorem keep_tempLimitOn (s : State) : ∀ a1, (tempLimitOn a1 s).keep m = s.keep m := by
  intro a1
  simp only [tempLimitOn, keep_holdBlank, keep_atExpo]

theorem keep_tempLimitOff (s : State) : ∀ a1, (tempLimitOff a1 s).keep m = s.keep m := by
  intro a1
  simp only [tempLimitOff, keep_unblank, keep_atExpo]

theorem keep_noteTemp (s : State) : ∀ a1 a2, (noteTemp a1 a2 s).keep m = s.keep m := by
  intro a1 a2
  simp only [noteTemp, keep_ite, ite_self, keep_tempLimitOn, keep_tempLimitOff, keep_raise, keep_atExpo]

theorem keep_goodFrame (s : State) : ∀ a1 a2, (goodFrame a1 a2 s).keep m = s.keep m := by
  intro a1 a2
  simp only [goodFrame, keep_ite, ite_self, keep_expoDown, keep_noteHealth, keep_noteCrc, keep_endPassed, keep_noteTemp, keep_atExpo]

theorem keep_backFrame (s : State) : ∀ a1 a2, (backFrame a1 a2 s).keep m = s.keep m := by
  intro a1 a2
  simp only [backFrame, keep_ite, ite_self, keep_badFrame, keep_goodFrame]

theorem keep_execBackLaneStatusFrame (s : State) : ∀ a1 a2, keepOut m (execBackLaneStatusFrame a1 a2 s) = some (s.keep m) := by
  intro a1 a2
  simp only [execBackLaneStatusFrame, keep_ite, ite_self, keepOut_next, keep_backFrame]

theorem keep_writeDead (s : State) : ∀ a1 a2 a3, (writeDead a1 a2 a3 s).keep m = s.keep m := by
  intro a1 a2 a3
  simp only [writeDead, keep_ite, ite_self, keep_atExpo]

theorem keep_execDeadMaskWrite (s : State) : ∀ a1 a2 a3, keepOut m (execDeadMaskWrite a1 a2 a3 s) = some (s.keep m) := by
  intro a1 a2 a3
  simp only [execDeadMaskWrite, keep_ite, ite_self, keepOut_next, keep_writeDead]

theorem keep_execEmitterTempStale (s : State) : ∀ a1, keepOut m (execEmitterTempStale a1 s) = some (s.keep m) := by
  intro a1
  simp only [execEmitterTempStale, keep_ite, ite_self, keepOut_next, keep_tempLimitOn, keep_raise]

theorem keep_execExpoLinkLost (s : State) : ∀ a1, keepOut m (execExpoLinkLost a1 s) = some (s.keep m) := by
  intro a1
  simp only [execExpoLinkLost, keepOut_next, keep_expoDown]

theorem keep_execExpoLinkTraining (s : State) : ∀ a1 a2, keepOut m (execExpoLinkTraining a1 a2 s) = some (s.keep m) := by
  intro a1 a2
  simp only [execExpoLinkTraining, keep_ite, ite_self, keepOut_next, keep_raise, keep_atExpo]

theorem keep_execLaserEchoMismatch (s : State) : ∀ a1, keepOut m (execLaserEchoMismatch a1 s) = some (s.keep m) := by
  intro a1
  simp only [execLaserEchoMismatch, keepOut_next, keep_raise]

theorem keep_execPartnerConfigWrite (s : State) : ∀ a1 a2, keepOut m (execPartnerConfigWrite a1 a2 s) = some (s.keep m) := by
  intro a1 a2
  simp only [execPartnerConfigWrite, keep_ite, ite_self, keepOut_next, keep_atExpo]

theorem keep_writeTone (s : State) : ∀ a1 a2 a3, (writeTone a1 a2 a3 s).keep m = s.keep m := by
  intro a1 a2 a3
  simp only [writeTone, keep_ite, ite_self, keep_atExpo]

theorem keep_writeHold (s : State) : ∀ a1 a2, (writeHold a1 a2 s).keep m = s.keep m := by
  intro a1 a2
  simp only [writeHold, keep_atExpo]

theorem keep_execToneEntryWrite (s : State) : ∀ a1 a2 a3, keepOut m (execToneEntryWrite a1 a2 a3 s) = some (s.keep m) := by
  intro a1 a2 a3
  simp only [execToneEntryWrite, keep_ite, ite_self, keepOut_next, keep_writeTone]

theorem keep_execToneHoldWrite (s : State) : ∀ a1 a2, keepOut m (execToneHoldWrite a1 a2 s) = some (s.keep m) := by
  intro a1 a2
  simp only [execToneHoldWrite, keep_ite, ite_self, keepOut_next, keep_writeHold]

theorem keep_State_atIst (hist : m .ist = true) (s : State) : ∀ a2 a3, (State.atIst s a2 a3).keep m = s.keep m := by
  intro a2 a3
  simp only [State.atIst, keep_modIst, hist]

theorem keep_loadTap (s : State) : ∀ a1 a2, (loadTap a1 a2 s).keep m = s.keep m := by
  intro a1 a2
  simp only [loadTap, keep_modTap]

theorem keep_execBypass (s : State) : keepOut m (execBypass s) = some (s.keep m) := by
  simp only [execBypass, keepOut_next, keep_loadTap]

theorem keep_execClamp (s : State) : keepOut m (execClamp s) = some (s.keep m) := by
  simp only [execClamp, keepOut_next, keep_loadTap]

theorem keep_execExtest (s : State) : keepOut m (execExtest s) = some (s.keep m) := by
  simp only [execExtest, keepOut_next, keep_loadTap]

theorem keep_execExtestPulse (s : State) : keepOut m (execExtestPulse s) = some (s.keep m) := by
  simp only [execExtestPulse, keepOut_next, keep_loadTap]

theorem keep_execExtestTrain (s : State) : keepOut m (execExtestTrain s) = some (s.keep m) := by
  simp only [execExtestTrain, keepOut_next, keep_loadTap]

theorem keep_execHighz (s : State) : keepOut m (execHighz s) = some (s.keep m) := by
  simp only [execHighz, keepOut_next, keep_loadTap]

theorem keep_execIdcode (s : State) : keepOut m (execIdcode s) = some (s.keep m) := by
  simp only [execIdcode, keepOut_next, keep_loadTap]

theorem keep_istLate (hist : m .ist = true) (s : State) : ∀ a1, (istLate a1 s).keep m = s.keep m := by
  intro a1
  simp only [istLate, keep_ite, ite_self, keep_State_atIst, keep_raise, hist]

theorem keep_istBegin (hist : m .ist = true) (s : State) : ∀ a1, (istBegin a1 s).keep m = s.keep m := by
  intro a1
  simp only [istBegin, keep_State_atIst, hist]

theorem keep_istFails (hist : m .ist = true) (s : State) : ∀ a1 a2, (istFails a1 a2 s).keep m = s.keep m := by
  intro a1 a2
  simp only [istFails, keep_ite, ite_self, keep_countLife, keep_setsBit, keep_State_atIst, keep_raise, keep_modIst, hist]

theorem keep_istPasses (hist : m .ist = true) (s : State) : ∀ a1 a2, (istPasses a1 a2 s).keep m = s.keep m := by
  intro a1 a2
  simp only [istPasses, keep_ite, ite_self, keep_State_atIst, keep_modIst, hist]

theorem keep_marchPass (hstore : m .store = true) (hmem : m .mem = true) (s : State) : ∀ a1 a2 a3, (marchPass a1 a2 a3 s).1.keep m = s.keep m := by
  intro a1 a2 a3
  simp only [marchPass, keep_storeWrite, keep_readLine, hstore, hmem]

theorem keep_marchLine (hstore : m .store = true) (hmem : m .mem = true) (s : State) : ∀ a1 a2 a3 a4, (marchLine a1 a2 a3 a4 s).1.keep m = s.keep m := by
  intro a1 a2 a3 a4
  simp only [marchLine, keep_marchPass, hstore, hmem]

theorem keep_portCount (hist : m .ist = true) (s : State) : ∀ a1 a2, (portCount a1 a2 s).keep m = s.keep m := by
  intro a1 a2
  simp only [portCount, keep_modIst, hist]

theorem keep_istTake (hist : m .ist = true) (hstore : m .store = true) (hmem : m .mem = true) (s : State) : ∀ a1, (istTake a1 s).1.keep m = s.keep m := by
  intro a1
  unfold istTake
  repeat' first
    | with_reducible rfl
    | (simp only [keep_ite, ite_self, implies_true, true_or, or_true, and_self, keep_marchLine, keep_portCount, keep_modIst, keep_modLaw, hist, hstore, hmem]; done)
    | split
    | simp only [keep_ite, ite_self, implies_true, true_or, or_true, and_self, keep_marchLine, keep_portCount, keep_modIst, keep_modLaw, hist, hstore, hmem]

theorem keep_istRun (hist : m .ist = true) (hstore : m .store = true) (hmem : m .mem = true) (s : State) : ∀ a1 a2, (istRun a1 a2 s).keep m = s.keep m := by
  intro a1 a2
  have h := keep_istTake (m := m) hist hstore hmem s a2
  unfold istRun
  dsimp only
  split
  all_goals
    rename_i he
    rw [he] at h
    first
      | exact h
      | (simp only [keep_istPasses, keep_istFails, hist]; exact h)

theorem keep_istStep (hist : m .ist = true) (hstore : m .store = true) (hmem : m .mem = true) (s : State) : ∀ a1 a2, (istStep a1 a2 s).keep m = s.keep m := by
  intro a1 a2
  simp only [istStep, keep_ite, ite_self, keep_istLate, keep_istBegin, keep_istRun, hist, hstore, hmem]

theorem keep_execIstTestStep (hist : m .ist = true) (hstore : m .store = true) (hmem : m .mem = true) (s : State) : ∀ a1 a2, keepOut m (execIstTestStep a1 a2 s) = some (s.keep m) := by
  intro a1 a2
  simp only [execIstTestStep, keepOut_next, keep_istStep, hist, hstore, hmem]

theorem keep_execSamplePreload (s : State) : keepOut m (execSamplePreload s) = some (s.keep m) := by
  simp only [execSamplePreload, keepOut_next, keep_loadTap]

theorem keep_lapWatch (hist : m .ist = true) (s : State) : (lapWatch s).keep m = s.keep m := by
  simp only [lapWatch, keep_ite, ite_self, implies_true, keep_foldl, keep_istLate, hist]

theorem keep_execAbs (hwords : m .words = true) (s : State) : ∀ a1 a2 a3, keepOut m (execAbs a1 a2 a3 s) = some (s.keep m) := by
  intro a1 a2 a3
  simp only [execAbs, keepOut_next, keep_lawStep, hwords]

theorem keep_execAdd (hwords : m .words = true) (s : State) : ∀ a1 a2 a3 a4, keepOut m (execAdd a1 a2 a3 a4 s) = some (s.keep m) := by
  intro a1 a2 a3 a4
  simp only [execAdd, keepOut_next, keep_lawStep, hwords]

theorem keep_execBiq (hwords : m .words = true) (s : State) : ∀ a1 a2 a3 a4 a5, keepOut m (execBiq a1 a2 a3 a4 a5 s) = some (s.keep m) := by
  intro a1 a2 a3 a4 a5
  simp only [execBiq, keepOut_next, keep_lawStep, hwords]

theorem keep_execBrf (hwords : m .words = true) (s : State) : ∀ a1 a2 a3 a4, keepOut m (execBrf a1 a2 a3 a4 s) = some (s.keep m) := by
  intro a1 a2 a3 a4
  simp only [execBrf, keepOut_next, keep_lawStep, hwords]

theorem keep_execClarke (hwords : m .words = true) (s : State) : ∀ a1 a2 a3 a4, keepOut m (execClarke a1 a2 a3 a4 s) = some (s.keep m) := by
  intro a1 a2 a3 a4
  simp only [execClarke, keepOut_next, keep_lawStep, hwords]

theorem keep_execCmp (hwords : m .words = true) (s : State) : ∀ a1 a2 a3 a4 a5, keepOut m (execCmp a1 a2 a3 a4 a5 s) = some (s.keep m) := by
  intro a1 a2 a3 a4 a5
  simp only [execCmp, keepOut_next, keep_lawStep, hwords]

theorem keep_execDiff (hwords : m .words = true) (s : State) : ∀ a1 a2 a3 a4 a5, keepOut m (execDiff a1 a2 a3 a4 a5 s) = some (s.keep m) := by
  intro a1 a2 a3 a4 a5
  simp only [execDiff, keepOut_next, keep_lawStep, hwords]

theorem keep_execEndp (hwords : m .words = true) (s : State) : ∀ a1, keepOut m (execEndp a1 s) = some (s.keep m) := by
  intro a1
  simp only [execEndp, keepOut_next, keep_lawStep, hwords]

theorem keep_execHold (hwords : m .words = true) (s : State) : ∀ a1 a2 a3 a4, keepOut m (execHold a1 a2 a3 a4 s) = some (s.keep m) := by
  intro a1 a2 a3 a4
  simp only [execHold, keepOut_next, keep_lawStep, hwords]

theorem keep_execInp (hwords : m .words = true) (s : State) : ∀ a1 a2 a3, keepOut m (execInp a1 a2 a3 s) = some (s.keep m) := by
  intro a1 a2 a3
  simp only [execInp, keepOut_next, keep_lawStep, hwords]

theorem keep_execIntg (hwords : m .words = true) (s : State) : ∀ a1 a2 a3 a4 a5, keepOut m (execIntg a1 a2 a3 a4 a5 s) = some (s.keep m) := by
  intro a1 a2 a3 a4 a5
  simp only [execIntg, keepOut_next, keep_lawStep, hwords]

theorem keep_execIpark (hwords : m .words = true) (s : State) : ∀ a1 a2 a3 a4, keepOut m (execIpark a1 a2 a3 a4 s) = some (s.keep m) := by
  intro a1 a2 a3 a4
  simp only [execIpark, keepOut_next, keep_lawStep, hwords]

theorem keep_execLd (hwords : m .words = true) (s : State) : ∀ a1 a2 a3 a4, keepOut m (execLd a1 a2 a3 a4 s) = some (s.keep m) := by
  intro a1 a2 a3 a4
  simp only [execLd, keepOut_next, keep_lawStep, hwords]

theorem keep_execLim (hwords : m .words = true) (s : State) : ∀ a1 a2 a3 a4 a5, keepOut m (execLim a1 a2 a3 a4 a5 s) = some (s.keep m) := by
  intro a1 a2 a3 a4 a5
  simp only [execLim, keepOut_next, keep_lawStep, hwords]

theorem keep_execLpf (hwords : m .words = true) (s : State) : ∀ a1 a2 a3 a4 a5, keepOut m (execLpf a1 a2 a3 a4 a5 s) = some (s.keep m) := by
  intro a1 a2 a3 a4 a5
  simp only [execLpf, keepOut_next, keep_lawStep, hwords]

theorem keep_execMac (hwords : m .words = true) (s : State) : ∀ a1 a2 a3 a4, keepOut m (execMac a1 a2 a3 a4 s) = some (s.keep m) := by
  intro a1 a2 a3 a4
  simp only [execMac, keepOut_next, keep_lawStep, hwords]

theorem keep_execMax (hwords : m .words = true) (s : State) : ∀ a1 a2 a3 a4, keepOut m (execMax a1 a2 a3 a4 s) = some (s.keep m) := by
  intro a1 a2 a3 a4
  simp only [execMax, keepOut_next, keep_lawStep, hwords]

theorem keep_execMin (hwords : m .words = true) (s : State) : ∀ a1 a2 a3 a4, keepOut m (execMin a1 a2 a3 a4 s) = some (s.keep m) := by
  intro a1 a2 a3 a4
  simp only [execMin, keepOut_next, keep_lawStep, hwords]

theorem keep_execMov (hwords : m .words = true) (s : State) : ∀ a1 a2 a3 a4 a5, keepOut m (execMov a1 a2 a3 a4 a5 s) = some (s.keep m) := by
  intro a1 a2 a3 a4 a5
  simp only [execMov, keepOut_next, keep_lawStep, hwords]

theorem keep_execMul (hwords : m .words = true) (s : State) : ∀ a1 a2 a3 a4, keepOut m (execMul a1 a2 a3 a4 s) = some (s.keep m) := by
  intro a1 a2 a3 a4
  simp only [execMul, keepOut_next, keep_lawStep, hwords]

theorem keep_execObs (hwords : m .words = true) (s : State) : ∀ a1 a2 a3 a4, keepOut m (execObs a1 a2 a3 a4 s) = some (s.keep m) := by
  intro a1 a2 a3 a4
  simp only [execObs, keepOut_next, keep_lawStep, hwords]

theorem keep_execOut (hwords : m .words = true) (s : State) : ∀ a1 a2 a3, keepOut m (execOut a1 a2 a3 s) = some (s.keep m) := by
  intro a1 a2 a3
  simp only [execOut, keepOut_next, keep_lawStep, hwords]

theorem keep_execPark (hwords : m .words = true) (s : State) : ∀ a1 a2 a3 a4, keepOut m (execPark a1 a2 a3 a4 s) = some (s.keep m) := by
  intro a1 a2 a3 a4
  simp only [execPark, keepOut_next, keep_lawStep, hwords]

theorem keep_execPi (hwords : m .words = true) (s : State) : ∀ a1 a2 a3 a4 a5, keepOut m (execPi a1 a2 a3 a4 a5 s) = some (s.keep m) := by
  intro a1 a2 a3 a4 a5
  simp only [execPi, keepOut_next, keep_lawStep, hwords]

theorem keep_execSel (hwords : m .words = true) (s : State) : ∀ a1 a2 a3 a4, keepOut m (execSel a1 a2 a3 a4 s) = some (s.keep m) := by
  intro a1 a2 a3 a4
  simp only [execSel, keepOut_next, keep_lawStep, hwords]

theorem keep_execShare (hwords : m .words = true) (s : State) : ∀ a1 a2 a3 a4, keepOut m (execShare a1 a2 a3 a4 s) = some (s.keep m) := by
  intro a1 a2 a3 a4
  simp only [execShare, keepOut_next, keep_lawStep, hwords]

theorem keep_execSincos (hwords : m .words = true) (s : State) : ∀ a1 a2 a3, keepOut m (execSincos a1 a2 a3 s) = some (s.keep m) := by
  intro a1 a2 a3
  simp only [execSincos, keepOut_next, keep_lawStep, hwords]

theorem keep_execSlew (hwords : m .words = true) (s : State) : ∀ a1 a2 a3 a4 a5, keepOut m (execSlew a1 a2 a3 a4 a5 s) = some (s.keep m) := by
  intro a1 a2 a3 a4 a5
  simp only [execSlew, keepOut_next, keep_lawStep, hwords]

theorem keep_execSt (hwords : m .words = true) (s : State) : ∀ a1 a2 a3 a4, keepOut m (execSt a1 a2 a3 a4 s) = some (s.keep m) := by
  intro a1 a2 a3 a4
  simp only [execSt, keepOut_next, keep_lawStep, hwords]

theorem keep_execSub (hwords : m .words = true) (s : State) : ∀ a1 a2 a3 a4, keepOut m (execSub a1 a2 a3 a4 s) = some (s.keep m) := by
  intro a1 a2 a3 a4
  simp only [execSub, keepOut_next, keep_lawStep, hwords]

theorem keep_execSvm (hwords : m .words = true) (s : State) : ∀ a1 a2 a3 a4, keepOut m (execSvm a1 a2 a3 a4 s) = some (s.keep m) := by
  intro a1 a2 a3 a4
  simp only [execSvm, keepOut_next, keep_lawStep, hwords]

end Sys2Proof.Machine
end

