-- ==== Sys2Proof/Laws/Keep6.lean ====
section
/-! SUPPORT. The parts of the state (Laws/Keep.lean) that each operation and each command leaves alone: the modules
LawTime, OtpCmd, RegMap, Spindle, TakeUp, Tick. A hypothesis names a part that the operation may change. -/

namespace Sys2Proof.Machine

set_option linter.unusedSimpArgs false
set_option maxRecDepth 4000

variable {m : Part → Bool}

theorem keep_groupSpeed (s : State) : (groupSpeed s).keep m = s.keep m := by
  unfold groupSpeed
  repeat' first
    | with_reducible rfl
    | (simp only [keep_ite, ite_self, implies_true, true_or, or_true, and_self, keep_modRun]; done)
    | split
    | simp only [keep_ite, ite_self, implies_true, true_or, or_true, and_self, keep_modRun]

theorem keep_tensionCheck (hrope : m .rope = true) (s : State) : ∀ a1, (tensionCheck a1 s).keep m = s.keep m := by
  intro a1
  simp only [tensionCheck, keep_ite, ite_self, keep_atRope, hrope]

theorem keep_boundaryLaw (s : State) : ∀ a1, (boundaryLaw a1 s).keep m = s.keep m := by
  intro a1
  refine (keep_modLaw _ _ (.inr fun t => ?_)).trans ?_
  · simp only [Law.boundary]
    repeat' split
    all_goals rfl
  · simp only [keep_ite, keep_allHeatersLow, ite_self]

theorem keep_belayStep (s : State) : (belayStep s).keep m = s.keep m := by
  simp only [belayStep, keep_ite, ite_self, keep_modVBelay]

theorem keep_sendFrame (s : State) : ∀ a1 a2, (sendFrame a1 a2 s).keep m = s.keep m := by
  intro a1 a2
  simp only [sendFrame, keep_ite, ite_self, keep_atStage]

theorem keep_noteDuty (hbus : m .bus = true) (s : State) : (noteDuty s).keep m = s.keep m := by
  simp only [noteDuty, keep_modBus, hbus]

theorem keep_sendFrames (hbus : m .bus = true) (s : State) : ∀ a1, (sendFrames a1 s).keep m = s.keep m := by
  intro a1
  simp only [sendFrames, implies_true, keep_foldl, keep_sendFrame, keep_noteDuty, hbus]

theorem keep_updateLinks (hwords : m .words = true) (s : State) : (updateLinks s).keep m = s.keep m := by
  simp only [updateLinks, keep_ite, ite_self, implies_true, or_true, keep_foldl, keep_noteQuantities, keep_dput, keep_modLaw, hwords]

theorem keep_planStep (s : State) : (planStep s).keep m = s.keep m := by
  simp only [planStep, keep_ite, ite_self, keep_modRun]

theorem keep_drawReads (s : State) : (drawReads s).keep m = s.keep m := by
  simp only [drawReads, keep_lawReads]

theorem keep_writePorts (hdrawLim : m .drawLim = true) (hrope : m .rope = true) (s : State) : ∀ a1, (writePorts a1 s).keep m = s.keep m := by
  intro a1
  simp only [writePorts, keep_ite, ite_self, implies_true, or_true, keep_foldl, keep_setsBit, keep_drawReads, keep_modDrawLim, keep_modLaw, keep_atRope, hdrawLim, hrope]

theorem keep_rampStep (s : State) : (rampStep s).keep m = s.keep m := by
  simp only [rampStep, keep_ite, ite_self, implies_true, keep_foldl, keep_rampEnd, keep_rampAxisOff, keep_modRamp]

theorem keep_baseBoundary (hbus : m .bus = true) (hdma : m .dma = true) (hdrawLim : m .drawLim = true) (hrope : m .rope = true) (hwords : m .words = true) (s : State) : (baseBoundary s).keep m = s.keep m := by
  simp only [baseBoundary, keep_ite, ite_self, implies_true, keep_foldl, keep_groupSpeed, keep_applyModifies, keep_tensionCheck, keep_boundaryLaw, keep_belayStep, keep_sendFrames, keep_updateLinks, keep_applyParam, keep_planStep, keep_writePorts, keep_rampStep, keep_dmaEvent, hbus, hdma, hdrawLim, hrope, hwords]

theorem keep_countChoppers (s : State) : (countChoppers s).keep m = s.keep m := by
  unfold countChoppers
  repeat' first
    | with_reducible rfl
    | (simp only [keep_ite, ite_self, implies_true, true_or, or_true, and_self, keep_foldl, keep_atStage]; done)
    | (refine keep_foldl _ ?_ _ _; intro s a)
    | split
    | simp only [keep_ite, ite_self, implies_true, true_or, or_true, and_self, keep_foldl, keep_atStage]

theorem keep_closeStages (hbus : m .bus = true) (s : State) : (closeStages s).keep m = s.keep m := by
  simp only [closeStages, keep_countChoppers, keep_modStage, keep_modBus, hbus]

theorem keep_execBaseSampleBoundary (hbus : m .bus = true) (hdma : m .dma = true) (hdrawLim : m .drawLim = true) (hrope : m .rope = true) (hwords : m .words = true) (s : State) : keepOut m (execBaseSampleBoundary s) = some (s.keep m) := by
  simp only [execBaseSampleBoundary, keepOut_next, keep_baseBoundary, hbus, hdma, hdrawLim, hrope, hwords]

theorem keep_ropeQuiet (hrope : m .rope = true) (s : State) : ∀ a1, (ropeQuiet a1 s).keep m = s.keep m := by
  intro a1
  simp only [ropeQuiet, keep_atRope, hrope]

theorem keep_startPrograms (s : State) : (startPrograms s).keep m = s.keep m := by
  simp only [startPrograms, keep_ite, ite_self, implies_true, or_true, keep_modLaw]

theorem keep_windowClose (hanch : m .anch = true) (hbus : m .bus = true) (hrope : m .rope = true) (s : State) : (windowClose s).keep m = s.keep m := by
  simp only [windowClose, keep_ite, ite_self, implies_true, keep_foldl, keep_ringClose, keep_latchPorts, keep_ropeQuiet, keep_startPrograms, keep_closeStages, keep_modAnch, hanch, hbus, hrope]

theorem keep_execInputWindowClose (hanch : m .anch = true) (hbus : m .bus = true) (hrope : m .rope = true) (s : State) : keepOut m (execInputWindowClose s) = some (s.keep m) := by
  simp only [execInputWindowClose, keepOut_next, keep_windowClose, hanch, hbus, hrope]

theorem keep_writeLawControl (s : State) : ∀ a1, (writeLawControl a1 s).keep m = s.keep m := by
  intro a1
  simp only [writeLawControl, keep_ite, ite_self, implies_true, or_true, keep_setsBit, keep_allHeatersLow, keep_modLaw]

theorem keep_execLawControlWrite (s : State) : ∀ a1, keepOut m (execLawControlWrite a1 s) = some (s.keep m) := by
  intro a1
  simp only [execLawControlWrite, keep_ite, ite_self, keepOut_next, keep_writeLawControl]

theorem keep_execOutputReserveStart (s : State) : keepOut m (execOutputReserveStart s) = some (s.keep m) := by
  simp only [execOutputReserveStart, ite_self, keepOut_next, keepOut_ite, keep_lawHalt]

theorem keep_otpEnd (hotp : m .otp = true) (s : State) : ∀ a1, (otpEnd a1 s).keep m = s.keep m := by
  intro a1
  simp only [otpEnd, implies_true, or_true, and_self, keep_setsBit, keep_modOtp, hotp]

theorem keep_otpRejected (hotp : m .otp = true) (s : State) : ∀ a1 a2, (otpRejected a1 a2 s).keep m = s.keep m := by
  intro a1 a2
  simp only [otpRejected, keep_ite, ite_self, implies_true, or_true, and_self, keep_otpEnd, keep_modOtp, hotp]

theorem keep_otpFinish (hotp : m .otp = true) (s : State) : ∀ a1, (otpFinish a1 s).keep m = s.keep m := by
  intro a1
  simp only [otpFinish, implies_true, or_true, and_self, keep_otpEnd, keep_modOtp, hotp]

theorem keep_otpCopy (hotp : m .otp = true) (s : State) : ∀ a1 a2, (otpCopy a1 a2 s).keep m = s.keep m := by
  intro a1 a2
  induction a1 generalizing s a2 with
  | zero => exact (by (intros; unfold otpCopy; repeat' first | with_reducible rfl | (simp only [keep_ite, ite_self, implies_true, true_or, or_true, and_self, keep_otpFinish, keep_modOtp, hotp]; done) | split))
  | succ k ih =>
    unfold otpCopy
    repeat' first
      | with_reducible rfl
      | (simp only [keep_ite, ite_self, implies_true, true_or, or_true, and_self, ih, keep_otpFinish, keep_modOtp, hotp]; done)
      | split
      | simp only [keep_ite, ite_self, implies_true, true_or, or_true, and_self, ih, keep_otpFinish, keep_modOtp, hotp]

theorem keep_otpBlow (hotp : m .otp = true) (s : State) : ∀ a1 a2 a3, (otpBlow a1 a2 a3 s).keep m = s.keep m := by
  intro a1 a2 a3
  simp only [otpBlow, keep_otpCopy, hotp]

theorem keep_otpRead (hotp : m .otp = true) (s : State) : (otpRead s).keep m = s.keep m := by
  simp only [otpRead, implies_true, or_true, and_self, keep_otpEnd, keep_modOtp, hotp]

theorem keep_otpRun (hotp : m .otp = true) (s : State) : ∀ a1 a2, (otpRun a1 a2 s).keep m = s.keep m := by
  intro a1 a2
  unfold otpRun
  repeat' first
    | with_reducible rfl
    | (simp only [keep_ite, ite_self, implies_true, true_or, or_true, and_self, keep_otpBlow, keep_otpRead, keep_otpEnd, hotp]; done)
    | split
    | simp only [keep_ite, ite_self, implies_true, true_or, or_true, and_self, keep_otpBlow, keep_otpRead, keep_otpEnd, hotp]

theorem keep_otpCommand (hotp : m .otp = true) (s : State) : ∀ a1 a2 a3, (otpCommand a1 a2 a3 s).keep m = s.keep m := by
  intro a1 a2 a3
  unfold otpCommand
  repeat' first
    | with_reducible rfl
    | (simp only [keep_ite, ite_self, implies_true, true_or, or_true, and_self, keep_otpRejected, keep_otpRun, keep_otpEnd, hotp]; done)
    | split
    | simp only [keep_ite, ite_self, implies_true, true_or, or_true, and_self, keep_otpRejected, keep_otpRun, keep_otpEnd, hotp]

theorem keep_execLockR (hotp : m .otp = true) (s : State) : ∀ a1 a2, keepOut m (execLockR a1 a2 s) = some (s.keep m) := by
  intro a1 a2
  simp only [execLockR, keep_ite, ite_self, keepOut_next, keep_otpCommand, hotp]

theorem keep_execLockW (hotp : m .otp = true) (s : State) : ∀ a1 a2, keepOut m (execLockW a1 a2 s) = some (s.keep m) := by
  intro a1 a2
  simp only [execLockW, keep_ite, ite_self, keepOut_next, keep_otpCommand, hotp]

theorem keep_putJobCell (hotp : m .otp = true) (harray : m .array = true) (s : State) : ∀ a1 a2, (putJobCell a1 a2 s).keep m = s.keep m := by
  intro a1 a2
  unfold putJobCell
  repeat' first
    | with_reducible rfl
    | (simp only [keep_ite, ite_self, implies_true, true_or, or_true, and_self, keep_modOtp, hotp, harray]; done)
    | split
    | simp only [keep_ite, ite_self, implies_true, true_or, or_true, and_self, keep_modOtp, hotp, harray]

theorem keep_otpGoOn (hotp : m .otp = true) (s : State) : ∀ a1, (otpGoOn a1 s).keep m = s.keep m := by
  intro a1
  simp only [otpGoOn, keep_ite, ite_self, implies_true, or_true, and_self, keep_otpEnd, keep_modOtp, hotp]

theorem keep_otpNext (hotp : m .otp = true) (s : State) : ∀ a1 a2, (otpNext a1 a2 s).keep m = s.keep m := by
  intro a1 a2
  simp only [otpNext, keep_otpCopy, hotp]

theorem keep_otpPulseEnd (hotp : m .otp = true) (harray : m .array = true) (s : State) : ∀ a1, (otpPulseEnd a1 s).keep m = s.keep m := by
  intro a1
  unfold otpPulseEnd
  repeat' first
    | with_reducible rfl
    | (simp only [keep_ite, ite_self, implies_true, true_or, or_true, and_self, keep_putJobCell, keep_State_useFree, keep_otpGoOn, keep_otpNext, hotp, harray]; done)
    | split
    | simp only [keep_ite, ite_self, implies_true, true_or, or_true, and_self, keep_putJobCell, keep_State_useFree, keep_otpGoOn, keep_otpNext, hotp, harray]

theorem keep_execOtpPulseEnd (hotp : m .otp = true) (harray : m .array = true) (s : State) : ∀ a1, keepOut m (execOtpPulseEnd a1 s) = some (s.keep m) := by
  intro a1
  simp only [execOtpPulseEnd, keepOut_next, keep_otpPulseEnd, hotp, harray]

theorem keep_execProgram (hotp : m .otp = true) (s : State) : ∀ a1, keepOut m (execProgram a1 s) = some (s.keep m) := by
  intro a1
  simp only [execProgram, keep_ite, ite_self, keepOut_next, keep_otpCommand, hotp]

theorem keep_execRead (hotp : m .otp = true) (s : State) : ∀ a1, keepOut m (execRead a1 s) = some (s.keep m) := by
  intro a1
  simp only [execRead, keep_ite, ite_self, keepOut_next, keep_otpCommand, hotp]

theorem keep_auxCommand (s : State) : ∀ a1 a2, (auxCommand a1 a2 s).keep m = s.keep m := by
  intro a1 a2
  unfold auxCommand
  repeat' first
    | with_reducible rfl
    | (simp only [keep_ite, ite_self, implies_true, true_or, or_true, and_self, keep_auxResume, keep_auxStart, keep_atAux]; done)
    | split
    | simp only [keep_ite, ite_self, implies_true, true_or, or_true, and_self, keep_auxResume, keep_auxStart, keep_atAux]

theorem keep_chanCommand (hdma : m .dma = true) (s : State) : ∀ a1 a2, (chanCommand a1 a2 s).keep m = s.keep m := by
  intro a1 a2
  unfold chanCommand
  repeat' first
    | with_reducible rfl
    | (simp only [keep_ite, ite_self, implies_true, true_or, or_true, and_self, keep_dmaStart, keep_dmaResume, keep_dmaStop, keep_dmaReset, hdma]; done)
    | split
    | simp only [keep_ite, ite_self, implies_true, true_or, or_true, and_self, keep_dmaStart, keep_dmaResume, keep_dmaStop, keep_dmaReset, hdma]

theorem keep_unsupported (s : State) : (unsupported s).keep m = s.keep m := by
  simp only [unsupported, keep_modHost]

theorem keep_execBar0UnsupportedAccess (s : State) : ∀ a1 a2 a3, keepOut m (execBar0UnsupportedAccess a1 a2 a3 s) = some (s.keep m) := by
  intro a1 a2 a3
  unfold execBar0UnsupportedAccess
  repeat' first
    | with_reducible rfl
    | (simp only [keep_ite, ite_self, implies_true, true_or, or_true, and_self, keepOut_next, keepOut_ite, keep_unsupported]; done)
    | split
    | simp only [keep_ite, ite_self, implies_true, true_or, or_true, and_self, keepOut_next, keepOut_ite, keep_unsupported]

theorem keep_inDomain (a1 : Nat) (a2 : State → State) (hf : ∀ s, State.keep m (a2 s) = State.keep m s) (s : State) : (inDomain a1 a2 s).keep m = s.keep m := by
  simp only [inDomain, keep_ite, ite_self, hf]

theorem keep_writeEngIrq (s : State) : ∀ a1, (writeEngIrq a1 s).keep m = s.keep m := by
  intro a1
  simp only [writeEngIrq, keep_ite, ite_self, keep_sendMsix, keep_modEng]

theorem keep_execEngineEventInterruptWrite (s : State) : ∀ a1, keepOut m (execEngineEventInterruptWrite a1 s) = some (s.keep m) := by
  intro a1
  simp only [execEngineEventInterruptWrite, implies_true, keepOut_next, keep_inDomain, keep_writeEngIrq]

theorem keep_writeCu (hdma : m .dma = true) (s : State) : ∀ a1 a2 a3, (writeCu a1 a2 a3 s).keep m = s.keep m := by
  intro a1 a2 a3
  unfold writeCu
  repeat' first
    | with_reducible rfl
    | (simp only [keep_ite, ite_self, implies_true, true_or, or_true, and_self, keep_writeCuRun, keep_State_atCu, hdma]; done)
    | split
    | simp only [keep_ite, ite_self, implies_true, true_or, or_true, and_self, keep_writeCuRun, keep_State_atCu, hdma]

theorem keep_writeChan (hdma : m .dma = true) (s : State) : ∀ a1 a2 a3, (writeChan a1 a2 a3 s).keep m = s.keep m := by
  intro a1 a2 a3
  unfold writeChan
  repeat' first
    | with_reducible rfl
    | (simp only [keep_ite, ite_self, implies_true, true_or, or_true, and_self, keep_State_atCh, keep_writeChanTail, keep_writeChanCfg, keep_chanCommand, hdma]; done)
    | split
    | simp only [keep_ite, ite_self, implies_true, true_or, or_true, and_self, keep_State_atCh, keep_writeChanTail, keep_writeChanCfg, keep_chanCommand, hdma]

theorem keep_writeDma (hdma : m .dma = true) (s : State) : ∀ a1 a2, (writeDma a1 a2 s).keep m = s.keep m := by
  intro a1 a2
  simp only [writeDma, keep_ite, ite_self, keep_writeCu, keep_writeChan, hdma]

theorem keep_writeSp (s : State) : ∀ a1 a2 a3, (writeSp a1 a2 a3 s).keep m = s.keep m := by
  intro a1 a2 a3
  simp only [writeSp, keep_ite, ite_self, keep_atSp]

theorem keep_writeStore (hstore : m .store = true) (s : State) : ∀ a1 a2, (writeStore a1 a2 s).keep m = s.keep m := by
  intro a1 a2
  unfold writeStore
  repeat' first
    | with_reducible rfl
    | (simp only [keep_ite, ite_self, implies_true, true_or, or_true, and_self, keep_writeBar2Base, keep_modStore, hstore]; done)
    | split
    | simp only [keep_ite, ite_self, implies_true, true_or, or_true, and_self, keep_writeBar2Base, keep_modStore, hstore]

theorem keep_writeFlt (s : State) : ∀ a1 a2, (writeFlt a1 a2 s).keep m = s.keep m := by
  intro a1 a2
  simp only [writeFlt, keep_ite, ite_self, keep_modFlt]

theorem keep_writeScan (s : State) : ∀ a1 a2 a3, (writeScan a1 a2 a3 s).keep m = s.keep m := by
  intro a1 a2 a3
  simp only [writeScan, keep_ite, ite_self, keep_writeCross, keep_atScan]

theorem keep_writeWeb (hanch : m .anch = true) (hfacet : m .facet = true) (hreg : m .reg = true) (s : State) : ∀ a1 a2, (writeWeb a1 a2 s).keep m = s.keep m := by
  intro a1 a2
  unfold writeWeb
  repeat' first
    | with_reducible rfl
    | (simp only [keep_ite, ite_self, implies_true, true_or, or_true, and_self, keep_writeRegBase, keep_writeRegOffset, keep_modFacet, keep_modAnch, hanch, hfacet, hreg]; done)
    | split
    | simp only [keep_ite, ite_self, implies_true, true_or, or_true, and_self, keep_writeRegBase, keep_writeRegOffset, keep_modFacet, keep_modAnch, hanch, hfacet, hreg]

theorem keep_writeExpo (s : State) : ∀ a1 a2 a3, (writeExpo a1 a2 a3 s).keep m = s.keep m := by
  intro a1 a2 a3
  simp only [writeExpo, keep_ite, ite_self, keep_writeTone, keep_writeHold, keep_writeDead, keep_atExpo]

theorem keep_writeMsix (s : State) : ∀ a1 a2, (writeMsix a1 a2 s).keep m = s.keep m := by
  intro a1 a2
  simp only [writeMsix, keep_ite, ite_self, keep_unmaskVector, keep_modHost]

theorem keep_writeEvtCfg (s : State) : ∀ a1, (writeEvtCfg a1 s).keep m = s.keep m := by
  intro a1
  simp only [writeEvtCfg, keep_modHost]

theorem keep_writeQueue (s : State) : ∀ a1 a2 a3, (writeQueue a1 a2 a3 s).keep m = s.keep m := by
  intro a1 a2 a3
  unfold writeQueue
  repeat' first
    | with_reducible rfl
    | (simp only [keep_ite, ite_self, implies_true, true_or, or_true, and_self, keep_writeQueueControl, keep_doorbell, keep_modQ]; done)
    | split
    | simp only [keep_ite, ite_self, implies_true, true_or, or_true, and_self, keep_writeQueueControl, keep_doorbell, keep_modQ]

theorem keep_writeHost (s : State) : ∀ a1 a2, (writeHost a1 a2 s).keep m = s.keep m := by
  intro a1 a2
  simp only [writeHost, keep_ite, ite_self, keep_writeEvtCfg, keep_writeQueue, keep_modJobs, keep_modHost]

theorem keep_writeEng (s : State) : ∀ a1 a2, (writeEng a1 a2 s).keep m = s.keep m := by
  intro a1 a2
  unfold writeEng
  repeat' first
    | with_reducible rfl
    | (simp only [keep_ite, ite_self, implies_true, true_or, or_true, and_self, keep_writeEngIrq, keep_modEng]; done)
    | split
    | simp only [keep_ite, ite_self, implies_true, true_or, or_true, and_self, keep_writeEngIrq, keep_modEng]

theorem keep_writeRamHalf (hdma : m .dma = true) (hram : m .ram = true) (s : State) : ∀ a1 a2, (writeRamHalf a1 a2 s).keep m = s.keep m := by
  intro a1 a2
  simp only [writeRamHalf, keep_putRamWord, hdma, hram]

theorem keep_writeClk (hclk : m .clk = true) (s : State) : ∀ a1 a2, (writeClk a1 a2 s).keep m = s.keep m := by
  intro a1 a2
  simp only [writeClk, keep_ite, ite_self, keep_modClk, hclk]

theorem keep_writePwr (s : State) : ∀ a1 a2, (writePwr a1 a2 s).keep m = s.keep m := by
  intro a1 a2
  unfold writePwr
  repeat' first
    | with_reducible rfl
    | (simp only [keep_ite, ite_self, implies_true, true_or, or_true, and_self, keep_writeMargin, keep_modPwr]; done)
    | split
    | simp only [keep_ite, ite_self, implies_true, true_or, or_true, and_self, keep_writeMargin, keep_modPwr]

theorem keep_writeLaw (s : State) : ∀ a1 a2, (writeLaw a1 a2 s).keep m = s.keep m := by
  intro a1 a2
  unfold writeLaw
  repeat' first
    | with_reducible rfl
    | (simp only [keep_ite, ite_self, implies_true, true_or, or_true, and_self, keep_writeLawControl, keep_modLaw]; done)
    | split
    | simp only [keep_ite, ite_self, implies_true, true_or, or_true, and_self, keep_writeLawControl, keep_modLaw]

theorem keep_writeAux (s : State) : ∀ a1 a2 a3, (writeAux a1 a2 a3 s).keep m = s.keep m := by
  intro a1 a2 a3
  unfold writeAux
  repeat' first
    | with_reducible rfl
    | (simp only [keep_ite, ite_self, implies_true, true_or, or_true, and_self, keep_auxProfile, keep_auxCommand, keep_atAux]; done)
    | split
    | simp only [keep_ite, ite_self, implies_true, true_or, or_true, and_self, keep_auxProfile, keep_auxCommand, keep_atAux]

theorem keep_writeIst (hist : m .ist = true) (s : State) : ∀ a1 a2, (writeIst a1 a2 s).keep m = s.keep m := by
  intro a1 a2
  unfold writeIst
  repeat' first
    | with_reducible rfl
    | (simp only [keep_ite, ite_self, implies_true, true_or, or_true, and_self, keep_modIst, hist]; done)
    | split
    | simp only [keep_ite, ite_self, implies_true, true_or, or_true, and_self, keep_modIst, hist]

theorem keep_writeOtpCmd (hotp : m .otp = true) (s : State) : ∀ a1, (writeOtpCmd a1 s).keep m = s.keep m := by
  intro a1
  unfold writeOtpCmd
  repeat' first
    | with_reducible rfl
    | (simp only [keep_ite, ite_self, implies_true, true_or, or_true, and_self, keep_otpEnd, keep_otpCommand, hotp]; done)
    | split
    | simp only [keep_ite, ite_self, implies_true, true_or, or_true, and_self, keep_otpEnd, keep_otpCommand, hotp]

theorem keep_writeOtp (hotp : m .otp = true) (s : State) : ∀ a1 a2, (writeOtp a1 a2 s).keep m = s.keep m := by
  intro a1 a2
  unfold writeOtp
  repeat' first
    | with_reducible rfl
    | (simp only [keep_ite, ite_self, implies_true, true_or, or_true, and_self, keep_writeOtpCmd, keep_modOtp, hotp]; done)
    | split
    | simp only [keep_ite, ite_self, implies_true, true_or, or_true, and_self, keep_writeOtpCmd, keep_modOtp, hotp]

theorem keep_writeStage (hbus : m .bus = true) (s : State) : ∀ a1 a2, (writeStage a1 a2 s).keep m = s.keep m := by
  intro a1 a2
  simp only [writeStage, keep_ite, ite_self, keep_atStage, keep_modBus, hbus]

theorem keep_writeAt (hanch : m .anch = true) (hbus : m .bus = true) (hclk : m .clk = true) (hdma : m .dma = true) (hdrawLim : m .drawLim = true) (hfacet : m .facet = true) (hist : m .ist = true) (hotp : m .otp = true) (hreg : m .reg = true) (hstore : m .store = true) (hram : m .ram = true) (s : State) : ∀ a1 a2, (writeAt a1 a2 s).keep m = s.keep m := by
  intro a1 a2
  simp only [writeAt, keep_ite, ite_self, implies_true, keep_writeDma, keep_writeSp, keep_inDomain, keep_writeStore, keep_writeFlt, keep_writeScan, keep_writeWeb, keep_writeExpo, keep_writeMsix, keep_writeHost, keep_writeEng, keep_State_atPort, keep_writeRamHalf, keep_writeClk, keep_writePwr, keep_writeLaw, keep_writeAux, keep_writeIst, keep_writeOtp, keep_writeStage, keep_modDrawLim, hanch, hbus, hclk, hdma, hdrawLim, hfacet, hist, hotp, hreg, hstore, hram]

theorem keep_write32 (hanch : m .anch = true) (hbus : m .bus = true) (hclk : m .clk = true) (hdma : m .dma = true) (hdrawLim : m .drawLim = true) (hfacet : m .facet = true) (hist : m .ist = true) (hotp : m .otp = true) (hreg : m .reg = true) (hstore : m .store = true) (hram : m .ram = true) (s : State) : ∀ a1 a2, (write32 a1 a2 s).keep m = s.keep m := by
  intro a1 a2
  simp only [write32, keep_writeAt, hanch, hbus, hclk, hdma, hdrawLim, hfacet, hist, hotp, hreg, hstore, hram]

theorem keep_write64 (hanch : m .anch = true) (hbus : m .bus = true) (hclk : m .clk = true) (hdma : m .dma = true) (hdrawLim : m .drawLim = true) (hfacet : m .facet = true) (hist : m .ist = true) (hotp : m .otp = true) (hreg : m .reg = true) (hstore : m .store = true) (hram : m .ram = true) (s : State) : ∀ a1 a2, (write64 a1 a2 s).keep m = s.keep m := by
  intro a1 a2
  simp only [write64, keep_ite, ite_self, implies_true, keep_inDomain, keep_putRamWord, keep_write32, hanch, hbus, hclk, hdma, hdrawLim, hfacet, hist, hotp, hreg, hstore, hram]

theorem keep_writeReg (hanch : m .anch = true) (hbus : m .bus = true) (hclk : m .clk = true) (hdma : m .dma = true) (hdrawLim : m .drawLim = true) (hfacet : m .facet = true) (hist : m .ist = true) (hotp : m .otp = true) (hreg : m .reg = true) (hstore : m .store = true) (hram : m .ram = true) (s : State) : ∀ a1 a2 a3, (writeReg a1 a2 a3 s).keep m = s.keep m := by
  intro a1 a2 a3
  simp only [writeReg, keep_ite, ite_self, keep_write64, keep_unsupported, keep_write32, hanch, hbus, hclk, hdma, hdrawLim, hfacet, hist, hotp, hreg, hstore, hram]

theorem keep_execRegisterWrite (hanch : m .anch = true) (hbus : m .bus = true) (hclk : m .clk = true) (hdma : m .dma = true) (hdrawLim : m .drawLim = true) (hfacet : m .facet = true) (hist : m .ist = true) (hotp : m .otp = true) (hreg : m .reg = true) (hstore : m .store = true) (hram : m .ram = true) (s : State) : ∀ a1 a2 a3, keepOut m (execRegisterWrite a1 a2 a3 s) = some (s.keep m) := by
  intro a1 a2 a3
  simp only [execRegisterWrite, keepOut_next, keep_writeReg, hanch, hbus, hclk, hdma, hdrawLim, hfacet, hist, hotp, hreg, hstore, hram]

theorem keep_crossClosed (s : State) : ∀ a1 a2, (crossClosed a1 a2 s).keep m = s.keep m := by
  intro a1 a2
  simp only [crossClosed, keep_ite, ite_self, keep_setGates, keep_syncLoss, keep_atSp]

theorem keep_crossCoast (s : State) : ∀ a1 a2, (crossCoast a1 a2 s).keep m = s.keep m := by
  intro a1 a2
  simp only [crossCoast, keep_ite, ite_self, keep_enterClosed, keep_setGates, keep_coastSpeed, keep_atSp]

theorem keep_crossRamp (s : State) : ∀ a1 a2, (crossRamp a1 a2 s).keep m = s.keep m := by
  intro a1 a2
  simp only [crossRamp, keep_ite, ite_self, keep_enterClosed, keep_setGates, keep_atSp]

theorem keep_endOv (hspBus : m .spBus = true) (s : State) : ∀ a1, (endOv a1 s).keep m = s.keep m := by
  intro a1
  simp only [endOv, keep_ite, ite_self, keep_condOff, keep_modSpBus, hspBus]

theorem keep_endUv (hspBus : m .spBus = true) (s : State) : ∀ a1, (endUv a1 s).keep m = s.keep m := by
  intro a1
  simp only [endUv, keep_ite, ite_self, keep_condOff, keep_modSpBus, hspBus]

theorem keep_execAlignTimeout (s : State) : ∀ a1, keepOut m (execAlignTimeout a1 s) = some (s.keep m) := by
  intro a1
  simp only [execAlignTimeout, keep_ite, ite_self, keepOut_next, keep_enterRamp]

theorem keep_execCatchTimeout (s : State) : ∀ a1, keepOut m (execCatchTimeout a1 s) = some (s.keep m) := by
  intro a1
  simp only [execCatchTimeout, keep_ite, ite_self, keepOut_next, keep_catchFailed, keep_coastSpeed, keep_atSp]

theorem keep_execCoastBackEmfTimeout (s : State) : ∀ a1, keepOut m (execCoastBackEmfTimeout a1 s) = some (s.keep m) := by
  intro a1
  simp only [execCoastBackEmfTimeout, keep_ite, ite_self, keepOut_next, keep_enterOff]

theorem keep_senseMotion (s : State) : ∀ a1, (senseMotion a1 s).keep m = s.keep m := by
  intro a1
  simp only [senseMotion, keep_dropChannel]

theorem keep_pwmPeriod (hspBus : m .spBus = true) (s : State) : ∀ a1 a2, (pwmPeriod a1 a2 s).keep m = s.keep m := by
  intro a1 a2
  unfold pwmPeriod
  repeat' first
    | with_reducible rfl
    | (simp only [keep_ite, ite_self, implies_true, true_or, or_true, and_self, keep_drive, keep_setGates, keep_speedRows, keep_senseMotion, keep_atSp, keep_modSpBus, hspBus]; done)
    | split
    | simp only [keep_ite, ite_self, implies_true, true_or, or_true, and_self, keep_drive, keep_setGates, keep_speedRows, keep_senseMotion, keep_atSp, keep_modSpBus, hspBus]

theorem keep_execPwmPeriod (hspBus : m .spBus = true) (s : State) : ∀ a1 a2, keepOut m (execPwmPeriod a1 a2 s) = some (s.keep m) := by
  intro a1 a2
  simp only [execPwmPeriod, keep_ite, ite_self, keepOut_next, keep_pwmPeriod, hspBus]

theorem keep_execRpsBlock (hspBus : m .spBus = true) (s : State) : ∀ a1 a2, keepOut m (execRpsBlock a1 a2 s) = some (s.keep m) := by
  intro a1 a2
  simp only [execRpsBlock, keep_ite, ite_self, keepOut_next, keep_condSet, keep_modSpBus, hspBus]

theorem keep_execShortTimeout (s : State) : ∀ a1, keepOut m (execShortTimeout a1 s) = some (s.keep m) := by
  intro a1
  simp only [execShortTimeout, keep_ite, ite_self, keepOut_next, keep_shortOver]

theorem keep_execSpBootUv (s : State) : ∀ a1 a2, keepOut m (execSpBootUv a1 a2 s) = some (s.keep m) := by
  intro a1 a2
  simp only [execSpBootUv, keepOut_next, keep_setGates, keep_setsBit, keep_raise, keep_atSp]

theorem keep_gateEventAt (s : State) : ∀ a1 a2 a3 a4, (gateEventAt a1 a2 a3 a4 s).keep m = s.keep m := by
  intro a1 a2 a3 a4
  simp only [gateEventAt, keep_ite, ite_self, keep_setsBit, keep_atSp]

theorem keep_execSpDesat (s : State) : ∀ a1 a2, keepOut m (execSpDesat a1 a2 s) = some (s.keep m) := by
  intro a1 a2
  simp only [execSpDesat, keepOut_next, keep_gateEventAt, keep_raise]

theorem keep_execSpOvercurrent (s : State) : ∀ a1, keepOut m (execSpOvercurrent a1 s) = some (s.keep m) := by
  intro a1
  simp only [execSpOvercurrent, keepOut_next, keep_gateEventAt, keep_raise]

theorem keep_execSpindleCommandEdge (s : State) : ∀ a1 a2 a3, keepOut m (execSpindleCommandEdge a1 a2 a3 s) = some (s.keep m) := by
  intro a1 a2 a3
  unfold execSpindleCommandEdge
  repeat' first
    | with_reducible rfl
    | (simp only [keep_ite, ite_self, implies_true, true_or, or_true, and_self, keepOut_next, keepOut_ite, keep_atSp]; done)
    | split
    | simp only [keep_ite, ite_self, implies_true, true_or, or_true, and_self, keepOut_next, keepOut_ite, keep_atSp]

theorem keep_execSpindleCommandSample (s : State) : ∀ a1 a2, keepOut m (execSpindleCommandSample a1 a2 s) = some (s.keep m) := by
  intro a1 a2
  simp only [execSpindleCommandSample, keep_ite, ite_self, keepOut_next, keep_atSp]

theorem keep_execSpindleCommandTimeout (s : State) : ∀ a1, keepOut m (execSpindleCommandTimeout a1 s) = some (s.keep m) := by
  intro a1
  unfold execSpindleCommandTimeout
  repeat' first
    | with_reducible rfl
    | (simp only [keep_ite, ite_self, implies_true, true_or, or_true, and_self, keepOut_next, keepOut_ite, keep_setsBit, keep_spDrive, keep_atSp]; done)
    | split
    | simp only [keep_ite, ite_self, implies_true, true_or, or_true, and_self, keepOut_next, keepOut_ite, keep_setsBit, keep_spDrive, keep_atSp]

theorem keep_execSpindleRunCommand (s : State) : ∀ a1, keepOut m (execSpindleRunCommand a1 s) = some (s.keep m) := by
  intro a1
  simp only [execSpindleRunCommand, keepOut_next, keep_runCommand]

theorem keep_execSpindleSenseTimeout (s : State) : ∀ a1, keepOut m (execSpindleSenseTimeout a1 s) = some (s.keep m) := by
  intro a1
  simp only [execSpindleSenseTimeout, keep_ite, ite_self, keepOut_next, keep_runCommand, keep_enterAlign]

theorem keep_stopTimedOut (s : State) : ∀ a1, (stopTimedOut a1 s).keep m = s.keep m := by
  intro a1
  simp only [stopTimedOut, keep_dropChannel, keep_spDrive, keep_atSp]

theorem keep_execStopTimeout (s : State) : ∀ a1, keepOut m (execStopTimeout a1 s) = some (s.keep m) := by
  intro a1
  simp only [execStopTimeout, keep_ite, ite_self, keepOut_next, keep_stopTimedOut]

theorem keep_execVbusSpInhibitRelease (hspBus : m .spBus = true) (s : State) : ∀ a1, keepOut m (execVbusSpInhibitRelease a1 s) = some (s.keep m) := by
  intro a1
  simp only [execVbusSpInhibitRelease, keepOut_next, keep_inhibitEnded, keep_endOv, keep_endUv, keep_modSpBus, hspBus]

theorem keep_inhibitAll (s : State) : ∀ a1, (inhibitAll a1 s).keep m = s.keep m := by
  intro a1
  simp only [inhibitAll, implies_true, keep_each8, keep_inhibitChannel]

theorem keep_execVbusSpOv (hspBus : m .spBus = true) (s : State) : ∀ a1, keepOut m (execVbusSpOv a1 s) = some (s.keep m) := by
  intro a1
  simp only [execVbusSpOv, keep_ite, ite_self, keepOut_next, keep_condOn, keep_inhibitAll, keep_modSpBus, hspBus]

theorem keep_execVbusSpUv (hspBus : m .spBus = true) (s : State) : ∀ a1, keepOut m (execVbusSpUv a1 s) = some (s.keep m) := by
  intro a1
  simp only [execVbusSpUv, keep_ite, ite_self, keepOut_next, keep_condOn, keep_inhibitAll, keep_modSpBus, hspBus]

theorem keep_execVcpUv (hspBus : m .spBus = true) (s : State) : ∀ a1, keepOut m (execVcpUv a1 s) = some (s.keep m) := by
  intro a1
  simp only [execVcpUv, keep_ite, ite_self, keepOut_next, keep_condOn, keep_inhibitAll, keep_modSpBus, hspBus]

theorem keep_execVcpUvRelease (hspBus : m .spBus = true) (s : State) : ∀ a1, keepOut m (execVcpUvRelease a1 s) = some (s.keep m) := by
  intro a1
  simp only [execVcpUvRelease, keep_ite, ite_self, keepOut_next, keep_inhibitEnded, keep_condOff, keep_modSpBus, hspBus]

theorem keep_zeroCross (s : State) : ∀ a1 a2, (zeroCross a1 a2 s).keep m = s.keep m := by
  intro a1 a2
  unfold zeroCross
  repeat' first
    | with_reducible rfl
    | (simp only [keep_ite, ite_self, implies_true, true_or, or_true, and_self, keep_crossRamp, keep_crossCoast, keep_crossClosed, keep_senseMotion]; done)
    | split
    | simp only [keep_ite, ite_self, implies_true, true_or, or_true, and_self, keep_crossRamp, keep_crossCoast, keep_crossClosed, keep_senseMotion]

theorem keep_execZeroCrossing (s : State) : ∀ a1 a2, keepOut m (execZeroCrossing a1 a2 s) = some (s.keep m) := by
  intro a1 a2
  simp only [execZeroCrossing, keepOut_next, keep_zeroCross]

theorem keep_execZeroCrossingTimeout (s : State) : ∀ a1, keepOut m (execZeroCrossingTimeout a1 s) = some (s.keep m) := by
  intro a1
  simp only [execZeroCrossingTimeout, keep_ite, ite_self, keepOut_next, keep_syncLoss]

theorem keep_unknownEntry (s : State) : ∀ a1, (unknownEntry a1 s).keep m = s.keep m := by
  intro a1
  simp only [unknownEntry, keep_reject, keep_modHost]

theorem keep_fetchFails (s : State) : ∀ a1, (fetchFails a1 s).keep m = s.keep m := by
  intro a1
  simp only [fetchFails, keep_setsBit, keep_modQ, keep_raise]

theorem keep_runEntry64 (hbus : m .bus = true) (hreg : m .reg = true) (hstore : m .store = true) (s : State) : ∀ a1 a2 a3, (runEntry64 a1 a2 a3 s).keep m = s.keep m := by
  intro a1 a2 a3
  unfold runEntry64
  repeat' first
    | with_reducible rfl
    | (simp only [keep_ite, ite_self, implies_true, true_or, or_true, and_self, keep_stateSet, keep_quotaSet, keep_paramGet, keep_pageRetire, keep_runResume, keep_logRead, keep_paramSet, keep_calibWrite, keep_runStart, keep_faultPinRelease, keep_framePut, keep_jobOpen, keep_compress, keep_resultGet, keep_runStopMsg, keep_resultAck, keep_consumableSync, keep_decompress, keep_ident, keep_calibRead, keep_jobClose, keep_faultClear, keep_runModify, hbus, hreg, hstore]; done)
    | split
    | simp only [keep_ite, ite_self, implies_true, true_or, or_true, and_self, keep_stateSet, keep_quotaSet, keep_paramGet, keep_pageRetire, keep_runResume, keep_logRead, keep_paramSet, keep_calibWrite, keep_runStart, keep_faultPinRelease, keep_framePut, keep_jobOpen, keep_compress, keep_resultGet, keep_runStopMsg, keep_resultAck, keep_consumableSync, keep_decompress, keep_ident, keep_calibRead, keep_jobClose, keep_faultClear, keep_runModify, hbus, hreg, hstore]

theorem keep_noteTaken (s : State) : ∀ a1, (noteTaken a1 s).keep m = s.keep m := by
  intro a1
  simp only [noteTaken, keep_modQ, keep_modHost]

theorem keep_takeUp (hbus : m .bus = true) (hreg : m .reg = true) (hstore : m .store = true) (s : State) : ∀ a1 a2 a3, (takeUp a1 a2 a3 s).keep m = s.keep m := by
  intro a1 a2 a3
  unfold takeUp
  repeat' first
    | with_reducible rfl
    | (simp only [keep_ite, ite_self, implies_true, true_or, or_true, and_self, keep_unknownEntry, keep_fetchFails, keep_runEntry64, keep_modQ, keep_noteTaken, hbus, hreg, hstore]; done)
    | split
    | simp only [keep_ite, ite_self, implies_true, true_or, or_true, and_self, keep_unknownEntry, keep_fetchFails, keep_runEntry64, keep_modQ, keep_noteTaken, hbus, hreg, hstore]

theorem keep_execEntryTakeUp (hbus : m .bus = true) (hreg : m .reg = true) (hstore : m .store = true) (s : State) : ∀ a1 a2 a3, keepOut m (execEntryTakeUp a1 a2 a3 s) = some (s.keep m) := by
  intro a1 a2 a3
  simp only [execEntryTakeUp, keepOut_next, keep_takeUp, hbus, hreg, hstore]

theorem keep_advance (s : State) : (advance s).keep m = s.keep m := by
  simp only [advance, keep_modEng]

theorem keep_countRun (s : State) : (countRun s).keep m = s.keep m := by
  simp only [countRun, keep_ite, ite_self, keep_countLife, keep_modPers]

theorem keep_takeRefBack (hclk : m .clk = true) (s : State) : (takeRefBack s).keep m = s.keep m := by
  simp only [takeRefBack, keep_ite, ite_self, keep_refReturns, hclk]

theorem keep_tick (hanch : m .anch = true) (hclk : m .clk = true) (hcons : m .cons = true) (hfacet : m .facet = true) (hist : m .ist = true) (s : State) : (tick s).keep m = s.keep m := by
  simp only [tick, implies_true, keep_lapWatch, keep_facetMode, keep_settleChannel, keep_each8, keep_takeRefBack, keep_countOver, keep_advance, keep_reraise, keep_countStill, keep_postFault, keep_extrapolate, keep_forwardTick, keep_countRun, keep_modRing, hanch, hclk, hcons, hfacet, hist]

end Sys2Proof.Machine
end

