-- ==== Sys2Proof/Laws/Tables.lean ====
section
/-! SUPPORT. Every operation that writes one of the state's tables keeps the canonical form. -/

namespace Sys2Proof.Machine

set_option linter.unusedSimpArgs false

theorem swf_filter {α : Type} [DecidableEq α] {d : α} (p : Nat × α → Bool) (l : List (Nat × α)) (h : swf d l = true) :
    swf d (l.filter p) = true := by
  induction l with
  | nil => rfl
  | cons q l ih =>
    obtain ⟨k, v⟩ := q
    obtain ⟨h1, h2, h3⟩ := (swf_cons k v l).mp h
    rw [List.filter_cons]
    split
    · exact (swf_cons _ _ _).mpr ⟨h1, fun x hx => h2 x (List.mem_filter.mp hx).1, ih h3⟩
    · exact ih h3

theorem canon_ite {c : Prop} [Decidable c] {a b : State} (ha : (a.keep tables).Canon) (hb : (b.keep tables).Canon) :
    ((if c then a else b).keep tables).Canon := by
  split
  · exact ha
  · exact hb

theorem Law.boundary_data (k : Nat) (l : Law) : (Law.boundary k l).data = l.data := by
  simp only [Law.boundary]
  repeat' split
  all_goals rfl

/-- The next state, where an outcome has one, is canonical. -/
def CanonOut (o : Host.Outcome State Fault Refusal) : Prop := ∀ t, o = .next t → (t.keep tables).Canon

theorem canonOut_next {s : State} (h : (s.keep tables).Canon) : CanonOut (.next s) := by
  intro t ht
  cases ht
  exact h

theorem canon_message (h : MsgHdr) (jobOk states range : State → Bool) (body : MsgRef → State → State)
    (hb : ∀ r s, (s.keep tables).Canon → ((body r s).keep tables).Canon) (s : State) (hs : (s.keep tables).Canon) :
    ((message h jobOk states range body s).keep tables).Canon := by
  simp only [message]
  repeat' first
    | assumption
    | (simpa only [keep_reject, keep_modHost] using hs)
    | (refine hb _ _ ?_)
    | split

theorem canon_dmaExec (k opc : Nat) (f : DmaOp → State → State)
    (hb : ∀ o s, (s.keep tables).Canon → ((f o s).keep tables).Canon) (s : State) (hs : (s.keep tables).Canon) :
    ((dmaExec k opc f s).keep tables).Canon := by
  simp only [dmaExec]
  repeat' first
    | assumption
    | (rw [keep_dmaHaltOpen rfl]; exact hs)
    | (rw [keep_State_atCh rfl]; exact hs)
    | (refine hb _ _ ?_)
    | split

theorem canon_inDomain (d : Nat) (f : State → State) (hb : ∀ s, (s.keep tables).Canon → ((f s).keep tables).Canon)
    (s : State) (hs : (s.keep tables).Canon) : ((inDomain d f s).keep tables).Canon := by
  unfold inDomain
  split
  · exact hb s hs
  · exact hs

theorem canon_dput (s : State) (hs : (s.keep tables).Canon) : ∀ i v b, ((dput i v b s).keep tables).Canon := by
  intro i v b
  exact canon_modLaw _ _ (fun t h => swf_sput _ _ _ h) hs

theorem canon_applyParam (s : State) (hs : (s.keep tables).Canon) : ∀ a1, ((applyParam a1 s).keep tables).Canon := by
  intro a1
  unfold applyParam
  repeat' first
    | with_reducible assumption
    | (with_reducible refine canon_dput _ ?_ _ _ _)
    | split
    | dsimp only
    | simp only [keep_ite, implies_true, true_or, or_true, and_self, keep_atSp, keep_complete, keep_noteQuantities, keep_modHost]

theorem Store.put_wf (a : Nat) (bs : List Byte) (bad : Bool) (t : Store) (h : Memory.wf t.mem = true) :
    Memory.wf (t.put a bs bad).mem = true := memWrite_wf _ _ _ h

theorem Store.mirror_wf (a : Nat) (bs : List Byte) (bad : Bool) (t : Store) (h : Memory.wf t.mem = true) :
    Memory.wf (t.mirror a bs bad).mem = true := by
  unfold Store.mirror
  split
  · exact Store.put_wf _ _ _ _ h
  · split
    · exact Store.put_wf _ _ _ _ h
    · dsimp only
      split
      · exact Store.put_wf _ _ _ _ h
      · exact h

theorem Store.write_wf (a : Nat) (bs : List Byte) (bad : Bool) (t : Store) (h : Memory.wf t.mem = true) :
    Memory.wf (t.write a bs bad).mem = true := by
  simp only [Store.write]
  split
  · exact Store.mirror_wf _ _ _ _ (Store.put_wf _ _ _ _ h)
  · exact Store.put_wf _ _ _ _ h

theorem canon_lineWrite (s : State) (hs : (s.keep tables).Canon) : ∀ bad a bs, ((lineWrite bad a bs s).keep tables).Canon := by
  intro bad a bs
  exact canon_modStore _ _ (Store.write_wf a bs bad) hs

theorem canon_flushEntry (s : State) (hs : (s.keep tables).Canon) : ∀ k e, ((flushEntry k e s).keep tables).Canon := by
  intro k e
  unfold flushEntry
  split
  · exact hs
  · have h1 : ((s.modStore fun t => { t with merge := updAt t.merge k fun _ => none }).keep tables).Canon :=
      canon_modStore _ _ (fun _ h => h) hs
    dsimp only
    split
    · exact canon_lineWrite _ h1 _ _ _
    · have h2 := h1
      rw [← keep_readLine (m := tables) rfl _ .flush] at h2
      split
      · rw [keep_raise]; exact canon_lineWrite _ h2 _ _ _
      · exact canon_lineWrite _ h2 _ _ _

theorem canon_forceFlush (s : State) (hs : (s.keep tables).Canon) : ((forceFlush s).keep tables).Canon := by
  refine canon_flushEntry _ ?_ _ _
  simpa only [keep_modFreeCtr] using hs

theorem canon_mergeJoin (s : State) (hs : (s.keep tables).Canon) : ∀ bad a bs k, ((mergeJoin bad a bs k s).keep tables).Canon := by
  intro bad a bs k
  have h1 := canon_modStore s (fun t =>
    { t with merge := updAt t.merge k fun x => x.map fun e => e.put (a % 64) bs bad
             scrubFix := t.scrubFix.filter fun x => x.1 != lineOf a }) (fun _ h => h) hs
  unfold mergeJoin
  dsimp only
  split
  · split
    · exact canon_flushEntry _ h1 _ _
    · exact h1
  · exact h1

theorem canon_mergeWrite (s : State) (hs : (s.keep tables).Canon) : ∀ bad a bs, ((mergeWrite bad a bs s).keep tables).Canon := by
  intro bad a bs
  unfold mergeWrite
  split
  · exact canon_mergeJoin _ hs _ _ _ _
  · dsimp only
    with_reducible refine canon_mergeJoin _ ?_ _ _ _ _
    with_reducible refine canon_modStore _ _ ?_ ?_
    · exact fun _ h => h
    split
    · exact hs
    · exact canon_forceFlush _ hs

theorem canon_storeWriteFrom (s : State) (hs : (s.keep tables).Canon) : ∀ w b n a bs, ((storeWriteFrom w b n a bs s).keep tables).Canon := by
  intro w b n a bs
  induction n generalizing s a bs with
  | zero => exact hs
  | succ n ih =>
    unfold storeWriteFrom
    dsimp only
    split
    · exact hs
    · refine ih _ ?_ _ _
      split
      · exact canon_mergeWrite _ hs _ _ _
      · exact canon_lineWrite _ hs _ _ _

theorem canon_storePut (s : State) (hs : (s.keep tables).Canon) : ∀ a1 a2 a3, ((storePut a1 a2 a3 s).keep tables).Canon := by
  intro a1 a2 a3
  unfold storePut
  repeat' first
    | with_reducible assumption
    | (with_reducible refine canon_storeWriteFrom _ ?_ _ _ _ _ _)
    | split
    | dsimp only
    | simp only [keep_ite, implies_true, true_or, or_true, and_self, tables_store]

theorem canon_storeWrite (s : State) (hs : (s.keep tables).Canon) : ∀ a1 a2, ((storeWrite a1 a2 s).keep tables).Canon := by
  intro a1 a2
  unfold storeWrite
  repeat' first
    | with_reducible assumption
    | (with_reducible refine canon_storePut _ ?_ _ _ _)
    | split
    | dsimp only
    | simp only [keep_ite, implies_true, true_or, or_true, and_self, tables_store]

theorem canon_bar2WriteFrom (s : State) (hs : (s.keep tables).Canon) : ∀ n a bs, ((bar2WriteFrom n a bs s).keep tables).Canon := by
  intro n a bs
  induction n generalizing s a bs with
  | zero => exact hs
  | succ n ih =>
    unfold bar2WriteFrom
    dsimp only
    split
    · exact hs
    · refine ih _ ?_ _ _
      split
      · exact hs
      · exact canon_storeWrite _ hs _ _

theorem canon_updateLinks (s : State) (hs : (s.keep tables).Canon) : ((updateLinks s).keep tables).Canon := by
  unfold updateLinks
  repeat' first
    | with_reducible assumption
    | (with_reducible refine canon_dput _ ?_ _ _ _)
    | (with_reducible refine canon_foldl _ (fun s a hr => ?_) _ _ ?_)
    | split
    | dsimp only
    | simp only [keep_ite, implies_true, true_or, or_true, and_self, keep_noteQuantities, keep_modLaw]

theorem canon_baseBoundary (s : State) (hs : (s.keep tables).Canon) : ((baseBoundary s).keep tables).Canon := by
  unfold baseBoundary
  repeat' first
    | with_reducible assumption
    | (with_reducible refine canon_updateLinks _ ?_)
    | (with_reducible refine canon_applyParam _ ?_ _)
    | (with_reducible refine canon_foldl _ (fun s a hr => ?_) _ _ ?_)
    | split
    | dsimp only
    | simp only [keep_ite, implies_true, true_or, or_true, and_self, keep_groupSpeed, keep_applyModifies, keep_tensionCheck, keep_boundaryLaw, keep_belayStep, keep_sendFrames, keep_planStep, keep_writePorts, keep_rampStep, keep_dmaEvent, tables_bus, tables_dma, tables_drawLim, tables_rope]

theorem canon_jobWriteFrom (s : State) (hs : (s.keep tables).Canon) : ∀ j n a bs, ((jobWriteFrom j n a bs s).keep tables).Canon := by
  intro j n a bs
  induction n generalizing s a bs with
  | zero => exact hs
  | succ n ih =>
    unfold jobWriteFrom
    dsimp only
    split
    · exact hs
    · exact ih _ (canon_storeWrite _ hs _ _) _ _

theorem canon_jobWrite (s : State) (hs : (s.keep tables).Canon) : ∀ a1 a2 a3, ((jobWrite a1 a2 a3 s).keep tables).Canon := by
  intro a1 a2 a3
  unfold jobWrite
  repeat' first
    | with_reducible assumption
    | (with_reducible refine canon_jobWriteFrom _ ?_ _ _ _ _)
    | split
    | dsimp only
    | simp only [keep_ite, implies_true, true_or, or_true, and_self, tables_store]

theorem canon_commit (s : State) (hs : (s.keep tables).Canon) : ∀ a1 a2 a3, ((commit a1 a2 a3 s).keep tables).Canon := by
  intro a1 a2 a3
  unfold commit
  repeat' first
    | with_reducible assumption
    | (with_reducible refine canon_jobWrite _ ?_ _ _ _)
    | split
    | dsimp only
    | simp only [keep_ite, implies_true, true_or, or_true, and_self, keep_completeWith, keep_State_modFrame, keep_giveBack, keep_State_modJob, keep_releasePages, keep_freeCompressor, tables_store]

theorem canon_readMerged (s : State) (hs : (s.keep tables).Canon) : ∀ g l e, ((readMerged g l e s).1.keep tables).Canon := by
  intro g l e
  unfold readMerged
  split
  · rw [keep_readLine rfl]; exact canon_flushEntry _ hs _ _
  · rw [keep_readLine rfl]; exact hs

theorem canon_readLines (s : State) (hs : (s.keep tables).Canon) : ∀ g e ls, ((readLines g e ls s).1.keep tables).Canon := by
  intro g e ls
  induction ls generalizing s with
  | nil => exact hs
  | cons l r ih => exact ih _ (canon_readMerged _ hs _ _ _)

theorem canon_consume (s : State) (hs : (s.keep tables).Canon) : ∀ g e ls, ((consume g e ls s).1.keep tables).Canon := by
  intro g e ls
  simp only [consume, keep_raiseUe]
  exact canon_readLines _ hs _ _ _

theorem canon_consumeLine (b : Beats) (hb : (b.st.keep tables).Canon) : ∀ e l, ((consumeLine e l b).st.keep tables).Canon := by
  intro e l
  have h := canon_consume _ hb .dma e [l]
  unfold consumeLine
  have hf k := canon_flushEntry b.st hb k (eccOf e l)
  generalize consume .dma e [l] b.st = c at *
  obtain ⟨c1, c2⟩ := c
  repeat' first
    | with_reducible assumption
    | exact hf _
    | split

theorem canon_readFor (s : State) (hs : (s.keep tables).Canon) : ∀ a1 a2 a3 a4, ((readFor a1 a2 a3 a4 s).1.keep tables).Canon := by
  intro a1 a2 a3 a4
  unfold readFor
  repeat' first
    | with_reducible assumption
    | (with_reducible refine canon_consume _ ?_ _ _ _)
    | split
    | dsimp only
    | simp only [keep_ite, implies_true, true_or, or_true, and_self, tables_store]

theorem canon_finishLine (s : State) (hs : (s.keep tables).Canon) : ∀ a1 a2 a3 a4 a5 a6, ((finishLine a1 a2 a3 a4 a5 a6 s).keep tables).Canon := by
  intro a1 a2 a3 a4 a5 a6
  unfold finishLine
  repeat' first
    | with_reducible assumption
    | (with_reducible refine canon_readFor _ ?_ _ _ _ _)
    | (with_reducible refine canon_foldl _ (fun s a hr => ?_) _ _ ?_)
    | split
    | dsimp only
    | simp only [keep_ite, implies_true, true_or, or_true, and_self, keep_atDec, keep_reportBlank, keep_reportResync, tables_store]

theorem canon_decodeLine (s : State) (hs : (s.keep tables).Canon) : ∀ a1 a2, ((decodeLine a1 a2 s).keep tables).Canon := by
  intro a1 a2
  unfold decodeLine
  repeat' first
    | with_reducible assumption
    | (with_reducible refine canon_finishLine _ ?_ _ _ _ _ _ _)
    | split
    | dsimp only
    | simp only [keep_ite, implies_true, true_or, or_true, and_self, keep_atDec, tables_store]

theorem canon_putDataByte (s : State) (hs : (s.keep tables).Canon) : ∀ ep a b, ((putDataByte ep a b s).keep tables).Canon := by
  intro ep a b
  simp only [putDataByte, keep_noteQuantities]
  exact canon_modLaw _ _ (fun t h => swf_sput _ _ _ h) hs

theorem canon_putRamWord (s : State) (hs : (s.keep tables).Canon) : ∀ ep i w, ((putRamWord ep i w s).keep tables).Canon := by
  intro ep i w
  exact canon_modDma _ _ (fun t h => swf_sput _ _ _ h) hs

theorem canon_putRamByte (s : State) (hs : (s.keep tables).Canon) : ∀ a1 a2 a3 a4 a5, ((putRamByte a1 a2 a3 a4 a5 s).keep tables).Canon := by
  intro a1 a2 a3 a4 a5
  unfold putRamByte
  repeat' first
    | with_reducible assumption
    | (with_reducible refine canon_putRamWord _ ?_ _ _ _)
    | split
    | dsimp only
    | simp only [keep_ite, implies_true, true_or, or_true, and_self, tables_dma]

theorem canon_putBytes (f : Nat → Byte → State → State) (hf : ∀ a b s, (s.keep tables).Canon → ((f a b s).keep tables).Canon)
    (s : State) (hs : (s.keep tables).Canon) : ∀ a bs, ((putBytes f a bs s).keep tables).Canon := by
  intro a bs
  induction bs generalizing s a with
  | nil => exact hs
  | cons b r ih => exact ih _ (hf _ _ _ hs) _

theorem canon_writeBeat (s : State) (hs : (s.keep tables).Canon) : ∀ lo hi sp a ep bs, ((writeBeat lo hi sp a ep bs s).keep tables).Canon := by
  intro lo hi sp a ep bs
  unfold writeBeat
  split
  · exact hs
  · exact canon_storePut _ hs _ _ _
  · refine canon_putBytes _ (fun a b s h => ?_) _ hs _ _
    simpa only [keep_putLawByte] using h
  · exact canon_putBytes _ (fun a b s h => canon_putDataByte _ h _ _ _) _ hs _ _
  · exact canon_putBytes _ (fun a b s h => canon_putRamByte _ h _ _ _ _ _) _ hs _ _

theorem canon_readBeat (b : Beats) (hb : (b.st.keep tables).Canon) : ∀ h e lo len sp a off n, ((readBeat h e lo len sp a off n b).1.st.keep tables).Canon := by
  intro h e lo len sp a off n
  unfold readBeat
  split
  · exact hb
  · simp only [keep_storeBytes]
    split
    · exact canon_consumeLine _ hb _ _
    · exact hb
  · simpa only [keep_ramBytes] using hb
  · simpa only [keep_dmaDataUe] using hb
  · simpa only [keep_ramBytes] using hb

theorem canon_moveBeat (b : Beats) (hb : (b.st.keep tables).Canon) : ∀ h e c ss src ds dst len x, ((moveBeat h e c ss src ds dst len b x).st.keep tables).Canon := by
  intro h e c ss src ds dst len x
  simp only [moveBeat]
  repeat' first
    | with_reducible exact hb
    | with_reducible exact canon_readBeat _ hb _ _ _ _ _ _ _ _
    | exact canon_writeBeat _ (canon_readBeat _ hb _ _ _ _ _ _ _ _) _ _ _ _ _ _
    | split

theorem canon_scanBeat (b : Beats) (hb : (b.st.keep tables).Canon) : ∀ h e c u sp ad len x, ((scanBeat h e c u sp ad len b x).st.keep tables).Canon := by
  intro h e c u sp ad len x
  simp only [scanBeat]
  repeat' first
    | with_reducible exact hb
    | with_reducible exact canon_readBeat _ hb _ _ _ _ _ _ _ _
    | (simp only [keep_ite, ite_self, keep_setsBit, keep_State_atCu, tables_dma]; exact canon_readBeat _ hb _ _ _ _ _ _ _ _)
    | split

theorem canon_beats {α : Type} (g : Beats → α → Beats) (h : ∀ b x, (b.st.keep tables).Canon → ((g b x).st.keep tables).Canon)
    (l : List α) (b : Beats) (hb : (b.st.keep tables).Canon) : ((l.foldl g b).st.keep tables).Canon := by
  induction l generalizing b with
  | nil => exact hb
  | cons a l ih => exact ih _ (h _ _ hb)

theorem canon_dmaBursts (k n : Nat) (xs : List (Nat × Nat)) (w : DmaWork) (f : Beats → Nat × Nat → Beats)
    (hf : ∀ b x, (b.st.keep tables).Canon → ((f b x).st.keep tables).Canon) (s : State) (hs : (s.keep tables).Canon) :
    ((dmaBursts k n xs w f s).keep tables).Canon := by
  simp only [dmaBursts, keep_State_atCh, tables_dma]
  exact canon_beats _ hf _ _ hs

theorem canon_dmaRun (s : State) (hs : (s.keep tables).Canon) : ∀ k n, ((dmaRun k n s).keep tables).Canon := by
  intro k n
  unfold dmaRun
  dsimp only
  split
  · exact canon_dmaBursts _ _ _ _ _ (fun b x h => canon_moveBeat _ h _ _ _ _ _ _ _ _ _) _ hs
  · exact canon_dmaBursts _ _ _ _ _ (fun b x h => canon_scanBeat _ h _ _ _ _ _ _ _ _) _ hs
  · exact hs

theorem canon_dmaRound (s : State) (hs : (s.keep tables).Canon) : ∀ n, ((dmaRound n s).keep tables).Canon := by
  intro n
  induction n generalizing s with
  | zero => exact hs
  | succ n ih =>
    unfold dmaRound
    split
    · exact hs
    · split
      · exact hs
      · refine ih _ ?_
        refine canon_modDma _ _ (fun t h => h) ?_
        exact canon_dmaRun _ hs _ _

theorem canon_dmaServe (s : State) (hs : (s.keep tables).Canon) : ((dmaServe s).keep tables).Canon := by
  unfold dmaServe
  repeat' first
    | with_reducible assumption
    | (with_reducible refine canon_dmaRound _ ?_ _)
    | split
    | dsimp only
    | simp only [keep_ite, implies_true, true_or, or_true, and_self, tables_dma, tables_store]

theorem canon_dmaBegin (s : State) (hs : (s.keep tables).Canon) : ∀ a1 a2 a3, ((dmaBegin a1 a2 a3 s).keep tables).Canon := by
  intro a1 a2 a3
  unfold dmaBegin
  repeat' first
    | with_reducible assumption
    | (with_reducible refine canon_dmaServe _ ?_)
    | split
    | dsimp only
    | simp only [keep_ite, implies_true, true_or, or_true, and_self, keep_State_atCh, tables_dma, tables_store]

theorem canon_dmaScan (s : State) (hs : (s.keep tables).Canon) : ∀ a1 a2 a3 a4 a5, ((dmaScan a1 a2 a3 a4 a5 s).keep tables).Canon := by
  intro a1 a2 a3 a4 a5
  unfold dmaScan
  repeat' first
    | with_reducible assumption
    | (with_reducible refine canon_dmaBegin _ ?_ _ _ _)
    | (with_reducible refine canon_dmaServe _ ?_)
    | split
    | dsimp only
    | simp only [keep_ite, implies_true, true_or, or_true, and_self, keep_State_atCh, keep_State_atCu, tables_dma, tables_store]

theorem canon_dputAll (s : State) (hs : (s.keep tables).Canon) : ∀ a vs, ((dputAll a vs s).keep tables).Canon := by
  intro a vs
  induction vs generalizing s a with
  | nil => exact hs
  | cons v r ih => exact ih _ (canon_dput _ hs _ _ _) _

theorem canon_resetUnits (s : State) (hs : (s.keep tables).Canon) : ((resetUnits s).keep tables).Canon := by
  rw [canon_iff] at *
  exact ⟨rfl, hs.2.1, hs.2.2.1, hs.2.2.2.1, rfl⟩

theorem canon_startStep7 (s : State) (hs : (s.keep tables).Canon) : ((startStep7 s).keep tables).Canon := by
  unfold startStep7
  repeat' first
    | with_reducible assumption
    | (with_reducible refine canon_resetUnits _ ?_)
    | split
    | dsimp only
    | simp only [keep_ite, implies_true, true_or, or_true, and_self, keep_domainsOff, keep_unlockPlls, keep_modBoot, tables_anch, tables_bus, tables_clk, tables_drawLim, tables_rope, tables_spBus, tables_store]

theorem canon_startStep6 (s : State) (hs : (s.keep tables).Canon) : ((startStep6 s).keep tables).Canon := by
  unfold startStep6
  repeat' first
    | with_reducible assumption
    | (with_reducible refine canon_startStep7 _ ?_)
    | split
    | dsimp only
    | simp only [keep_ite, implies_true, true_or, or_true, and_self, keep_bootFail, keep_endStep, keep_modBoot, tables_anch, tables_bus, tables_clk, tables_drawLim, tables_rope, tables_spBus, tables_store]

theorem canon_imageFail (s : State) (hs : (s.keep tables).Canon) : ∀ a1 a2 a3, ((imageFail a1 a2 a3 s).keep tables).Canon := by
  intro a1 a2 a3
  unfold imageFail
  repeat' first
    | with_reducible assumption
    | (with_reducible refine canon_startStep6 _ ?_)
    | split
    | dsimp only
    | simp only [keep_ite, implies_true, true_or, or_true, and_self, keep_bootFail, keep_raise, keep_modBoot, tables_anch, tables_bus, tables_clk, tables_drawLim, tables_rope, tables_spBus, tables_store]

theorem canon_endStep7 (s : State) (hs : (s.keep tables).Canon) : ((endStep7 s).keep tables).Canon := by
  unfold endStep7
  repeat' first
    | with_reducible assumption
    | (with_reducible refine canon_imageFail _ ?_ _ _ _)
    | split
    | dsimp only
    | simp only [keep_ite, implies_true, true_or, or_true, and_self, keep_raiseAgain, keep_endStep, keep_lawBudgets, keep_takeCairn, keep_setOperate, keep_modHost, tables_anch, tables_bus, tables_clk, tables_cons, tables_drawLim, tables_rope, tables_spBus, tables_store]

theorem canon_putNum (s : State) (hs : (s.keep tables).Canon) : ∀ a2, ((putNum s a2).keep tables).Canon := by
  intro a2
  unfold putNum
  repeat' first
    | with_reducible assumption
    | (with_reducible refine canon_dput _ ?_ _ _ _)
    | split
    | dsimp only
    | simp only [keep_ite, implies_true, true_or, or_true, and_self]

theorem canon_lawRetire (s : State) (hs : (s.keep tables).Canon) : ∀ w r, ((lawRetire w r s).keep tables).Canon := by
  intro w r
  have hr (r : LawResult) (s0 s : State) : (lawReads r s0 s).keep tables = s.keep tables := by
    unfold lawReads
    exact keep_foldl _ (fun s a => by simp only [keep_raise, keep_modLaw, implies_true, or_true]) _ _
  have hq (b : Bool) (s : State) : (if b then noteQuantities s else s).keep tables = s.keep tables := by
    split
    · exact keep_noteQuantities s
    · rfl
  simp only [lawRetire, keep_lawNan, hr, keep_lawEffect, keep_ite, keep_setsBit, keep_modLaw, hq, ite_self, implies_true, or_true]
  exact canon_foldl _ (fun s a h => canon_putNum _ h _) _ _ hs

theorem canon_lawUpsets (s : State) (hs : (s.keep tables).Canon) : ∀ x, ((lawUpsets x s).keep tables).Canon := by
  intro x
  refine canon_modLaw _ _ (fun t h => ?_) hs
  dsimp only
  generalize x.upset = us
  induction us generalizing t with
  | nil => exact h
  | cons i r ih => exact ih _ (swf_sput _ _ _ h)

theorem canon_lawStep (s : State) (hs : (s.keep tables).Canon) : ∀ a1 a2 a3, ((lawStep a1 a2 a3 s).keep tables).Canon := by
  intro a1 a2 a3
  unfold lawStep
  repeat' first
    | with_reducible assumption
    | (with_reducible refine canon_lawRetire _ ?_ _ _)
    | (with_reducible refine canon_lawUpsets _ ?_ _)
    | split
    | dsimp only
    | simp only [keep_ite, implies_true, true_or, or_true, and_self, keep_lawDiffer, keep_lawHalt, keep_modLaw]

theorem canon_execAbs (s : State) (hs : (s.keep tables).Canon) : ∀ a1 a2 a3, CanonOut (execAbs a1 a2 a3 s) := by
  intro a1 a2 a3
  unfold execAbs
  repeat' first
    | with_reducible assumption
    | with_reducible refine canonOut_next ?_
    | (with_reducible refine canon_lawStep _ ?_ _ _ _)
    | split
    | dsimp only
    | simp only [keep_ite, implies_true, true_or, or_true, and_self]

theorem canon_execAdd (s : State) (hs : (s.keep tables).Canon) : ∀ a1 a2 a3 a4, CanonOut (execAdd a1 a2 a3 a4 s) := by
  intro a1 a2 a3 a4
  unfold execAdd
  repeat' first
    | with_reducible assumption
    | with_reducible refine canonOut_next ?_
    | (with_reducible refine canon_lawStep _ ?_ _ _ _)
    | split
    | dsimp only
    | simp only [keep_ite, implies_true, true_or, or_true, and_self]

theorem canon_porState (s : State) (hs : (s.keep tables).Canon) : ∀ x, ((porState x s).keep tables).Canon := by
  intro x
  rw [canon_iff] at *
  exact ⟨rfl, hs.2.1, rfl, rfl, rfl⟩

theorem canon_powerOn (s : State) (hs : (s.keep tables).Canon) : ∀ a1 a2, ((powerOn a1 a2 s).keep tables).Canon := by
  intro a1 a2
  unfold powerOn
  repeat' first
    | with_reducible assumption
    | (with_reducible refine canon_porState _ ?_ _)
    | split
    | dsimp only
    | simp only [keep_ite, implies_true, true_or, or_true, and_self, keep_modPwr, keep_countLife, keep_sampleRaises, keep_modBoot, keep_firstSample, tables_anch, tables_bus, tables_clk, tables_cons, tables_dma, tables_drawLim, tables_facet, tables_ist, tables_otp, tables_reg, tables_rope, tables_spBus, tables_store, tables_therm]

theorem canon_powerOff (s : State) (hs : (s.keep tables).Canon) : ∀ a1, ((powerOff a1 s).keep tables).Canon := by
  intro a1
  unfold powerOff
  repeat' first
    | with_reducible assumption
    | (with_reducible refine canon_porState _ ?_ _)
    | split
    | dsimp only
    | simp only [keep_ite, implies_true, true_or, or_true, and_self, keep_modEng, tables_anch, tables_bus, tables_clk, tables_cons, tables_dma, tables_drawLim, tables_facet, tables_ist, tables_otp, tables_reg, tables_rope, tables_spBus, tables_store, tables_therm]

theorem canon_execAonPowerOnReset (s : State) (hs : (s.keep tables).Canon) : ∀ a1 a2 a3, CanonOut (execAonPowerOnReset a1 a2 a3 s) := by
  intro a1 a2 a3
  unfold execAonPowerOnReset
  repeat' first
    | with_reducible assumption
    | with_reducible refine canonOut_next ?_
    | (with_reducible refine canon_powerOn _ ?_ _ _)
    | (with_reducible refine canon_powerOff _ ?_ _)
    | split
    | dsimp only
    | simp only [keep_ite, implies_true, true_or, or_true, and_self, keep_modPwr, tables_anch, tables_bus, tables_clk, tables_cons, tables_dma, tables_drawLim, tables_facet, tables_ist, tables_otp, tables_reg, tables_rope, tables_spBus, tables_store, tables_therm]

theorem canon_execBar2Read (s : State) (hs : (s.keep tables).Canon) : ∀ a1 a2 a3, CanonOut (execBar2Read a1 a2 a3 s) := by
  intro a1 a2 a3
  unfold execBar2Read
  repeat' first
    | with_reducible assumption
    | with_reducible refine canonOut_next ?_
    | (with_reducible refine canon_consume _ ?_ _ _ _)
    | split
    | dsimp only
    | simp only [keep_ite, implies_true, true_or, or_true, and_self, keep_modFreeCtr, keep_modHost, tables_store]

theorem canon_execBar2Write (s : State) (hs : (s.keep tables).Canon) : ∀ a1 a2, CanonOut (execBar2Write a1 a2 s) := by
  intro a1 a2
  unfold execBar2Write
  repeat' first
    | with_reducible assumption
    | with_reducible refine canonOut_next ?_
    | (with_reducible refine canon_bar2WriteFrom _ ?_ _ _ _)
    | split
    | dsimp only
    | simp only [keep_ite, implies_true, true_or, or_true, and_self, keep_countDrop, tables_store]

theorem canon_execBaseSampleBoundary (s : State) (hs : (s.keep tables).Canon) : CanonOut (execBaseSampleBoundary s) := by
  unfold execBaseSampleBoundary
  repeat' first
    | with_reducible assumption
    | with_reducible refine canonOut_next ?_
    | (with_reducible refine canon_baseBoundary _ ?_)
    | split
    | dsimp only
    | simp only [keep_ite, implies_true, true_or, or_true, and_self, tables_bus, tables_dma, tables_drawLim, tables_rope]

theorem canon_execBiq (s : State) (hs : (s.keep tables).Canon) : ∀ a1 a2 a3 a4 a5, CanonOut (execBiq a1 a2 a3 a4 a5 s) := by
  intro a1 a2 a3 a4 a5
  unfold execBiq
  repeat' first
    | with_reducible assumption
    | with_reducible refine canonOut_next ?_
    | (with_reducible refine canon_lawStep _ ?_ _ _ _)
    | split
    | dsimp only
    | simp only [keep_ite, implies_true, true_or, or_true, and_self]

theorem canon_execBrf (s : State) (hs : (s.keep tables).Canon) : ∀ a1 a2 a3 a4, CanonOut (execBrf a1 a2 a3 a4 s) := by
  intro a1 a2 a3 a4
  unfold execBrf
  repeat' first
    | with_reducible assumption
    | with_reducible refine canonOut_next ?_
    | (with_reducible refine canon_lawStep _ ?_ _ _ _)
    | split
    | dsimp only
    | simp only [keep_ite, implies_true, true_or, or_true, and_self]

theorem canon_execCairnRecordWritten (s : State) (hs : (s.keep tables).Canon) : CanonOut (execCairnRecordWritten s) := by
  unfold execCairnRecordWritten
  repeat' first
    | with_reducible assumption
    | with_reducible refine canonOut_next ?_
    | (with_reducible refine canon_powerOff _ ?_ _)
    | split
    | dsimp only
    | simp only [keep_ite, implies_true, true_or, or_true, and_self, keep_modPwr, keep_domainsOff, keep_writeCairn, keep_enterState, keep_modPers, keep_outputsSafe, keep_beginSequence, tables_anch, tables_bus, tables_clk, tables_cons, tables_dma, tables_drawLim, tables_facet, tables_ist, tables_otp, tables_reg, tables_rope, tables_spBus, tables_store, tables_therm]

theorem canon_execClarke (s : State) (hs : (s.keep tables).Canon) : ∀ a1 a2 a3 a4, CanonOut (execClarke a1 a2 a3 a4 s) := by
  intro a1 a2 a3 a4
  unfold execClarke
  repeat' first
    | with_reducible assumption
    | with_reducible refine canonOut_next ?_
    | (with_reducible refine canon_lawStep _ ?_ _ _ _)
    | split
    | dsimp only
    | simp only [keep_ite, implies_true, true_or, or_true, and_self]

theorem canon_execCmp (s : State) (hs : (s.keep tables).Canon) : ∀ a1 a2 a3 a4 a5, CanonOut (execCmp a1 a2 a3 a4 a5 s) := by
  intro a1 a2 a3 a4 a5
  unfold execCmp
  repeat' first
    | with_reducible assumption
    | with_reducible refine canonOut_next ?_
    | (with_reducible refine canon_lawStep _ ?_ _ _ _)
    | split
    | dsimp only
    | simp only [keep_ite, implies_true, true_or, or_true, and_self]

theorem canon_execDecodeLine (s : State) (hs : (s.keep tables).Canon) : ∀ a1 a2, CanonOut (execDecodeLine a1 a2 s) := by
  intro a1 a2
  unfold execDecodeLine
  repeat' first
    | with_reducible assumption
    | with_reducible refine canonOut_next ?_
    | (with_reducible refine canon_decodeLine _ ?_ _ _)
    | split
    | dsimp only
    | simp only [keep_ite, implies_true, true_or, or_true, and_self, tables_store]

theorem canon_execDiff (s : State) (hs : (s.keep tables).Canon) : ∀ a1 a2 a3 a4 a5, CanonOut (execDiff a1 a2 a3 a4 a5 s) := by
  intro a1 a2 a3 a4 a5
  unfold execDiff
  repeat' first
    | with_reducible assumption
    | with_reducible refine canonOut_next ?_
    | (with_reducible refine canon_lawStep _ ?_ _ _ _)
    | split
    | dsimp only
    | simp only [keep_ite, implies_true, true_or, or_true, and_self]

theorem canon_execDmaInstructionComplete (s : State) (hs : (s.keep tables).Canon) : ∀ a1 a2, CanonOut (execDmaInstructionComplete a1 a2 s) := by
  intro a1 a2
  unfold execDmaInstructionComplete
  repeat' first
    | with_reducible assumption
    | with_reducible refine canonOut_next ?_
    | (with_reducible refine canon_dmaServe _ ?_)
    | split
    | dsimp only
    | simp only [keep_ite, implies_true, true_or, or_true, and_self, keep_dmaHaltOpen, keep_dmaBurstFails, keep_dmaAnswered, tables_dma, tables_store]

theorem canon_execDmaStop (s : State) (hs : (s.keep tables).Canon) : ∀ a1, CanonOut (execDmaStop a1 s) := by
  intro a1
  unfold execDmaStop
  repeat' first
    | with_reducible assumption
    | with_reducible refine canonOut_next ?_
    | (with_reducible refine canon_dmaServe _ ?_)
    | split
    | dsimp only
    | simp only [keep_ite, implies_true, true_or, or_true, and_self, keep_dmaStop, tables_dma, tables_store]

theorem canon_execEndp (s : State) (hs : (s.keep tables).Canon) : ∀ a1, CanonOut (execEndp a1 s) := by
  intro a1
  unfold execEndp
  repeat' first
    | with_reducible assumption
    | with_reducible refine canonOut_next ?_
    | (with_reducible refine canon_lawStep _ ?_ _ _ _)
    | split
    | dsimp only
    | simp only [keep_ite, implies_true, true_or, or_true, and_self]

theorem canon_frameCommit (s : State) (hs : (s.keep tables).Canon) : ∀ a1 a2 a3, ((frameCommit a1 a2 a3 s).keep tables).Canon := by
  intro a1 a2 a3
  unfold frameCommit
  repeat' first
    | with_reducible assumption
    | (with_reducible refine canon_commit _ ?_ _ _ _)
    | split
    | dsimp only
    | simp only [keep_ite, implies_true, true_or, or_true, and_self, keep_rejectCommit, tables_store]

theorem canon_execFrameCommit (s : State) (hs : (s.keep tables).Canon) : ∀ a1 a2 a3, CanonOut (execFrameCommit a1 a2 a3 s) := by
  intro a1 a2 a3
  unfold execFrameCommit
  repeat' first
    | with_reducible assumption
    | with_reducible refine canonOut_next ?_
    | (with_reducible refine canon_frameCommit _ ?_ _ _ _)
    | split
    | dsimp only
    | simp only [keep_ite, implies_true, true_or, or_true, and_self, tables_store]

theorem canon_execHold (s : State) (hs : (s.keep tables).Canon) : ∀ a1 a2 a3 a4, CanonOut (execHold a1 a2 a3 a4 s) := by
  intro a1 a2 a3 a4
  unfold execHold
  repeat' first
    | with_reducible assumption
    | with_reducible refine canonOut_next ?_
    | (with_reducible refine canon_lawStep _ ?_ _ _ _)
    | split
    | dsimp only
    | simp only [keep_ite, implies_true, true_or, or_true, and_self]

theorem canon_execInp (s : State) (hs : (s.keep tables).Canon) : ∀ a1 a2 a3, CanonOut (execInp a1 a2 a3 s) := by
  intro a1 a2 a3
  unfold execInp
  repeat' first
    | with_reducible assumption
    | with_reducible refine canonOut_next ?_
    | (with_reducible refine canon_lawStep _ ?_ _ _ _)
    | split
    | dsimp only
    | simp only [keep_ite, implies_true, true_or, or_true, and_self]

theorem canon_execIntg (s : State) (hs : (s.keep tables).Canon) : ∀ a1 a2 a3 a4 a5, CanonOut (execIntg a1 a2 a3 a4 a5 s) := by
  intro a1 a2 a3 a4 a5
  unfold execIntg
  repeat' first
    | with_reducible assumption
    | with_reducible refine canonOut_next ?_
    | (with_reducible refine canon_lawStep _ ?_ _ _ _)
    | split
    | dsimp only
    | simp only [keep_ite, implies_true, true_or, or_true, and_self]

theorem canon_execIpark (s : State) (hs : (s.keep tables).Canon) : ∀ a1 a2 a3 a4, CanonOut (execIpark a1 a2 a3 a4 s) := by
  intro a1 a2 a3 a4
  unfold execIpark
  repeat' first
    | with_reducible assumption
    | with_reducible refine canonOut_next ?_
    | (with_reducible refine canon_lawStep _ ?_ _ _ _)
    | split
    | dsimp only
    | simp only [keep_ite, implies_true, true_or, or_true, and_self]

theorem canon_marchPass (s : State) (hs : (s.keep tables).Canon) : ∀ a1 a2 a3, ((marchPass a1 a2 a3 s).1.keep tables).Canon := by
  intro a1 a2 a3
  unfold marchPass
  repeat' first
    | with_reducible assumption
    | (with_reducible refine canon_storeWrite _ ?_ _ _)
    | split
    | dsimp only
    | simp only [keep_ite, implies_true, true_or, or_true, and_self, keep_readLine, tables_store]

theorem canon_marchLine (s : State) (hs : (s.keep tables).Canon) : ∀ a1 a2 a3 a4, ((marchLine a1 a2 a3 a4 s).1.keep tables).Canon := by
  intro a1 a2 a3 a4
  unfold marchLine
  repeat' first
    | with_reducible assumption
    | (with_reducible refine canon_marchPass _ ?_ _ _ _)
    | split
    | dsimp only
    | simp only [keep_ite, implies_true, true_or, or_true, and_self, tables_store]

theorem canon_istTake (s : State) (hs : (s.keep tables).Canon) : ∀ x, ((istTake x s).1.keep tables).Canon := by
  intro x
  unfold istTake
  have hm p l a b := canon_marchLine _ hs p l a b
  split
  · simpa only [keep_modIst, tables_ist] using hs
  · rename_i p l a b
    have h := hm p l a b
    generalize marchLine p l a b s = y at *
    obtain ⟨y1, y2⟩ := y
    simpa only [keep_modIst, tables_ist] using h
  · dsimp only
    split
    · simpa only [keep_modLaw, keep_modIst, tables_ist, implies_true, or_true] using hs
    · simpa only [keep_modIst, tables_ist] using hs
  · simpa only [keep_modIst, tables_ist] using hs
  · dsimp only
    split
    · simpa only [keep_modIst, tables_ist] using hs
    · simpa only [keep_modIst, tables_ist] using hs
  · exact hs
  · dsimp only
    split
    · simpa only [keep_modIst, keep_portCount, tables_ist] using hs
    · simpa only [keep_portCount, tables_ist] using hs

theorem canon_istRun (s : State) (hs : (s.keep tables).Canon) : ∀ t x, ((istRun t x s).keep tables).Canon := by
  intro t x
  have h := canon_istTake _ hs x
  unfold istRun
  dsimp only
  split
  all_goals
    rename_i he
    rw [he] at h
    first
      | exact h
      | (simp only [keep_istPasses, keep_istFails, tables_ist]; exact h)

theorem canon_istStep (s : State) (hs : (s.keep tables).Canon) : ∀ a1 a2, ((istStep a1 a2 s).keep tables).Canon := by
  intro a1 a2
  unfold istStep
  repeat' first
    | with_reducible assumption
    | (with_reducible refine canon_istRun _ ?_ _ _)
    | split
    | dsimp only
    | simp only [keep_ite, implies_true, true_or, or_true, and_self, keep_istLate, keep_istBegin, tables_ist, tables_store]

theorem canon_execIstTestStep (s : State) (hs : (s.keep tables).Canon) : ∀ a1 a2, CanonOut (execIstTestStep a1 a2 s) := by
  intro a1 a2
  unfold execIstTestStep
  repeat' first
    | with_reducible assumption
    | with_reducible refine canonOut_next ?_
    | (with_reducible refine canon_istStep _ ?_ _ _)
    | split
    | dsimp only
    | simp only [keep_ite, implies_true, true_or, or_true, and_self, tables_ist, tables_store]

theorem canon_execLd (s : State) (hs : (s.keep tables).Canon) : ∀ a1 a2 a3 a4, CanonOut (execLd a1 a2 a3 a4 s) := by
  intro a1 a2 a3 a4
  unfold execLd
  repeat' first
    | with_reducible assumption
    | with_reducible refine canonOut_next ?_
    | (with_reducible refine canon_lawStep _ ?_ _ _ _)
    | split
    | dsimp only
    | simp only [keep_ite, implies_true, true_or, or_true, and_self]

theorem canon_execLim (s : State) (hs : (s.keep tables).Canon) : ∀ a1 a2 a3 a4 a5, CanonOut (execLim a1 a2 a3 a4 a5 s) := by
  intro a1 a2 a3 a4 a5
  unfold execLim
  repeat' first
    | with_reducible assumption
    | with_reducible refine canonOut_next ?_
    | (with_reducible refine canon_lawStep _ ?_ _ _ _)
    | split
    | dsimp only
    | simp only [keep_ite, implies_true, true_or, or_true, and_self]

theorem canon_execLpf (s : State) (hs : (s.keep tables).Canon) : ∀ a1 a2 a3 a4 a5, CanonOut (execLpf a1 a2 a3 a4 a5 s) := by
  intro a1 a2 a3 a4 a5
  unfold execLpf
  repeat' first
    | with_reducible assumption
    | with_reducible refine canonOut_next ?_
    | (with_reducible refine canon_lawStep _ ?_ _ _ _)
    | split
    | dsimp only
    | simp only [keep_ite, implies_true, true_or, or_true, and_self]

theorem canon_execMac (s : State) (hs : (s.keep tables).Canon) : ∀ a1 a2 a3 a4, CanonOut (execMac a1 a2 a3 a4 s) := by
  intro a1 a2 a3 a4
  unfold execMac
  repeat' first
    | with_reducible assumption
    | with_reducible refine canonOut_next ?_
    | (with_reducible refine canon_lawStep _ ?_ _ _ _)
    | split
    | dsimp only
    | simp only [keep_ite, implies_true, true_or, or_true, and_self]

theorem canon_execMax (s : State) (hs : (s.keep tables).Canon) : ∀ a1 a2 a3 a4, CanonOut (execMax a1 a2 a3 a4 s) := by
  intro a1 a2 a3 a4
  unfold execMax
  repeat' first
    | with_reducible assumption
    | with_reducible refine canonOut_next ?_
    | (with_reducible refine canon_lawStep _ ?_ _ _ _)
    | split
    | dsimp only
    | simp only [keep_ite, implies_true, true_or, or_true, and_self]

theorem canon_execMergeBufferFlush (s : State) (hs : (s.keep tables).Canon) : ∀ a1 a2, CanonOut (execMergeBufferFlush a1 a2 s) := by
  intro a1 a2
  unfold execMergeBufferFlush
  repeat' first
    | with_reducible assumption
    | with_reducible refine canonOut_next ?_
    | (with_reducible refine canon_flushEntry _ ?_ _ _)
    | split
    | dsimp only
    | simp only [keep_ite, implies_true, true_or, or_true, and_self, tables_store]

theorem Store.copyLines_wf (p q : Nat) (bad : List Nat) (t : Store) (h : Memory.wf t.mem = true) :
    Memory.wf (t.copyLines p q bad).mem = true := by
  have hf : ∀ (l m : List Host.Cell), Memory.wf m = true →
      Memory.wf (l.foldl (fun m c => memPut m (c.1 - t.migSource * pageBytes + t.migDest * pageBytes) c.2) m) = true := by
    intro l
    induction l with
    | nil => exact fun _ h => h
    | cons c l ih => exact fun m h => ih _ (memPut_wf _ _ _ h)
  exact hf _ _ (swf_filter _ _ h)

theorem canon_migrateLine (e : List (Nat × EccRead)) (x : State × List Nat) (l : Nat) (hs : (x.1.keep tables).Canon) :
    ((migrateLine e x l).1.keep tables).Canon := by
  have h := canon_readMerged _ hs .migration l (eccOf e l)
  simp only [migrateLine]
  split
  · simpa only [keep_raise] using h
  · exact h

theorem canon_migrateTo (s : State) (hs : (s.keep tables).Canon) : ∀ q e, ((migrateTo q e s).keep tables).Canon := by
  intro q e
  have h (l : List Nat) (x : State × List Nat) (hx : (x.1.keep tables).Canon) :
      ((l.foldl (migrateLine e) x).1.keep tables).Canon := by
    induction l generalizing x with
    | nil => exact hx
    | cons a l ih => exact ih _ (canon_migrateLine _ _ _ hx)
  exact canon_modStore _ _ (Store.copyLines_wf _ q _) (h _ (s, []) hs)

theorem canon_flushSource (s : State) (hs : (s.keep tables).Canon) : ∀ a1, ((flushSource a1 s).keep tables).Canon := by
  intro a1
  unfold flushSource
  repeat' first
    | with_reducible assumption
    | (with_reducible refine canon_flushEntry _ ?_ _ _)
    | (with_reducible refine canon_foldl _ (fun s a hr => ?_) _ _ ?_)
    | split
    | dsimp only
    | simp only [keep_ite, implies_true, true_or, or_true, and_self, tables_store]

theorem canon_execMigrationComplete (s : State) (hs : (s.keep tables).Canon) : ∀ a1, CanonOut (execMigrationComplete a1 s) := by
  intro a1
  unfold execMigrationComplete
  repeat' first
    | with_reducible assumption
    | with_reducible refine canonOut_next ?_
    | (with_reducible refine canon_migrateTo _ ?_ _ _)
    | (with_reducible refine canon_flushSource _ ?_ _)
    | split
    | dsimp only
    | simp only [keep_ite, implies_true, true_or, or_true, and_self, keep_endMigration, tables_store]

theorem canon_execMin (s : State) (hs : (s.keep tables).Canon) : ∀ a1 a2 a3 a4, CanonOut (execMin a1 a2 a3 a4 s) := by
  intro a1 a2 a3 a4
  unfold execMin
  repeat' first
    | with_reducible assumption
    | with_reducible refine canonOut_next ?_
    | (with_reducible refine canon_lawStep _ ?_ _ _ _)
    | split
    | dsimp only
    | simp only [keep_ite, implies_true, true_or, or_true, and_self]

theorem canon_execMov (s : State) (hs : (s.keep tables).Canon) : ∀ a1 a2 a3 a4 a5, CanonOut (execMov a1 a2 a3 a4 a5 s) := by
  intro a1 a2 a3 a4 a5
  unfold execMov
  repeat' first
    | with_reducible assumption
    | with_reducible refine canonOut_next ?_
    | (with_reducible refine canon_lawStep _ ?_ _ _ _)
    | split
    | dsimp only
    | simp only [keep_ite, implies_true, true_or, or_true, and_self]

theorem canon_execMove (s : State) (hs : (s.keep tables).Canon) : ∀ a1 a2 a3, CanonOut (execMove a1 a2 a3 s) := by
  intro a1 a2 a3
  unfold execMove
  repeat' first
    | with_reducible assumption
    | with_reducible refine canonOut_next ?_
    | (with_reducible refine canon_dmaBegin _ ?_ _ _ _)
    | (with_reducible refine canon_dmaExec _ _ _ (fun o s hr => ?_) _ ?_)
    | split
    | dsimp only
    | simp only [keep_ite, implies_true, true_or, or_true, and_self, tables_dma, tables_store]

theorem canon_execMul (s : State) (hs : (s.keep tables).Canon) : ∀ a1 a2 a3 a4, CanonOut (execMul a1 a2 a3 a4 s) := by
  intro a1 a2 a3 a4
  unfold execMul
  repeat' first
    | with_reducible assumption
    | with_reducible refine canonOut_next ?_
    | (with_reducible refine canon_lawStep _ ?_ _ _ _)
    | split
    | dsimp only
    | simp only [keep_ite, implies_true, true_or, or_true, and_self]

theorem canon_execObs (s : State) (hs : (s.keep tables).Canon) : ∀ a1 a2 a3 a4, CanonOut (execObs a1 a2 a3 a4 s) := by
  intro a1 a2 a3 a4
  unfold execObs
  repeat' first
    | with_reducible assumption
    | with_reducible refine canonOut_next ?_
    | (with_reducible refine canon_lawStep _ ?_ _ _ _)
    | split
    | dsimp only
    | simp only [keep_ite, implies_true, true_or, or_true, and_self]

theorem canon_putJobCell (s : State) (hs : (s.keep tables).Canon) : ∀ j c, ((putJobCell j c s).keep tables).Canon := by
  intro j c
  unfold putJobCell
  split
  · exact canon_modOtp _ _ (fun t h => swf_sput _ _ _ h) (fun t _ h => h) hs
  · exact canon_modOtp _ _ (fun t h => swf_sput _ _ _ h) (fun t _ h => h) hs
  · exact canon_modOtp _ _ (fun t h => h) (fun t _ h => h) hs
  · exact canon_modOtp _ _ (fun t h => h) (fun t _ h => h) hs

theorem canon_otpPulseEnd (s : State) (hs : (s.keep tables).Canon) : ∀ a1, ((otpPulseEnd a1 s).keep tables).Canon := by
  intro a1
  unfold otpPulseEnd
  repeat' first
    | with_reducible assumption
    | (with_reducible refine canon_putJobCell _ ?_ _ _)
    | split
    | dsimp only
    | simp only [keep_ite, implies_true, true_or, or_true, and_self, keep_State_useFree, keep_otpGoOn, keep_otpNext, tables_otp]

theorem canon_execOtpPulseEnd (s : State) (hs : (s.keep tables).Canon) : ∀ a1, CanonOut (execOtpPulseEnd a1 s) := by
  intro a1
  unfold execOtpPulseEnd
  repeat' first
    | with_reducible assumption
    | with_reducible refine canonOut_next ?_
    | (with_reducible refine canon_otpPulseEnd _ ?_ _)
    | split
    | dsimp only
    | simp only [keep_ite, implies_true, true_or, or_true, and_self, tables_otp]

theorem swf_shadow (f : OtpCell → Word) (l : List (Nat × OtpCell)) (h : swf OtpCell.blank l = true) :
    swf 0 ((l.map fun x => (x.1, f x.2)).filter fun x => x.2 != 0) = true := by
  induction l with
  | nil => rfl
  | cons p l ih =>
    obtain ⟨k, v⟩ := p
    obtain ⟨-, h2, h3⟩ := (swf_cons k v l).mp h
    rw [List.map_cons, List.filter_cons]
    split
    · next hv =>
      refine (swf_cons _ _ _).mpr ⟨by simpa using hv, fun p hp => ?_, ih h3⟩
      obtain ⟨q, hq, rfl⟩ := List.mem_map.mp (List.mem_filter.mp hp).1
      exact h2 q hq
    · exact ih h3

theorem canon_loadShadow (s : State) (hs : (s.keep tables).Canon) : ((loadShadow s).keep tables).Canon := by
  refine canon_modOtp _ _ (fun t h => h) (fun t _ _ => ?_) hs
  exact swf_shadow _ _ ((canon_iff s).mp hs).2.1

theorem canon_execOtpShadowLoad (s : State) (hs : (s.keep tables).Canon) : CanonOut (execOtpShadowLoad s) := by
  unfold execOtpShadowLoad
  repeat' first
    | with_reducible assumption
    | with_reducible refine canonOut_next ?_
    | (with_reducible refine canon_loadShadow _ ?_)
    | split
    | dsimp only
    | simp only [keep_ite, implies_true, true_or, or_true, and_self, keep_ringOverride, keep_endStep, keep_applyTrims, keep_setOperate, keep_raise, keep_modBoot, tables_clk, tables_otp]

theorem canon_execOut (s : State) (hs : (s.keep tables).Canon) : ∀ a1 a2 a3, CanonOut (execOut a1 a2 a3 s) := by
  intro a1 a2 a3
  unfold execOut
  repeat' first
    | with_reducible assumption
    | with_reducible refine canonOut_next ?_
    | (with_reducible refine canon_lawStep _ ?_ _ _ _)
    | split
    | dsimp only
    | simp only [keep_ite, implies_true, true_or, or_true, and_self]

theorem canon_execPark (s : State) (hs : (s.keep tables).Canon) : ∀ a1 a2 a3 a4, CanonOut (execPark a1 a2 a3 a4 s) := by
  intro a1 a2 a3 a4
  unfold execPark
  repeat' first
    | with_reducible assumption
    | with_reducible refine canonOut_next ?_
    | (with_reducible refine canon_lawStep _ ?_ _ _ _)
    | split
    | dsimp only
    | simp only [keep_ite, implies_true, true_or, or_true, and_self]

theorem canon_execPi (s : State) (hs : (s.keep tables).Canon) : ∀ a1 a2 a3 a4 a5, CanonOut (execPi a1 a2 a3 a4 a5 s) := by
  intro a1 a2 a3 a4 a5
  unfold execPi
  repeat' first
    | with_reducible assumption
    | with_reducible refine canonOut_next ?_
    | (with_reducible refine canon_lawStep _ ?_ _ _ _)
    | split
    | dsimp only
    | simp only [keep_ite, implies_true, true_or, or_true, and_self]

theorem canon_execPowerReturnReset (s : State) (hs : (s.keep tables).Canon) : ∀ a1 a2, CanonOut (execPowerReturnReset a1 a2 s) := by
  intro a1 a2
  unfold execPowerReturnReset
  repeat' first
    | with_reducible assumption
    | with_reducible refine canonOut_next ?_
    | (with_reducible refine canon_powerOn _ ?_ _ _)
    | split
    | dsimp only
    | simp only [keep_ite, implies_true, true_or, or_true, and_self, tables_anch, tables_bus, tables_clk, tables_cons, tables_dma, tables_drawLim, tables_facet, tables_ist, tables_otp, tables_reg, tables_rope, tables_spBus, tables_store, tables_therm]

theorem canon_writeRamHalf (s : State) (hs : (s.keep tables).Canon) : ∀ a1 a2, ((writeRamHalf a1 a2 s).keep tables).Canon := by
  intro a1 a2
  unfold writeRamHalf
  repeat' first
    | with_reducible assumption
    | (with_reducible refine canon_putRamWord _ ?_ _ _ _)
    | split
    | dsimp only
    | simp only [keep_ite, implies_true, true_or, or_true, and_self, tables_dma]

theorem canon_writeAt (s : State) (hs : (s.keep tables).Canon) : ∀ a1 a2, ((writeAt a1 a2 s).keep tables).Canon := by
  intro a1 a2
  unfold writeAt
  repeat' first
    | with_reducible assumption
    | (with_reducible refine canon_writeRamHalf _ ?_ _ _)
    | (with_reducible refine canon_inDomain _ _ (fun s hr => ?_) _ ?_)
    | (with_reducible refine canon_ite ?_ ?_)
    | dsimp only
    | simp only [implies_true, true_or, or_true, and_self, keep_writeDma, keep_writeSp, keep_writeStore, keep_writeFlt, keep_writeScan, keep_writeWeb, keep_writeExpo, keep_writeMsix, keep_modDrawLim, keep_writeHost, keep_writeEng, keep_State_atPort, keep_writeClk, keep_writePwr, keep_writeLaw, keep_writeAux, keep_writeIst, keep_writeOtp, keep_writeStage, tables_anch, tables_bus, tables_clk, tables_dma, tables_drawLim, tables_facet, tables_ist, tables_otp, tables_reg, tables_store]

theorem canon_write32 (s : State) (hs : (s.keep tables).Canon) : ∀ a1 a2, ((write32 a1 a2 s).keep tables).Canon := by
  intro a1 a2
  unfold write32
  repeat' first
    | with_reducible assumption
    | (with_reducible refine canon_writeAt _ ?_ _ _)
    | split
    | dsimp only
    | simp only [keep_ite, implies_true, true_or, or_true, and_self, tables_anch, tables_bus, tables_clk, tables_dma, tables_drawLim, tables_facet, tables_ist, tables_otp, tables_reg, tables_store]

theorem canon_write64 (s : State) (hs : (s.keep tables).Canon) : ∀ a1 a2, ((write64 a1 a2 s).keep tables).Canon := by
  intro a1 a2
  unfold write64
  repeat' first
    | with_reducible assumption
    | (with_reducible refine canon_putRamWord _ ?_ _ _ _)
    | (with_reducible refine canon_write32 _ ?_ _ _)
    | (with_reducible refine canon_inDomain _ _ (fun s hr => ?_) _ ?_)
    | split
    | dsimp only
    | simp only [keep_ite, implies_true, true_or, or_true, and_self, tables_anch, tables_bus, tables_clk, tables_dma, tables_drawLim, tables_facet, tables_ist, tables_otp, tables_reg, tables_store]

theorem canon_writeReg (s : State) (hs : (s.keep tables).Canon) : ∀ a1 a2 a3, ((writeReg a1 a2 a3 s).keep tables).Canon := by
  intro a1 a2 a3
  unfold writeReg
  repeat' first
    | with_reducible assumption
    | (with_reducible refine canon_write64 _ ?_ _ _)
    | (with_reducible refine canon_write32 _ ?_ _ _)
    | split
    | dsimp only
    | simp only [keep_ite, implies_true, true_or, or_true, and_self, keep_unsupported, tables_anch, tables_bus, tables_clk, tables_dma, tables_drawLim, tables_facet, tables_ist, tables_otp, tables_reg, tables_store]

theorem canon_execRegisterWrite (s : State) (hs : (s.keep tables).Canon) : ∀ a1 a2 a3, CanonOut (execRegisterWrite a1 a2 a3 s) := by
  intro a1 a2 a3
  unfold execRegisterWrite
  repeat' first
    | with_reducible assumption
    | with_reducible refine canonOut_next ?_
    | (with_reducible refine canon_writeReg _ ?_ _ _ _)
    | split
    | dsimp only
    | simp only [keep_ite, implies_true, true_or, or_true, and_self, tables_anch, tables_bus, tables_clk, tables_dma, tables_drawLim, tables_facet, tables_ist, tables_otp, tables_reg, tables_store]

theorem canon_execScan (s : State) (hs : (s.keep tables).Canon) : ∀ a1 a2 a3, CanonOut (execScan a1 a2 a3 s) := by
  intro a1 a2 a3
  unfold execScan
  repeat' first
    | with_reducible assumption
    | with_reducible refine canonOut_next ?_
    | (with_reducible refine canon_dmaScan _ ?_ _ _ _ _ _)
    | (with_reducible refine canon_dmaExec _ _ _ (fun o s hr => ?_) _ ?_)
    | split
    | dsimp only
    | simp only [keep_ite, implies_true, true_or, or_true, and_self, tables_dma, tables_store]

theorem canon_scrubLine (s : State) (hs : (s.keep tables).Canon) : ∀ a1 a2, ((scrubLine a1 a2 s).keep tables).Canon := by
  intro a1 a2
  unfold scrubLine
  repeat' first
    | with_reducible assumption
    | (with_reducible refine canon_flushEntry _ ?_ _ _)
    | split
    | dsimp only
    | simp only [keep_ite, implies_true, true_or, or_true, and_self, keep_poisonLine, keep_corrected, keep_modStore, keep_raise, keep_uncorrected, tables_store]

theorem canon_scrubBurst (s : State) (hs : (s.keep tables).Canon) : ∀ a1, ((scrubBurst a1 s).keep tables).Canon := by
  intro a1
  unfold scrubBurst
  repeat' first
    | with_reducible assumption
    | (with_reducible refine canon_scrubLine _ ?_ _ _)
    | split
    | dsimp only
    | simp only [keep_ite, implies_true, true_or, or_true, and_self, keep_modStore, keep_scrubLap, keep_scrubNext, tables_store]

theorem canon_execScrubBurst (s : State) (hs : (s.keep tables).Canon) : ∀ a1, CanonOut (execScrubBurst a1 s) := by
  intro a1
  unfold execScrubBurst
  repeat' first
    | with_reducible assumption
    | with_reducible refine canonOut_next ?_
    | (with_reducible refine canon_scrubBurst _ ?_ _)
    | split
    | dsimp only
    | simp only [keep_ite, implies_true, true_or, or_true, and_self, tables_store]

theorem canon_loadLawData (s : State) (hs : (s.keep tables).Canon) : ∀ a1, ((loadLawData a1 s).keep tables).Canon := by
  intro a1
  unfold loadLawData
  repeat' first
    | with_reducible assumption
    | (with_reducible refine canon_dputAll _ ?_ _ _)
    | (with_reducible refine canon_foldl _ (fun s a hr => ?_) _ _ ?_)
    | split
    | dsimp only
    | simp only [keep_ite, implies_true, true_or, or_true, and_self]

theorem canon_loadUnit (s : State) (hs : (s.keep tables).Canon) : ∀ a1 a2, ((loadUnit a1 a2 s).keep tables).Canon := by
  intro a1 a2
  unfold loadUnit
  repeat' first
    | with_reducible assumption
    | (with_reducible refine canon_loadLawData _ ?_ _)
    | split
    | dsimp only
    | simp only [keep_ite, implies_true, true_or, or_true, and_self, keep_modEng, keep_modExpo, keep_modAux, keep_raise, keep_modLaw, keep_modHost, keep_modAnch, tables_anch]

theorem canon_loadSection (s : State) (hs : (s.keep tables).Canon) : ∀ a1 a2, ((loadSection a1 a2 s).keep tables).Canon := by
  intro a1 a2
  unfold loadSection
  repeat' first
    | with_reducible assumption
    | (with_reducible refine canon_loadUnit _ ?_ _ _)
    | (with_reducible refine canon_foldl _ (fun s a hr => ?_) _ _ ?_)
    | split
    | dsimp only
    | simp only [keep_ite, implies_true, true_or, or_true, and_self, keep_setLoad, keep_modBoot, tables_anch]

theorem canon_takeSection (s : State) (hs : (s.keep tables).Canon) : ∀ a1 a2 a3, ((takeSection a1 a2 a3 s).keep tables).Canon := by
  intro a1 a2 a3
  unfold takeSection
  repeat' first
    | with_reducible assumption
    | (with_reducible refine canon_loadSection _ ?_ _ _)
    | (with_reducible refine canon_imageFail _ ?_ _ _ _)
    | (with_reducible refine canon_endStep7 _ ?_)
    | split
    | dsimp only
    | simp only [keep_ite, implies_true, true_or, or_true, and_self, keep_modBoot, tables_anch, tables_bus, tables_clk, tables_cons, tables_drawLim, tables_rope, tables_spBus, tables_store]

theorem canon_execSectionLoad (s : State) (hs : (s.keep tables).Canon) : ∀ a1 a2 a3, CanonOut (execSectionLoad a1 a2 a3 s) := by
  intro a1 a2 a3
  unfold execSectionLoad
  repeat' first
    | with_reducible assumption
    | with_reducible refine canonOut_next ?_
    | (with_reducible refine canon_takeSection _ ?_ _ _ _)
    | split
    | dsimp only
    | simp only [keep_ite, implies_true, true_or, or_true, and_self, tables_anch, tables_bus, tables_clk, tables_cons, tables_drawLim, tables_rope, tables_spBus, tables_store]

theorem canon_execSel (s : State) (hs : (s.keep tables).Canon) : ∀ a1 a2 a3 a4, CanonOut (execSel a1 a2 a3 a4 s) := by
  intro a1 a2 a3 a4
  unfold execSel
  repeat' first
    | with_reducible assumption
    | with_reducible refine canonOut_next ?_
    | (with_reducible refine canon_lawStep _ ?_ _ _ _)
    | split
    | dsimp only
    | simp only [keep_ite, implies_true, true_or, or_true, and_self]

theorem canon_execShare (s : State) (hs : (s.keep tables).Canon) : ∀ a1 a2 a3 a4, CanonOut (execShare a1 a2 a3 a4 s) := by
  intro a1 a2 a3 a4
  unfold execShare
  repeat' first
    | with_reducible assumption
    | with_reducible refine canonOut_next ?_
    | (with_reducible refine canon_lawStep _ ?_ _ _ _)
    | split
    | dsimp only
    | simp only [keep_ite, implies_true, true_or, or_true, and_self]

theorem canon_execSignatureVerification (s : State) (hs : (s.keep tables).Canon) : ∀ a1, CanonOut (execSignatureVerification a1 s) := by
  intro a1
  unfold execSignatureVerification
  repeat' first
    | with_reducible assumption
    | with_reducible refine canonOut_next ?_
    | (with_reducible refine canon_imageFail _ ?_ _ _ _)
    | (with_reducible refine canon_startStep7 _ ?_)
    | split
    | dsimp only
    | simp only [keep_ite, implies_true, true_or, or_true, and_self, keep_endStep, keep_modBoot, tables_anch, tables_bus, tables_clk, tables_drawLim, tables_rope, tables_spBus, tables_store]

theorem canon_execSincos (s : State) (hs : (s.keep tables).Canon) : ∀ a1 a2 a3, CanonOut (execSincos a1 a2 a3 s) := by
  intro a1 a2 a3
  unfold execSincos
  repeat' first
    | with_reducible assumption
    | with_reducible refine canonOut_next ?_
    | (with_reducible refine canon_lawStep _ ?_ _ _ _)
    | split
    | dsimp only
    | simp only [keep_ite, implies_true, true_or, or_true, and_self]

theorem canon_execSlew (s : State) (hs : (s.keep tables).Canon) : ∀ a1 a2 a3 a4 a5, CanonOut (execSlew a1 a2 a3 a4 a5 s) := by
  intro a1 a2 a3 a4 a5
  unfold execSlew
  repeat' first
    | with_reducible assumption
    | with_reducible refine canonOut_next ?_
    | (with_reducible refine canon_lawStep _ ?_ _ _ _)
    | split
    | dsimp only
    | simp only [keep_ite, implies_true, true_or, or_true, and_self]

theorem canon_execSlotHeaderRead (s : State) (hs : (s.keep tables).Canon) : ∀ a1 a2, CanonOut (execSlotHeaderRead a1 a2 s) := by
  intro a1 a2
  unfold execSlotHeaderRead
  repeat' first
    | with_reducible assumption
    | with_reducible refine canonOut_next ?_
    | (with_reducible refine canon_startStep6 _ ?_)
    | split
    | dsimp only
    | simp only [keep_ite, implies_true, true_or, or_true, and_self, keep_bootFail, keep_endStep, keep_modBoot, tables_anch, tables_bus, tables_clk, tables_drawLim, tables_rope, tables_spBus, tables_store]

theorem canon_execSt (s : State) (hs : (s.keep tables).Canon) : ∀ a1 a2 a3 a4, CanonOut (execSt a1 a2 a3 a4 s) := by
  intro a1 a2 a3 a4
  unfold execSt
  repeat' first
    | with_reducible assumption
    | with_reducible refine canonOut_next ?_
    | (with_reducible refine canon_lawStep _ ?_ _ _ _)
    | split
    | dsimp only
    | simp only [keep_ite, implies_true, true_or, or_true, and_self]

theorem canon_execSub (s : State) (hs : (s.keep tables).Canon) : ∀ a1 a2 a3 a4, CanonOut (execSub a1 a2 a3 a4 s) := by
  intro a1 a2 a3 a4
  unfold execSub
  repeat' first
    | with_reducible assumption
    | with_reducible refine canonOut_next ?_
    | (with_reducible refine canon_lawStep _ ?_ _ _ _)
    | split
    | dsimp only
    | simp only [keep_ite, implies_true, true_or, or_true, and_self]

theorem canon_execSvm (s : State) (hs : (s.keep tables).Canon) : ∀ a1 a2 a3 a4, CanonOut (execSvm a1 a2 a3 a4 s) := by
  intro a1 a2 a3 a4
  unfold execSvm
  repeat' first
    | with_reducible assumption
    | with_reducible refine canonOut_next ?_
    | (with_reducible refine canon_lawStep _ ?_ _ _ _)
    | split
    | dsimp only
    | simp only [keep_ite, implies_true, true_or, or_true, and_self]

end Sys2Proof.Machine
end

