-- ==== Sys2Proof/Tests/Slice0.lean ====
section
/-! SUPPORT. Small tests: states and operands that meet the hypotheses of each statement, terms that WellFormed refuses, and
words that decode as the manual's tables say. -/

set_option Elab.async false

namespace Sys2Proof.Tests

open Sys2Proof.Machine Sys2Proof.Bits

/-- `n` bytes, 0 but where the list says otherwise. -/
def bytes (n : Nat) (l : List (Nat × Nat)) : List Byte :=
  (List.range n).map fun i => ((l.find? fun x => x.1 = i).map fun x => BitVec.ofNat 8 x.2).getD 0

/-- A queue pair in use. -/
def pair8 : QPair := { QPair.reset with enable := true, size := 7 }

/-- IDLE with every domain operating, the link trained and every queue pair enabled. -/
def sIdle : State :=
  { State.reset with
    eng := { Engine.reset with state := .idle, time := 1000 }, boot := { Boot.reset with linkTrained := true },
    pwr := { Power.reset with domain := each 10 2 }, host := { HostIf.reset with q := each 8 pair8, msixMask := 0 } }

/-- The same in another engine state. -/
def sIn (st : EngState) : State := { sIdle with eng := { sIdle.eng with state := st } }

/-- A header that passes the common checks. -/
def hdr (job : Nat) : MsgHdr := { q := 0, tag := 5, job := job, clean := true }

/-- A completion that waits. -/
def waiting1 : Completion := { tag := 1, status := .ok, rep := false, more := false, event := false, result := 0, time := 0 }

def sDisabled : State := { sIdle with host := { sIdle.host with q := each 8 QPair.reset } }

theorem witness_HostQueueWrites :
    barOpen sIdle = true ∧ barOpen sDisabled = true ∧ collectorOn sIdle = true ∧ sDisabled.host.q[(0 : Fin 8)].enable = false ∧
    sIdle.host.q[(0 : Fin 8)].enable = true ∧ field (7#32).toNat 11 0 ≤ sIdle.host.q[(0 : Fin 8)].size ∧
    sIdle.host.q[(0 : Fin 8)].size < field (8#32).toNat 11 0 ∧ bit (0x71#32).toNat 0 = true ∧ field (0x71#32).toNat 15 4 ≠ 0 ∧
    bit (1#32).toNat 0 = true ∧ field (1#32).toNat 15 4 = 0 ∧ bit (0x70#32).toNat 0 = false ∧ sIdle.jobs.frames = [] := by
  decide

/-- An entry waits in every queue. -/
def sEntries : State := { sIdle with host := { sIdle.host with q := each 8 { pair8 with sqTail := 1 } } }

/-- The same with a completion that waits in every queue. -/
def sNoRoom : State := { sEntries with host := { sEntries.host with q := each 8 { pair8 with sqTail := 1, waiting := [waiting1] } } }

/-- The same with a message of the queue running. -/
def sFence : State := { sEntries with host := { sEntries.host with q := each 8 { pair8 with sqTail := 1, running := 1 } } }

def sD3hot : State := { sEntries with host := { sEntries.host with d3hot := true } }

theorem witness_EntryTakeUpServesItsQueue :
    takeUpDue sEntries 0 = true ∧ entryRoom sEntries 0 (bytes 64 [(0, 0x99)]) = true ∧
    entryMessage 0 (bytes 64 [(0, 0x99)]) = none ∧ hasRoom 0 sEntries = true ∧ hasRoom 0 sNoRoom = false ∧ takeUpDue sNoRoom 0 = true ∧
    entryRoom sNoRoom 0 (bytes 64 [(0, 0x99)]) = true ∧ (entryMessage 0 (bytes 64 [(0, 0x02), (32, 1)])).isSome = true ∧
    entryRoom sEntries 0 (bytes 64 [(0, 0x02), (32, 1)]) = true ∧ entryRoom sEntries 0 (bytes 64 [(0, 1)]) = true ∧
    byteAt (bytes 64 [(0, 1)]) 0 = 0x01 ∧ takeUpDue sFence 0 = true ∧ entryRoom sFence 0 (bytes 64 [(0, 1), (1, 1)]) = false ∧
    collectorOn sEntries = true ∧ HostRead.error ≠ .ok ∧ sD3hot.host.d3hot = true := by
  decide

/-- A completion waits, its interrupt is owed, and an event was dropped. -/
def sWaiting : State :=
  { sIdle with host := { sIdle.host with q := each 8 { pair8 with coalesce := 3, irqEn := true, unsignalled := true, waiting := [waiting1] },
                                         evt := { cq := 1, enable := true, mask := 0xFF, lost := 0, fifo := [waiting1], dropped := 0 } } }

def sEvents (fifo : List Completion) (dropped : Nat) : State :=
  { sIdle with host := { sIdle.host with
                         evt := { cq := 1, enable := true, mask := 0xFF, lost := 0, fifo := fifo, dropped := dropped } } }

theorem witness_CompletionsAndEventsAreWritten :
    sWaiting.host.q[(0 : Fin 8)].waiting = waiting1 :: [] ∧ sWaiting.host.q[(0 : Fin 8)].enable = true ∧
    0 < sWaiting.host.q[(0 : Fin 8)].freeSlots ∧ sWaiting.host.d3hot = false ∧ hostUp sWaiting = true ∧
    sWaiting.host.q[(0 : Fin 8)].unsignalled = true ∧ sWaiting.host.q[(0 : Fin 8)].irqEn = true ∧
    sWaiting.host.msixMask.getLsbD (sWaiting.host.q[(0 : Fin 8)].vector % 64) = false ∧ eventFirst 0 sWaiting = false ∧
    (sEvents [waiting1] 0).host.evt.enable = true ∧ slotFree (sEvents [waiting1] 0).host.evt.cq (sEvents [waiting1] 0) = true ∧
    (sEvents [waiting1] 0).host.q[(sEvents [waiting1] 0).host.evt.cq].waiting = [] ∧
    (sEvents [waiting1] 0).host.evt.dropped = 0 ∧ (sEvents [waiting1] 0).host.evt.fifo = [waiting1] ∧
    slotFree (sEvents [] 5).host.evt.cq (sEvents [] 5) = true ∧ (sEvents [] 5).host.evt.enable = true ∧
    (sEvents [] 5).host.q[(sEvents [] 5).host.evt.cq].waiting = [] ∧ (sEvents [] 5).host.evt.mask.getLsbD 6 = true ∧
    0 < (sEvents [] 5).host.evt.dropped := by
  decide

theorem witness_HostLinkResetAndPower : hostUp sIdle = true ∧ collectorOn sIdle = true ∧ barOpen sIdle = true ∧
    sIdle.jobs.frames = [] ∧ codeOf sIdle 0x1F1 0 < 2 := by decide

def sArming : State :=
  { sIdle with eng := { sIdle.eng with target := some .armed, setReq := some { q := 0, tag := 9, epoch := 0 } } }

theorem takes_hdr (job : Nat) (s : State) (h : queueServes 0 s = true ∧ hasRoom 0 s = true) : s.takes (hdr job) :=
  ⟨h.1, rfl, show (5 : Nat) ≠ 0xFFFF by decide, h.2⟩

theorem witness_ControlMessages :
    sIdle.takes (hdr 0) ∧ (hdr 0).job = 0 ∧ inAny sIdle = true ∧ sIdle.eng.state = .idle ∧ sIdle.eng.setReq = none ∧
    sIdle.law.prgBad = false ∧ sIdle.law.stop = false ∧ sArming.eng.state = .idle ∧ sArming.eng.target = some .armed ∧
    sArming.eng.setReq = some { q := 0, tag := 9, epoch := 0 } ∧ allLocked sArming = true :=
  ⟨takes_hdr 0 _ (by decide), by decide⟩

/-- Two results are ready, one of them returned, and OTP region 1 is valid. -/
def sResults : State :=
  { sIdle with
    jobs := { Jobs.reset with resIdent := some { bytes := [1, 2, 3], returned := false },
                              resLog := some { bytes := [4], returned := true } },
    otp := { Otp.reset with valid := 0xFFFF } }

/-- A TDC entry within its limits: its first 24 bytes, and 128 equal widths. -/
def tdcHead : List Byte := List.replicate 16 0xFF ++ List.replicate 4 0 ++ toLE 2 10000 ++ toLE 2 0
def goodTdc : List Byte := tdcHead ++ List.replicate 256 0x1E

/-- What a calibration record of serial 0 within its limits holds before its CRC. -/
def goodItems : List Byte :=
  toLE 2 1 ++ toLE 2 2296 ++ toLE 8 0 ++ toLE 4 0 ++ (List.range 8).flatMap (fun _ => goodTdc) ++ List.replicate 36 0

theorem witness_ResultAndLogMessages :
    sResults.takes (hdr 0) ∧ (hdr 0).job = 0 ∧ inAny sResults = true ∧
    sResults.jobs.resIdent = some { bytes := [1, 2, 3], returned := false } ∧ [(1 : Byte), 2, 3].length ≤ 3 ∧
    sResults.jobs.resLog = some { bytes := [4], returned := true } ∧ logMax 8 ≤ 1024 ∧ logMax 1 ≤ 4096 ∧
    sResults.eng.state = .idle :=
  ⟨takes_hdr 0 _ (by decide), by decide⟩

set_option maxRecDepth 100000 in
theorem goodItems_length : goodItems.length = 2292 := by decide +kernel

theorem goodItems_intact : calibIntact (sealCalib goodItems) = true :=
  calibIntact_sealCalib goodItems goodItems_length (by decide +kernel) (by decide +kernel)

set_option maxRecDepth 100000 in
theorem goodItems_tdc : ∀ i : Fin 8, calibItem (sealCalib goodItems) i = goodTdc := by decide +kernel

set_option maxRecDepth 100000 in
theorem goodItems_rest : ∀ i : Fin 9, calibItem (sealCalib goodItems) (8 + i) = [0, 0, 0, 0] := by decide +kernel

theorem goodTdc_byte (k : Nat) (h : k < 256) : byteAt goodTdc (24 + k) = 0x1E := by
  have := Bits.byteAt_append_right tdcHead (List.replicate 256 0x1E) k
  rw [show tdcHead.length = 24 by decide] at this
  rw [goodTdc, this, byteAt, List.getD_eq_getElem?_getD, List.getElem?_replicate, if_pos h]
  rfl

theorem goodTdc_width (k : Nat) (h : k < 128) : u16 goodTdc (24 + 2 * k) = 7710 := by
  have h0 := goodTdc_byte (2 * k) (by omega)
  have h1 := goodTdc_byte (2 * k + 1) (by omega)
  show byteAt goodTdc (24 + 2 * k) + 256 * (byteAt goodTdc (24 + 2 * k + 1) + 256 * 0) = 7710
  rw [h0, Nat.add_assoc, h1]

theorem goodTdc_widths : ((List.range 128).map fun k => u16 goodTdc (24 + 2 * k)) = List.replicate 128 7710 :=
  List.eq_replicate_iff.mpr ⟨by simp, fun _ hb => by
    obtain ⟨k, hk, rfl⟩ := List.mem_map.mp hb
    exact goodTdc_width k (List.mem_range.mp hk)⟩

theorem goodTdc_total : (List.replicate 128 7710).foldl (· + ·) 0 = 986880 := by decide +kernel

theorem tdcOk_of (e : List Byte) (ws : List Nat) (n : Nat) (hw : ((List.range 128).map fun k => u16 e (24 + 2 * k)) = ws)
    (hn : ws.foldl (· + ·) 0 = n) (h : (popCount 160 (le e 0 20) = 128 && inR (u16 e 20) 9500 10500 && decide (u16 e 22 < 512)) = true)
    (ha : ws.all (fun w => decide (n ≤ 256 * w) && decide (256 * w ≤ 3 * n)) = true) : tdcOk e = true := by
  subst hw
  subst hn
  exact Bool.and_eq_true_iff.mpr ⟨h, ha⟩

theorem goodTdc_ok : tdcOk goodTdc = true :=
  tdcOk_of _ _ _ goodTdc_widths goodTdc_total (by decide +kernel) (by decide +kernel)

theorem goodItems_limit (i : Nat) (h : i < 17) :
    (if i < 8 then tdcOk (calibItem (sealCalib goodItems) i) else if i < 16 then isenseOk (calibItem (sealCalib goodItems) i)
      else trefOk (calibItem (sealCalib goodItems) i)) = true := by
  by_cases h8 : i < 8
  · rw [if_pos h8, goodItems_tdc ⟨i, h8⟩]
    exact goodTdc_ok
  · have := goodItems_rest ⟨i - 8, by omega⟩
    rw [show 8 + (i - 8) = i by omega] at this
    rw [if_neg h8, this]
    split <;> decide

theorem witness_ResultAndLogMessages_record :
    calibIntact (sealCalib goodItems) = true ∧ calibMine sResults (sealCalib goodItems) = true ∧
    calibInLimits (sealCalib goodItems) = true :=
  ⟨goodItems_intact, by decide +kernel, List.all_eq_true.mpr fun i hi => goodItems_limit i (List.mem_range.mp hi)⟩

def sSafe : State := sIn .safe

/-- SAFE with STO active. -/
def sSafeHeld : State := { sSafe with flt := { Faults.reset with sto := Pair.reset } }
def sSafeFree : State := { sSafe with flt := { Faults.reset with sto := Pair.normal, estop := Pair.normal } }
def sPulse : State := { sIdle with flt := { Faults.reset with pinLow := true, pinPulse := true } }

set_option maxRecDepth 100000 in
theorem witness_FaultClearMessage :
    (sIdle.takes (hdr 0) ∧ sSafeHeld.takes (hdr 0) ∧ sSafeFree.takes (hdr 0) ∧ sPulse.takes (hdr 0)) ∧ inAny sIdle = true ∧
    sIdle.eng.state ≠ .safe ∧ tickSources sIdle = [] ∧ (sIdle.flt.first.any fun f => f.tick = sIdle.now) = false ∧
    sSafeHeld.eng.state = .safe ∧ mayLeaveSafe sSafeHeld = false ∧ sSafeFree.eng.state = .safe ∧
    mayLeaveSafe sSafeFree = true ∧ sSafeFree.eng.bootFail = false ∧ sIdle.flt.pinPulse = false ∧ sPulse.flt.pinPulse = true :=
  ⟨⟨takes_hdr 0 _ (by decide), takes_hdr 0 _ (by decide), takes_hdr 0 _ (by decide), takes_hdr 0 _ (by decide)⟩, by decide⟩

/-- A small image: one last of one line of 64 pixels, station 0 enabled. -/
def imgPrint : List Section :=
  [{ ty := 1, bytes := bytes 8 [(0, 1)] }, { ty := 10, bytes := bytes 100 [(0, 1), (64, 1), (68, 64)] }]

/-- A job that prints on station 0. -/
def job1 : Job := newJob (hdr 1) 0 1 100 5

/-- A raw frame of job 1 in transfer: its station table and one line. -/
def rawData : List Byte := toLE 4 64 ++ toLE 4 32 ++ List.replicate 56 0 ++ List.replicate 32 0x21

def rawFrame : Frame :=
  { entry := 0, job := 1, ref := { q := 0, tag := 3, epoch := 0 }, raw := true, src := 0, len := 96, rep := 2, taken := 2, base := none,
    off := 0, size := 112, committed := false, first := 0, started := 0, ended := 0, spoiled := 0, streams := [] }

def sJob : State :=
  { sIdle with boot := { sIdle.boot with sections := imgPrint }, jobs := { Jobs.reset with jobs := [job1] } }

def sFrame : State :=
  { sJob with jobs := { sJob.jobs with jobs := [{ job1 with pages := [(0, 0)] }], frames := [rawFrame], nextEntry := 1 }
              host := { sJob.host with cmp := (each 2 none).set 0 (some (.inr 0)) } }

theorem witness_JobMessages :
    (sJob.takes (hdr 1) ∧ sJob.takes (hdr 2)) ∧ inOpen sJob = true ∧ (hdr 2).job ≠ 0 ∧ sJob.job? 2 = none ∧
    jobOpenRange 0 1 100 5 sJob = true ∧ sJob.jobs.jobs.length < 16 ∧ sJob.job? 1 = some job1 ∧
    framePutRange 64 96 2 = true ∧ decide78 sJob job1 false 96 0xFFFFFFFF 100 32 = .ok ∧
    decide78 sJob job1 true 96 0xFFFFFFFF 100 32 = .ok ∧ job1.closed = false ∧
    (sFrame.jobs.frames.any fun f => f.job = (hdr 1).job && !f.committed) = true :=
  ⟨⟨takes_hdr 1 _ (by decide), takes_hdr 2 _ (by decide)⟩, by decide⟩

theorem witness_JobMessages_commit :
    sFrame.job? 1 = some { job1 with pages := [(0, 0)] } ∧ transferOf sFrame 1 = some rawFrame ∧ rawData.length = rawFrame.len ∧
    (measure sFrame { job1 with pages := [(0, 0)] } rawFrame rawData).status = .ok := by
  decide +kernel

/-- ARMED with a job, and a suspended run of it or none. -/
def sArmed (suspended : Bool) : State :=
  { sJob with eng := { sJob.eng with state := .armed },
              run := { Run.reset with suspended := suspended, job := 1, vAdm := 100, speed := 60, accel := 100, frames := 3,
                                      stretch := 3, started := 1 }
              expo := each 8 { Expo.reset with linkUp := true } }

def sRun : State :=
  { sArmed false with eng := { sJob.eng with state := .run },
                      run := { (sArmed false).run with active := true, stations := 1 } }

/-- A run message waits for its entry. -/
def sEntering (resume : Bool) : State :=
  { sArmed resume with host := { sJob.host with runWait := some { ref := { q := 0, tag := 4, epoch := 0 }, resume := resume, job := 1,
                                                                  frames := 3, speed := 60, accel := 100 } } }

set_option maxRecDepth 100000 in
theorem witness_RunMessages :
    ((sArmed false).takes (hdr 1) ∧ (sArmed true).takes (hdr 1) ∧ sRun.takes (hdr 1)) ∧ (sArmed false).eng.state = .armed ∧
    (sArmed false).job? 1 = some job1 ∧ runStartRange (hdr 1) 3 60 100 (sArmed false) = true ∧
    (sArmed false).host.runWait = none ∧ (sArmed false).run.suspended = false ∧
    runReady job1.stations (sArmed false) = true ∧ (sArmed true).run.suspended = true ∧ jobRun (hdr 1) (sArmed true) = true ∧
    runReady (sArmed true).run.stations (sArmed true) = true ∧
    speedRange (sArmed true) (sArmed true).run.vAdm (keep0 0 (sArmed true).run.speed) (keep0 0 (sArmed true).run.accel) = true ∧
    sRun.eng.state = .run ∧ jobRun (hdr 1) sRun = true ∧ groupMember sRun = false ∧ speedRange sRun sRun.run.vAdm 70 100 = true ∧
    modifyReaches sRun 100 = true ∧ sRun.img.group = none ∧ sRun.anch.still = false ∧ (sArmed true).host.evt.enable = false :=
  ⟨⟨takes_hdr 1 _ (by decide), takes_hdr 1 _ (by decide), takes_hdr 1 _ (by decide)⟩, by decide⟩

set_option maxRecDepth 100000 in
theorem witness_RunMessages_entry : ∀ b : Bool,
    (sEntering b).job? 1 = some job1 ∧ (sEntering b).host.runWait.isSome = true ∧ entryBands (sEntering b) job1 = true ∧
    (sEntering b).img.group = none ∧ ∀ w ∈ (sEntering b).host.runWait, w.resume = b ∧ w.job = 1 ∧
      waitStale w (sEntering b) = false ∧ entryReady w job1 (sEntering b) = true := by
  decide

set_option maxRecDepth 100000
def sParam : State := { sIdle with host := { sIdle.host with
                                     paramWait := some { ref := { q := 0, tag := 1, epoch := 0 }, space := 0, index := 4, value := 0, due := 1 } } }

/-- A word of the data RAM that could not be read. -/
def sBadWord : State := { sIdle with law := { sIdle.law with data := [(7, { v := 0, stale := false, bad := true })] } }

theorem witness_ParamMessages :
    (sIdle.takes (hdr 0) ∧ sParam.takes (hdr 0) ∧ sBadWord.takes (hdr 0)) ∧ (hdr 0).job = 0 ∧ inParamSet sIdle = true ∧ sIdle.host.paramWait = none ∧
    paramRange 0 32767 = true ∧ paramStatus sIdle 0 32767 0x3F800000 = .ok ∧ sParam.host.paramWait ≠ none ∧
    (dget sIdle 32767).bad = false ∧ (dget sBadWord 7).bad = true ∧ inParamSet sBadWord = true ∧ collectorOn sBadWord = true :=
  ⟨⟨takes_hdr 0 _ (by decide), takes_hdr 0 _ (by decide), takes_hdr 0 _ (by decide)⟩, by decide⟩

def svcF : SvcFields :=
  { src := 0, srcLen := 512, dst := 4096, dstLen := 4096, width := 1024, noGrow := false, overlay := false, firstLine := 0 }

def sService : State :=
  { sIdle with host := { sIdle.host with cmp := each 2 (some (.inl (svcOf { q := 0, tag := 1, epoch := 0 } svcF))),
                                         dec := some (svcOf { q := 0, tag := 1, epoch := 0 } svcF) } }

theorem witness_CompressionServices :
    sIdle.takes (hdr 0) ∧ (hdr 0).job = 0 ∧ inAny sIdle = true ∧ compressRange svcF = true ∧ sIdle.host.cmp[(0 : Fin 2)] = none ∧
    sIdle.host.cmpWait = [] ∧ decompressRange svcF = true ∧ sIdle.host.dec = none ∧ sIdle.host.decWait = [] ∧
    sService.host.cmp[(1 : Fin 2)] = some (.inl (svcOf { q := 0, tag := 1, epoch := 0 } svcF)) ∧ sService.host.cmpWait = [] ∧
    (List.replicate 512 (0 : Byte)).length = svcF.srcLen ∧
    sService.host.dec = some (svcOf { q := 0, tag := 1, epoch := 0 } svcF) ∧ sService.host.decWait = [] ∧
    (svcOf { q := 0, tag := 1, epoch := 0 } svcF).srcLen = 512 ∧
    (let v := svcOf { q := 0, tag := 1, epoch := 0 } svcF
     let z := decompressBlocks v.width v.dstLen v.overlay 512 v.firstLine (List.replicate v.width 0) (List.replicate 512 0) SvcSum.zero
     z.2.1 ≠ 0x0C) :=
  ⟨takes_hdr 0 _ (by decide), by decide⟩

/-- Every pair and interlock normal. -/
def sClosed : State :=
  { sIdle with flt := { Faults.reset with sto := Pair.normal, estop := Pair.normal },
               il := { Interlocks.reset with cover := each 8 false, web := false, jam := false } }

def sClosedIn (st : EngState) : State := { sClosed with eng := { sClosed.eng with state := st } }

theorem witness_SafetyPairs :
    collectorOn sClosed = true ∧ collectorOn (sClosedIn .run) = true ∧ sClosed.flt.active.has 0x000 = false ∧
    sClosed.eng.state ≠ .down ∧ sClosed.flt.sto.active = false ∧ sClosed.flt.active.has 0x007 = false ∧
    sClosed.eng.state = .idle ∧ (sClosedIn .run).eng.state = .run ∧ (sClosedIn .run).flt.active.has 0x007 = false ∧
    sClosed.flt.active.has 0x070 = false ∧ sClosed.stage[(0 : Fin 8)].pair.wire = false ∧
    sClosed.flt.active.has (0x070 + 16 * 7) = false ∧ sClosed.flt.sto.t = false ∧ sClosed.flt.sto.c = true := by
  decide

/-- Both lines of STO, and of every FLT pair, at one level. -/
def sLevel : State :=
  { sIdle with flt := { Faults.reset with sto := { Pair.normal with t := true } },
               stage := each 8 { StageLink.reset with pair := { Pair.normal with t := true } } }

theorem witness_SafetyPairs_wire :
    collectorOn sLevel = true ∧ sLevel.flt.sto.t = sLevel.flt.sto.c ∧ sLevel.flt.active.has 0x000 = false ∧
    sLevel.eng.state ≠ .down ∧ sLevel.flt.active.has 0x071 = false ∧
    sLevel.stage[(7 : Fin 8)].pair.t = sLevel.stage[(7 : Fin 8)].pair.c := by
  decide

/-- The interlocks have been closed for 10 ms. -/
def sClosedLong : State := { sClosed with eng := { sClosed.eng with time := 1000000, sincePor := 1000000 } }

theorem witness_InterlocksAndLaserEnables :
    collectorOn sClosed = true ∧ (∀ n : Fin 8, sClosed.flt.active.has (interlockSource (.cover n)) = false) ∧
    sClosed.flt.active.has (interlockSource .web) = false ∧ sClosed.il.cover[(3 : Fin 8)] = false ∧ sClosed.il.web = false ∧
    sClosed.il.jam = false ∧ laserPermitted sClosed = true ∧ sClosed.il.lsr[(3 : Fin 8)] = false ∧
    sIdle.il.cover[(3 : Fin 8)] = true ∧ sIdle.il.web = true ∧ gateClosed sClosedLong 3 = true ∧ laserPermitted sClosedLong = true ∧
    sClosedLong.il.lsr[(3 : Fin 8)] = false ∧ gateClosed sClosed 3 = false ∧ laserPermitted (sClosedIn .safe) = false := by
  decide

/-- The stations' domain is off. -/
def sNoStation : State := { sIdle with pwr := { sIdle.pwr with domain := (each 10 2).set 5 0 } }

theorem witness_RegisterWrites :
    regOpen 1 sIdle = true ∧ regOpen 1 (sIn .armed) = true ∧ sIdle.eng.state = .idle ∧ (sIn .armed).eng.state ≠ .idle ∧
    0x10000 ≤ (0x13FFC#20).toNat ∧ (0x13FFC#20).toNat < 0x14000 ∧ (0x13FFC#20).toNat % 4 = 0 ∧
    accessOk (0x00002#20).toNat 4 = false ∧ accessOk (0x00000#20).toNat 2 = false ∧ (∀ b < 32, setThisTick sIdle 8 b = false) ∧ sIdle.w1c.bits = [] ∧ sIdle.host.latch = [] ∧
    (∀ b ∈ readBlocks, inR 0x30000 b.1 b.2.1 = false) ∧ reg64 0x00010 = true ∧ barOpen sIdle = true ∧ regOpen 1 sNoStation = true ∧
    sNoStation.host.latch = [] ∧ regOpen 5 sNoStation = false ∧ (∃ b ∈ readBlocks, inR 0x05000 b.1 b.2.1 = true ∧ b.2.2.1 = 5) ∧ sIdle.eng.irqEn = false ∧
    (0x141#32).getLsbD 6 = true ∧ (0x141#32).getLsbD 8 = true ∧ sIdle.host.msixMask.getLsbD ((0x141#32).toNat % 64) = false ∧
    sIdle.eng.irqTick ≠ some sIdle.now ∧ sIdle.eng.evStateChg = false ∧ sIdle.eng.evArmTmo = false ∧ sIdle.eng.evStopDone = false := by
  decide

/-- ENG_EVENT.STATE_CHG reads 1. -/
def sEvent : State := { sIdle with eng := { sIdle.eng with evStateChg := true } }

theorem witness_RegisterWrites_event : regOpen 1 sEvent = true ∧ sEvent.eng.irqEn = false ∧ sEvent.eng.evStateChg = true := by
  decide

/-- Back-lane frames with FWD_LOCK: of good and of failing CRC. -/
def backFrameBody : List Byte := [0, 3, 0, 0, 0, 0, 0, 0, 0, 0, 0, 0, 0, 0]
def backFrameGood : List Byte := backFrameBody ++ toLE 2 (Poly.ccitt.crc backFrameBody)
def backFrameBad : List Byte := backFrameBody ++ toLE 2 (Poly.ccitt.crc backFrameBody + 1)

/-- Station 0 enabled, its link up or down, `bad` frames discarded in a row. -/
def sExpo (up : Bool) (bad : Nat) : State :=
  { sIdle with boot := { sIdle.boot with sections := imgPrint }, expo := each 8 { Expo.reset with linkUp := up, bad := bad } }

theorem witness_ExposureLinkFrames :
    (sExpo true 0).img.stationEn 0 = true ∧ backFrameGood.length = 16 ∧
    u16 backFrameGood 14 = Poly.ccitt.crc (backFrameGood.take 14) ∧ byteAt backFrameGood 1 % 16 / 2 = 1 ∧
    byteAt backFrameGood 4 = (sExpo true 0).expo[(0 : Fin 8)].lastCrc ∧ (sExpo true 0).expo[(0 : Fin 8)].lastCrc < 256 ∧
    u16 backFrameBad 14 ≠ Poly.ccitt.crc (backFrameBad.take 14) ∧ (sExpo true 14).expo[(0 : Fin 8)].bad + 1 < 16 ∧
    16 ≤ (sExpo true 15).expo[(0 : Fin 8)].bad + 1 ∧ (sExpo true 15).expo[(0 : Fin 8)].linkUp = true ∧
    collectorOn (sExpo true 15) = true ∧ (sExpo true 0).expo[(0 : Fin 8)].tempLimit = false ∧
    expoTrains (sExpo false 0) 0 = true ∧ collectorOn (sExpo false 0) = true ∧ expoTrains (sExpo true 0) 0 = false := by
  decide

/-- Entries staged under HOLD, or a CFG block pending. -/
def sTone (hold pend : Bool) : State :=
  { sIdle with expo := each 8 { Expo.reset with hold := hold, cfgPend := pend, toneSet := each 16 [(5, 3)] } }

theorem witness_ExposureRegisterWrites :
    regOpen 5 (sTone true false) = true ∧ (1 : Fin 16) ≠ 0 ∧ (15 : Fin 16) ≠ 0 ∧ (0x7FFF#32).getLsbD 15 = false ∧
    (0x8000#32).getLsbD 15 = true ∧ (sTone true false).expo[(0 : Fin 8)].hold = true ∧ (0#32).getLsbD 0 = false ∧
    (sTone false false).expo[(0 : Fin 8)].hold = false ∧ (sTone true false).eng.state = .idle ∧
    regOpen 5 (sIn .run) = true ∧ (sIn .run).eng.state ≠ .idle ∧ (sIn .run).eng.state ≠ .armed ∧
    (sTone true false).expo[(0 : Fin 8)].cfgPend = false ∧ (sTone false true).expo[(0 : Fin 8)].cfgPend = true := by
  decide

/-- An image with an anchor scale of 3 to 2, Z_PERIOD 100, a camera at station 0, and one last of 16 lines. -/
def imgWeb : List Section :=
  [{ ty := 1, bytes := bytes 8 [(0, 1)] },
   { ty := 10, bytes := bytes 144 [(0, 1), (4, 3), (8, 2), (12, 100), (17, 1), (20, 1), (28, 100), (32, 1), (34, 1), (36, 4), (37, 2), (38, 9), (40, 3), (42, 255),
      (44, 255), (48, 1), (64, 16), (68, 64)] }]

def sWeb : State :=
  { sIdle with boot := { sIdle.boot with sections := imgWeb },
               anch := { Anchor.reset with inp := each 2 { a := false, b := false, count := 0, zCount := some (-200) } } }

/-- The eyelet anchor is selected. -/
def sEyelet (on : Bool) : State :=
  { sWeb with anch := { sWeb.anch with src := 2, eyeOn := on, eyeCount := if on then some 4 else none, eyeBase := 7, eyeMiss := if on then 2 else 1,
                                       inp := each 2 { a := false, b := false, count := 0, zCount := none } } }

def sWebRun : State := { sWeb with eng := { sWeb.eng with state := .run }, run := { Run.reset with active := true } }

/-- The follower has gained 100 lines in the estimate's window, for 1 ms, in a run of V_ADM 0. -/
def sOver : State :=
  { sWebRun with eng := { sWebRun.eng with time := 20000 }
                 anch := { sWeb.anch with follow := 6350000, overTime := 100000, hist := [(19000, 6350000, 6350000), (5000, 0, 0)] } }

theorem witness_AnchorUnit :
    sWeb.anch.src = (0 : Fin 2) ∧ true = !sWeb.anch.inp[(0 : Fin 2)].a ∧ false = sWeb.anch.inp[(0 : Fin 2)].b ∧
    edgeCount sWeb.anch.inp[(0 : Fin 2)] true false = 1 ∧ sWeb.anch.debt = 0 ∧
    0 ≤ ((sWeb.img.scaleNum : Int) + sWeb.anch.rem) / max 1 sWeb.img.scaleDen ∧
    edgeCount sWeb.anch.inp[(0 : Fin 2)] false true = -1 ∧
    (-(sWeb.img.scaleNum : Int) + sWeb.anch.rem) / max 1 sWeb.img.scaleDen < 0 ∧ sWeb.anch.src ≠ (1 : Fin 2) ∧
    collectorOn sWeb = true ∧ sWeb.anch.inp[(0 : Fin 2)].zCount = some (-200) ∧ sWeb.img.zPeriod ≠ 0 ∧
    sWeb.img.zPeriod + 2 < (sWeb.anch.inp[(0 : Fin 2)].count - -200).natAbs ∧
    (sEyelet false).anch.inp[(0 : Fin 2)].zCount = none ∧ (sEyelet false).anch.src = 2 ∧ (sEyelet false).anch.eyeCount = none ∧ anchorReport (sEyelet false) = (0, 0) ∧
    (sEyelet true).anch.src = 2 ∧ (sEyelet true).anch.eyeLost = false ∧ 2 ≤ (sEyelet true).anch.eyeMiss ∧
    collectorOn (sEyelet true) = true ∧ (sEyelet false).anch.eyeMiss < 2 ∧ overspeed sOver = true ∧ 100000 ≤ sOver.anch.overTime ∧
    sOver.anch.overEp = false ∧ collectorOn sOver = true ∧ overspeed sWeb = false := by
  decide

/-- An axis in a rope, STILL_SPEED 0.1 m/min and STILL_TIME 1 ms. -/
def imgRope : List Section :=
  [{ ty := 1, bytes := bytes 8 [(2, 1)] }, { ty := 6, bytes := bytes 1104 [(1040, 1)] }, { ty := 10, bytes := bytes 64 [(28, 100), (32, 1), (34, 1)] }]

/-- A stop of kind `k` in state `st`, with its marks and a run of three frames of which one has started. -/
def sStop (st : EngState) (k : Stop) (estop critical : Bool) : State :=
  { sIdle with eng := { sIdle.eng with state := st, stop := k, stopOpen := true, markEstop := estop, markCritical := critical },
               boot := { sIdle.boot with sections := imgRope }, anch := { Anchor.reset with quiet := 100000 },
               rope := each 32 { Rope.reset with still := true },
               run := { Run.reset with active := true, stretch := 3, started := 1 } }

/-- A run past its target. -/
def sPast : State :=
  { sWebRun with run := { Run.reset with active := true, stretch := 1, started := 1 }, anch := { sWeb.anch with follow := 63500 * 100, quiet := 100000 } }

/-- A rope still moves. -/
def sRopeMoves : State := { sStop .belay .belay false false with rope := each 32 Rope.reset }

theorem witness_StandstillEndsStops :
    stillLong sIdle = false ∧ stillLong sPast = true ∧ (∀ b : Fin 4, sPast.bus[b].absorbLost = false) ∧ sPast.eng.state = .run ∧ sPast.run.active = true ∧
    runTarget sPast ≤ sPast.line ∧ stillLong (sStop .idle .none false false) = true ∧ (sStop .idle .none false false).eng.state = .idle ∧
    noRopeAxis (sStop .belay .belay false false).img = false ∧ ropesStill sRopeMoves = false ∧ sRopeMoves.eng.stop = .belay ∧
    sRopeMoves.eng.state = .belay ∧ ropesStill (sStop .belay .belay false false) = true ∧ stillLong (sStop .belay .ramp false false) = true ∧ (∀ b : Fin 4, (sStop .halting .halt false false).bus[b].absorbLost = false) ∧
    (sStop .halting .halt false false).eng.state = .halting ∧ (sStop .belay .ramp false false).eng.state = .belay ∧
    (sStop .belay .ramp false false).eng.stop = .ramp ∧ sIdle.eng.state = .idle ∧
    (sStop .belay .belay false false).eng.stop = .belay ∧ (sStop .belay .belay false false).eng.markEstop = false ∧
    (sStop .belay .belay true false).eng.markEstop = true ∧ (sStop .belay .belay true false).eng.markCritical = false ∧
    (sStop .belay .belay true true).eng.markCritical = true := by
  decide

/-- Anchored mode, with the follower advancing. -/
def sAnchored : State :=
  { sWebRun with facet := { Facet.reset with anchored := true, interval := 65536 * 1000 },
                 anch := { sWeb.anch with follow := 900000, hist := [(900, 800000, 800000), (800, 700000, 700000)] } }

theorem witness_FacetPulsesAndFrameStarts :
    sIdle.eng.state ≠ .boot ∧ sIdle.eng.state ≠ .down ∧ (sIn .boot).eng.state = .boot ∧ sAnchored.facet.anchored = true := by
  decide

/-- A committed frame of two repetitions, of which none has started. -/
def frame1 : Frame := { rawFrame with committed := true, raw := false }

/-- RUN of `n` frames of job 1 at follower `x` lines, two of them committed. -/
def sStarting (n : Nat) (x : Int) : State :=
  { sWeb with eng := { sWeb.eng with state := .run }, anch := { sWeb.anch with follow := 63500 * x },
              jobs := { Jobs.reset with jobs := [job1], frames := [frame1] },
              run := { Run.reset with active := true, job := 1, stations := 1, stretch := n, f0 := 10 } }

theorem witness_FacetPulsesAndFrameStarts_frames :
    (sStarting 2 10).eng.state = .run ∧ (sStarting 2 10).run.active = true ∧
    (sStarting 2 10).run.started < (sStarting 2 10).run.stretch ∧
    (sStarting 2 10).frameNo? 1 ((sStarting 2 10).run.first + (sStarting 2 10).run.started) = some frame1 ∧
    (sStarting 2 10).run.f0 + ((sStarting 2 10).run.started : Int) * runLF (sStarting 2 10) + dFirst (sStarting 2 10) ≤ (sStarting 2 10).line ∧
    (sStarting 2 9).line < (sStarting 2 9).run.f0 + ((sStarting 2 9).run.started : Int) * runLF (sStarting 2 9) + dFirst (sStarting 2 9) ∧
    firstUncommitted (sStarting 3 0) = some 2 ∧
    frameStartLine (sStarting 3 0) 2 + dFirst (sStarting 3 0) - 64 ≤ (sStarting 3 0).line ∧ collectorOn (sStarting 3 0) = true ∧
    (sStarting 3 0).img.group = none ∧ (sStarting 3 0).anch.still = false ∧ firstUncommitted (sStarting 2 0) = none := by
  decide

/-- A run of job 1 whose next frame number is 5, and a camera report of frame `k` delivered. -/
def sReport (k : Nat) : State :=
  { sStarting 2 10 with ring := { (sStarting 2 10).ring with node := (sStarting 2 10).ring.node.map fun x => { x with words := [0, k, 0xFFFF0003] } }
                        jobs := { Jobs.reset with jobs := [{ job1 with next := 5 }] },
                        reg := each 8 { RegStation.reset with accAlong := 126, accCross := -32767, camNew := true } }

theorem witness_RegistrationOffsets :
    regOpen 1 sWeb = true ∧ sWeb.eng.state = .idle ∧ signed 9 (0xFF#32).toNat ≠ -256 ∧ signed 9 (0x100#32).toNat = -256 ∧
    regOpen 1 (sReport 4) = true ∧ (sReport 4).eng.state ≠ .idle ∧ (sReport 4).eng.state ≠ .armed ∧ (sReport 4).img.camNode (0 : Fin 8) ≠ 0 ∧
    camReport (sReport 4) 0 = (4, 3, -1) ∧ camReport (sReport 5) 0 = (5, 3, -1) ∧ camToggled (sReport 5) 0 = true ∧ camToggled (sReport 4) 0 = true ∧ camToggled sWeb 0 = false ∧ sIdle.img.camNode (0 : Fin 8) = 0 ∧ reportTaken (sReport 4) 0 4 = true ∧ -128 ≤ (sReport 4).reg[(0 : Fin 8)].accAlong ∧ (sReport 4).reg[(0 : Fin 8)].accAlong ≤ 127 ∧
    -32768 ≤ (sReport 4).reg[(0 : Fin 8)].accCross ∧ (sReport 4).reg[(0 : Fin 8)].accCross ≤ 32767 ∧ reportTaken (sReport 5) 0 5 = false := by
  decide +kernel

/-- Eight facets, one revolution of learning, MISS_MAX 3, a window of 80 in 8 ps; every station in use. -/
def imgScan : List Section :=
  [{ ty := 1, bytes := bytes 8 [(0, 255)] },
   { ty := 2, bytes := bytes 64 [(1, 8), (2, 1), (3, 2), (4, 3), (8, 80), (10, 4), (32, 100)] }]

/-- A station that has learned or not, and whose facet has its start of scan or not. -/
def sScan (learned taken : Bool) : State :=
  { sIdle with boot := { sIdle.boot with sections := imgScan }, facet := { Facet.reset with tick := 5000 },
               scan := each 8 { Scan.reset with learned := learned, tSos := if taken then some 90 else none, fines := [50000],
                                                subRow := 2, missed := 65535 } }

/-- The same in DOWN. -/
def sScanDown : State := { sScan false false with eng := { sIdle.eng with state := .down } }

theorem witness_ScanTiming :
    (sScan true true).scan[(0 : Fin 8)].learned = true ∧ (sScan true true).scan[(0 : Fin 8)].tSos.isSome = true ∧
    (sScan true false).scan[(0 : Fin 8)].tSos = none ∧ inWindow (sScan true false) 0 (sosTime (sScan true false) 0 0 0) = true ∧
    inWindow (sScan true false) 0 (sosTime (sScan true false) 0 65535 0) = false ∧ (sScan true false).img.stationEn 0 = true ∧
    sIdle.img.stationEn 0 = false ∧ (sScan true false).eng.state ≠ .boot ∧ (sScan true false).eng.state ≠ .down ∧
    sScanDown.eng.state = .down ∧ (sScan false false).scan[(0 : Fin 8)].learned = false ∧
    (sScan true false).scan[(0 : Fin 8)].subRow + 1 = (sScan true false).img.missMax ∧ collectorOn (sScan true false) = true ∧
    regOpen 8 sIdle = true ∧ regOpen 8 State.reset = false := by
  decide +kernel

/-- REF good or lost, on BACKUP or not, every PLL locked; REF_RETURN as the bit says. -/
def sClk (st : EngState) (ref backup hold : Bool) : State :=
  { sIn st with clk := { Clock.reset with refOk := ref, onBackup := backup, pll := each 8 { band := 30, attempts := 1, locked := true,
                                                                                            searchFail := false, lockTime := 0, unlockSeen := false, run := 0, held := false } },
                boot := { Boot.reset with linkTrained := true,
                                          sections := [{ ty := 2, bytes := bytes 64 [(6, if hold then 1 else 0)] }] } }

/-- TRIM_DEFAULT. -/
def sTrim : State := { sIdle with boot := { sIdle.boot with trimDefault := true } }

/-- The sensor nearest PD0 is broken. -/
def sBroken : State := { sIdle with therm := { sIdle.therm with broken := sIdle.therm.broken.set 20 true } }

/-- The reference has just changed. -/
def sChanged : State := { sIdle with clk := { Clock.reset with changed := some 0 } }

theorem witness_ClocksAndCompensation :
    collectorOn (sClk .run true false false) = true ∧ (sClk .run true false false).clk.refOk = true ∧
    (sClk .run true false false).flt.active.has 0x030 = false ∧ (sClk .boot true false false).eng.state = .boot ∧
    collectorOn (sClk .boot true false false) = true ∧ (sClk .run false true false).clk.refOk = false ∧
    (sClk .run true false false).eng.state ≠ .boot ∧ (sClk .run true false false).flt.active.has 0x031 = false ∧
    (sClk .idle true true false).clk.onBackup = true ∧ (sClk .idle true true false).img.refReturn = true ∧
    (sClk .idle true true true).img.refReturn = false ∧ (sClk .run true true false).eng.state ≠ .idle ∧
    sIdle.clk.pll[(0 : Fin 8)].locked = false ∧ unlockOff (sClk .run true false false) 5 = false ∧ unlockOff sChanged 0 = true ∧ (sClk .run true false false).clk.pll[(5 : Fin 8)].locked = true ∧
    (∀ i : Fin 8, (sClk .run true false false).flt.active.has (0x032 + i) = false) ∧
    tab (sClk .run true false false).pwr.domain 0 6 = 2 ∧ (sClk .run true false false).boot.linkTrained = true ∧
    sTrim.boot.trimDefault = true ∧ collectorOn sTrim = true ∧ sIdle.boot.trimDefault = false ∧
    dieReading sIdle 0 1250 = 1250 ∧ dieReading sIdle 1 (-400) = -400 ∧ dieReading sBroken 0 250 = 5000 ∧ sBroken.flt.active.has 0x03A = false ∧
    sIdle.clk.backupTrim < 4096 ∧ sIdle.clk.aonTrim < 1024 ∧ sIdle.flt.active.has 0x03A = false := by
  decide

/-- One entry of the merge buffer: a whole line, or two bytes of it. -/
def held (full : Bool) : MergeEntry :=
  { line := 3, bytes := if full then (List.range 64).map fun i => (i, BitVec.ofNat 8 (i + 1)) else [(5, 0xAB), (6, 0xCD)], poison := false, age := 0 }

/-- A store with line 3 held or not, poisoned or not, the scrubber at line 7, and page 2 retired. -/
def sStore (full : Option Bool) (poison remap : Bool) : State :=
  { sIdle with store := { sIdle.store with merge := (each 16 none).set 0 (full.map held), poison := if poison then [3, 7] else [],
                                           remap := (each 8 none).set 0 (if remap then some 3 else none),
                                           scrubLine := 7, retired := [2], mem := [(196, 9), (197, 8), (70000, 5)] } }

/-- A job that holds page 0, and a migration from it to page 1, or none. -/
def sMig (active : Bool) : State :=
  { sStore none false false with
    jobs := { Jobs.reset with jobs := [{ job1 with pages := [(0, 0)] }] }
    store := { (sStore none false false).store with migActive := active, migSource := 0, migDest := 1 } }

/-- 512 retired pages. -/
def sFull : State := { sIdle with store := { sIdle.store with retired := (List.range 512).map (· + 100) } }

/-- A corrected line waits for its write-back, the scrubber is at a line that the merge buffer holds, and a burst has just gone. -/
def sScrubbed : State :=
  { sStore (some true) false false with
    store := { (sStore (some true) false false).store with scrubLine := 3, scrubFix := [{ line := 9, word := 2, syndrome := 70, hard := true }], lastBurst := some 0, scrubInterval := 1 } }

set_option maxRecDepth 100000 in
theorem witness_StoreUpkeep :
    (sStore none false false).store.scrubEnable = true ∧ storeOn (sStore none false false) = true ∧ scrubDue (sStore none false false) = true ∧
    (scrubAt (sStore none false false)).1 = 7 ∧ mergeOf (sStore none false false) 7 = none ∧
    isPoison (sStore none false false) 7 = false ∧ remapped (sStore none false false) 7 = false ∧
    (sStore none false false).store.remap[(0 : Fin 8)] = none ∧ Memory.wf (sStore none false false).store.mem = true ∧
    collectorOn (sStore none false false) = true ∧ isPoison (sStore none true false) 7 = true ∧
    (scrubAt (sStore none true false)).2 = false ∧ (7 + 1) % 16384 ≠ 0 ∧
    mergeOf { sScrubbed with store := { sScrubbed.store with lastBurst := none } } 3 = some 0 ∧ storeOn State.reset = false ∧
    scrubDue sScrubbed = false ∧ (sScrubbed.store.scrubFix.head?.map (·.hard)) = some true ∧ storeOn sScrubbed = true ∧
    sScrubbed.store.remap[(0 : Fin 8)] = none ∧ (sStore none false false).store.scrubFix = [] ∧
    (sStore none false false).store.merge[(0 : Fin 16)] = none ∧ (sStore (some true) true false).store.merge[(0 : Fin 16)] = some (held true) ∧
    (held true).bytes.length = 64 ∧ (held false).bytes.length < 64 ∧
    (sStore (some false) true false).store.merge[(0 : Fin 16)] = some (held false) ∧
    isPoison (sStore (some false) true false) (held false).line = true ∧ isPoison (sStore (some false) false false) (held false).line = false ∧
    remapped (sStore (some false) false false) (held false).line = false ∧
    lineOf 196 = (held false).line ∧ lineOf 70000 ≠ (held false).line ∧ (sStore (some true) true false).store.migActive = false := by
  decide +kernel

set_option maxRecDepth 100000 in
theorem witness_StoreUpkeep_pages :
    ((sMig true).takes (hdr 0) ∧ (sMig false).takes (hdr 0) ∧ sFull.takes (hdr 0)) ∧ inAny (sMig true) = true ∧
    2 ∈ (sMig true).store.retired ∧ 0 ∉ (sMig true).store.retired ∧ (sMig true).store.migActive = true ∧
    (sMig false).store.migActive = false ∧ sFull.store.migActive = false ∧ 512 ≤ sFull.store.retired.length ∧ 0 ∉ sFull.store.retired ∧
    (sMig false).store.retired.length < 512 ∧ (sMig false).heldPages.contains 0 = true ∧ (sMig false).heldPages.contains 5 = false ∧
    5 ∉ (sMig false).store.retired ∧ ((sMig false).freePages 1).head? = some 1 ∧ storeOn (sMig true) = true ∧ storeOn (sMig false) = true ∧
    16384 ≤ max (sMig true).store.migDone 16384 ∧ max (sMig true).store.migDone 5 < 16384 ∧ Memory.wf (sMig true).store.mem = true ∧
    (∀ k : Fin 16, (sMig true).store.merge[k] = none) ∧ (sMig true).store.poison = [] :=
  ⟨⟨takes_hdr 0 _ (by decide), takes_hdr 0 _ (by decide), takes_hdr 0 _ (by decide)⟩, by decide +kernel⟩

/-- BAR2 in a state, its window at page 1. -/
def sBar2 (st : EngState) : State :=
  { sIn st with store := { sIdle.store with bar2Base := 1, retired := [2], mem := [(1048577, 3)], wrDrop := 65535 } }

theorem witness_Bar2Aperture :
    regOpen 4 (sBar2 .service) = true ∧ (∀ i, i < 64 → pageOf (2 * 0x100000 + i) ∈ (sBar2 .service).store.retired) ∧ regOpen 4 (sBar2 .boot) = true ∧
    barOpen (sBar2 .service) = true ∧ tab (sBar2 .service).pwr.domain 0 4 = 2 ∧ (sBar2 .service).eng.state = .service ∧
    (sBar2 .idle).eng.state ≠ .service ∧ barOpen (sBar2 .boot) = true ∧ (sBar2 .boot).eng.state = .boot ∧
    pageOf (1 * 0x100000 + 0x100000) ∈ (sBar2 .service).store.retired ∧ pageOf (1 * 0x100000) ∉ (sBar2 .service).store.retired ∧
    (∀ k : Fin 16, (sBar2 .service).store.merge[k] = none) ∧ (sBar2 .service).store.poison = [] ∧ storeOn (sBar2 .service) = true ∧ Memory.wf (sBar2 .service).store.mem = true ∧ (sBar2 .service).store.migActive = false ∧
    hitsRetired 1048576 64 (sBar2 .service) = false ∧ hitsRetired 2097152 64 (sBar2 .service) = true ∧
    (7936 : Nat) < (8000#32).toNat % 8192 := by
  decide +kernel

/-- A base block of line 0 with 64 blank pixels; its kind is out of range in the second form. -/
def blankBlock (kind sum : Nat) : List Byte :=
  [0x5A, 0xC3, BitVec.ofNat 8 kind, 1] ++ toLE 2 64 ++ toLE 2 0 ++ toLE 4 sum ++ toLE 3 0

set_option maxRecDepth 100000 in
theorem witness_CompressionServices_expansion :
    let v := svcOf { q := 0, tag := 1, epoch := 0 } { svcF with width := 64, dstLen := 8, srcLen := 16 }
    let b := blankBlock 3 (crc32c (List.replicate 32 0))
    let input := b ++ [BitVec.ofNat 8 (crc8 b)]
    let z := decompressBlocks v.width v.dstLen v.overlay 16 v.firstLine (List.replicate v.width 0) input SvcSum.zero
    input.length = v.srcLen ∧ z.2.1 = 0x0C ∧ v.dstLen ≠ 0 := by
  decide +kernel

/-- A run whose one frame holds a given block, decoded up to its line. -/
def sDecode (b : List Byte) (band : Nat) : State :=
  let f : Frame := { rawFrame with committed := true, raw := false, streams := [(0, 0, 16)] }
  { sRun with jobs := { Jobs.reset with jobs := [{ job1 with pages := [(0, 0)] }], frames := [f] }
              store := { sRun.store with mem := memWrite [] 0 (b ++ [BitVec.ofNat 8 (crc8 b)]) }
              dec := each 8 { Decoder.reset with cur := some (0, 0), band := List.replicate band { number := 0, entry := 0, line := 0,
                                                                                                    pixels := [], blank := none } } }

def decoded (s : State) : Option (Nat × Nat × Bool) :=
  match decodeJob s with
  | some x => match s.job? x.1 with
    | some j => match decodeNumber s j 0 with
      | some k => (s.frameNo? x.1 k).map fun f => (k, x.2, (sourceOf s j f 0 true Stream.reset []).fullLine Stream.reset 0 [] [] true |>.bad.isEmpty)
      | none => none
    | none => none
  | none => none

set_option maxRecDepth 100000 in
theorem witness_DecodersAndSpoilReports :
    decodeJob sIdle = none ∧ decoded (sDecode (blankBlock 3 (crc32c (List.replicate 32 0))) 0) = some (0, 2, true) ∧
    decoded (sDecode (blankBlock 3 1) 0) = some (0, 2, false) ∧ decoded (sDecode (blankBlock 4 1) 0) = some (0, 2, false) ∧
    storeOn (sDecode (blankBlock 4 1) 0) = true ∧ job1.stations.getLsbD 0 = true ∧ job1.stations.getLsbD 1 = false := by
  decide +kernel

/-- A repetition with a spoiled line. -/
def spoiled : Prog :=
  { job := 1, number := 4, entry := 0, start := 100, lines := 10, tick := 7, cause := some (0x01, 0x1C0, 9), late := false, cut := false,
    stations := [{ n := 0, due := 100, done := 10, cur := 10, spoil := some (2, 3), gap := false }] }

/-- `n` records in the log, and an outcome that waits or has passed; WASTE_L low or not, with the follower at `x`. -/
def sSpoil (n : Nat) (out low : Bool) (x : Int) : State :=
  { sWeb with anch := { sWeb.anch with follow := 63500 * x },
              jobs := { Jobs.reset with spoil := List.replicate n (spoiled.record 0), outcome := if out then [spoiled] else [],
                                        wasteLow := if low then some false else none } }

set_option maxRecDepth 100000 in
theorem witness_DecodersAndSpoilReports_records :
    (sSpoil 3 false false 0).jobs.outcome = [] ∧ (sSpoil 3 true false 0).jobs.outcome = [spoiled] ∧
    (sSpoil 3 true false 0).jobs.spoil.length < 1024 ∧ 1024 ≤ (sSpoil 1024 true false 0).jobs.spoil.length ∧
    (sSpoil 960 true false 0).flt.active.has 0x1F3 = false ∧ collectorOn (sSpoil 960 true false 0) = true ∧
    wasteDue (sSpoil 3 true false 105) = true ∧ wasteDue (sSpoil 3 true false 111) = false ∧
    (sSpoil 3 true true 105).jobs.wasteLow ≠ none ∧ wasteDue (sSpoil 3 true true 105) = true ∧ wasteDue (sSpoil 3 true true 111) = false := by
  decide +kernel

/-- Every channel is of mode auxiliary with a source; RAMP_END is 1 rpm, I_MAX 2 A, CMD_FULL 1000 rpm, CONF 3, START_TRIES 2. -/
def imgSp (source : Nat) : List Section :=
  [{ ty := 1, bytes := bytes 8 [(1, 255)] },
   { ty := 9, bytes := bytes 1040 ([(0, 28), (1, 2), (2, 20), (4, 1)] ++ (List.range 8).flatMap fun n =>
      [(16 + 128 * n, 1), (17 + 128 * n, source), (18 + 128 * n, 2), (20 + 128 * n, 144), (21 + 128 * n, 1), (28 + 128 * n, 3),
       (29 + 128 * n, 2), (55 + 128 * n, 64), (67 + 128 * n, 63), (66 + 128 * n, 128), (71 + 128 * n, 63), (70 + 128 * n, 128),
       (83 + 128 * n, 71), (119 + 128 * n, 68), (118 + 128 * n, 122)]) }]

/-- Every channel in a state, with a run command or none and `tries` start tries used. -/
def sSp (st : SpState) (source cmd tries : Nat) (catching : Bool) : State :=
  { sIdle with boot := { sIdle.boot with sections := imgSp source }
               sp := each 8 { Spindle.reset with state := st, cmd := cmd, tries := tries, agree := 1, catching := catching, speed := 800 } }

/-- The gates are inhibited by VCP. -/
def sInhibit (st : SpState) : State := { sSp st 2 16777216 0 false with spBus := { SpBus.reset with vcpUv := true } }

/-- A zero crossing far from the softening ramps. -/
def zc : ZcMeas := { interval := 1000, speed := 500, openErr := 0, rampDist := 100, sector := 0 }

set_option maxRecDepth 100000 in
theorem witness_SpindleChannelTransitions :
    (sSp .off 2 5 0 false).sp[(0 : Fin 8)].state = .off ∧ (sSp .off 2 5 0 false).sp[(0 : Fin 8)].barred = false ∧
    (sSp .sense 2 5 0 false).spBus.vcpUv = false ∧ (sSp .sense 2 5 0 false).sp[(0 : Fin 8)].bsHold = 0 ∧
    runWanted (sSp .sense 2 0 0 false) 0 = false ∧ runWanted (sSp .off 2 5 0 false) 0 = true ∧
    runWanted (sSp .off 2 0 0 false) 0 = false ∧ gatesInhibited (sSp .off 2 5 0 false) = false ∧ gatesInhibited (sInhibit .off) = true ∧
    runWanted (sInhibit .off) 0 = true ∧ (sSp .ramp 2 5 0 false).sp[(0 : Fin 8)].agree + 1 < (sSp .ramp 2 5 0 false).img.spB 0 12 ∧
    zc.openErr.natAbs ≤ 240 ∧ 80 ≤ zc.rampDist ∧ implausible (imgSp 2) 0 (sSp .closed 2 5 0 false).sp[(0 : Fin 8)] zc.interval = false ∧
    codeOf (sSp .closed 2 5 0 false) 0x043 0 < 2 ∧ codeOf (sSp .short 2 5 2 false) 0x044 0 < 2 ∧ collectorOn (sSp .short 2 5 2 false) = true ∧
    { zc with rampDist := 79 }.rampDist < 80 ∧ (sSp .short 2 5 0 false).sp[(0 : Fin 8)].barred = false ∧ collectorOn (sSp .closed 2 5 0 false) = true ∧
    dirWanted (sSp .brake 2 5 0 false) 0 = (sSp .brake 2 5 0 false).sp[(0 : Fin 8)].reverse ∧
    (sSp .short 2 5 0 false).sp[(0 : Fin 8)].tries < (sSp .short 2 5 0 false).img.spB 0 13 ∧
    (sSp .short 2 5 2 false).img.spB 0 13 ≤ (sSp .short 2 5 2 false).sp[(0 : Fin 8)].tries ∧
    (sSp .short 2 5 2 false).sp[(0 : Fin 8)].fresh = false ∧
    (sSp .coast 2 5 0 true).sp[(0 : Fin 8)].catching = true ∧ (sSp .coast 2 5 0 true).sp[(0 : Fin 8)].resting = false ∧
    gatesInhibited (sSp .coast 2 5 0 true) = false ∧ atLow (sSp .coast 2 5 0 true) 0 = false ∧
    (sSp .off 2 5 0 false).img.spindleEn 0 = true ∧ (sSp .off 2 5 0 false).img.has 9 = true ∧
    -(brakeLimit (imgSp 2) 0 300) ≤ spQ (imgSp 2) 0 36 ∧ spQ (imgSp 2) 0 52 ≤ (((800 : Int).natAbs : Nat) : Int) * 1048576 ∧
    2 * (((0 : Int).natAbs : Nat) : Int) * 1048576 ≤ spQ (imgSp 2) 0 52 ∧
    (((0 : Int).natAbs : Nat) : Int) * 1048576 < spQ (imgSp 2) 0 52 := by
  decide +kernel

/-- Channel 0 owes the raises of a row at the end of the tick. -/
def sOwes (x : SpOwed) : State :=
  { sIdle with sp := sIdle.sp.set 0 { Spindle.reset with turn := some { state := .closed, tries := 0, syncLosses := 0, startFail := false, barred := false, owed := [x] } } }

theorem witness_SpindleChannelTransitions_owed :
    (sOwes .syncLoss).pending = [] ∧ collectorOn (sOwes .syncLoss) = true ∧
    ((sOwes .syncLoss).sp[(0 : Fin 8)].turn.any fun u => u.owed.contains .syncLoss) = true ∧
    ((sOwes .drive).sp[(0 : Fin 8)].turn.any fun u => u.owed.contains .drive) = true ∧
    (sSp .brake 2 5 0 false).sp[(0 : Fin 8)].state = .brake ∧ (sSp .short 2 5 0 false).sp[(0 : Fin 8)].braking = false ∧
    (sSp .short 2 5 0 false).sp[(0 : Fin 8)].state ≠ .brake := by
  decide

set_option maxRecDepth 100000 in
theorem witness_SpindleChannelTransitions_catch :
    let s : State := { sIdle with boot := { sIdle.boot with sections := imgSp 2 }, sp := each 8 { Spindle.reset with
      state := .coast, cmd := 5, catching := true, agree := 9, speed := 800, lastInterval := some 1000 } }
    s.sp[(0 : Fin 8)].catching = true ∧ s.sp[(0 : Fin 8)].resting = false ∧ gatesInhibited s = false ∧ runWanted s 0 = true ∧
    decide (zc.speed < 0) = dirWanted s 0 ∧ s.sp[(0 : Fin 8)].lastInterval = some zc.interval ∧
    s.img.spB 0 12 ≤ s.sp[(0 : Fin 8)].agree + 1 ∧ spQ s.img 0 52 < 2 * (zc.speed.natAbs : Int) * 1048576 ∧
    spQ s.img 0 68 ≤ (zc.speed.natAbs : Int) * 1048576 := by
  decide +kernel

set_option maxRecDepth 100000 in
theorem witness_GateDriveAndBridgeSupplies :
    collectorOn (sSp .closed 2 5 0 false) = true ∧ (sSp .closed 2 5 0 false).sp[(0 : Fin 8)].firstLeg = 7 ∧
    (sSp .closed 2 5 0 false).flt.active.has 0x068 = false ∧ (sSp .closed 2 5 0 false).flt.active.has 0x069 = false ∧
    (sSp .closed 2 5 0 false).flt.active.has 0x06A = false ∧ (sSp .closed 2 5 0 false).flt.active.has 0x06B = false ∧
    (sSp .closed 2 5 0 false).img.vbusCeil + 20 < 600 ∧ (sSp .closed 2 5 0 false).img.rpsFitted = true ∧ sIdle.img.rpsFitted = false ∧
    (sSp .closed 1 5 0 false).img.spSource 0 = 1 ∧ (sSp .closed 2 5 0 false).img.spSource 0 = 2 ∧
    (sSp .closed 3 5 0 false).img.spSource 0 = 3 := by
  decide +kernel

/-- Data RAM of the tests: 1.5, −2.25, 100, 0.5 and 300 at 0 to 4; a block at 10 to 22 whose first word is 0, then 1.5, 0.5,
1, 2, 0.25, 1, 100, 8, 0, 0, 3 and 1; a stale 1.5 at 30 and an uncorrectable word at 31. -/
def lawWords : List (Nat × DWord) :=
  [(0, 0x3FC00000), (1, 0xC0100000), (2, 0x42C80000), (3, 0x3F000000), (4, 0x43960000), (11, 0x3FC00000), (12, 0x3F000000),
   (13, 0x3F800000), (14, 0x40000000), (15, 0x3E800000), (16, 0x3F800000), (17, 0x42C80000), (18, 0x41000000),
   (21, 0x40400000), (22, 0x3F800000)].map (fun x => (x.1, { v := x.2, stale := false, bad := false })) ++
  [(30, { v := 0x3FC00000, stale := true, bad := false }), (31, { v := 0x3FC00000, stale := false, bad := true })]

/-- The word `n` stands at the program counter of the first of two programs due. -/
def sLaw (n : Nat) : State :=
  { sIdle with law := { sIdle.law with begun := true, started := true, due := [0, 1], pc := 0, prog := [n], data := lawWords,
                                       latched := [{ port := 0x100, v := 0x3F800000, fresh := true }],
                                       shareIn := [(1, 0x3F800000, false), (2, 0x3F800000, true)] } }

/-- The same with the last program due. -/
def sLast (n : Nat) : State := { sLaw n with law := { (sLaw n).law with due := [1], outNew := [(0x1000, 0x3F800000)] } }

/-- Every instruction fetched once: with its flag, bypassed (block at 11) and not (block at 10). -/
def lawTests : List Instr :=
  let e := LawExec.clean
  [.ld e 40 0 3, .ld e 40 0 4, .ld e 40 2 1, .st e 50 0 3, .st e 50 0 4, .mov e false 40 0 0, .mov e true 40 0x3F80 0, .add e 40 0 1,
   .sub e 40 30 31, .mul e 0 0 0, .mac e 2 0 1, .abs e 40 1, .min e 40 0 1, .max e 40 0 1, .sel e 40 0 1, .cmp e 0 40 0 1,
   .cmp e 3 40 2 2, .brf e false 0 7, .brf e true 0 7, .brf e false 10 7, .lim e false 40 0 12, .lim e true 40 0 10,
   .lim e true 40 0 11, .slew e false 40 2 12, .slew e true 40 2 10, .slew e true 40 2 11, .lpf e false 40 2 12,
   .lpf e true 40 2 10, .lpf e true 40 2 11, .biq e false 40 2 11, .biq e true 40 2 10, .biq e true 40 2 11, .pi e false 40 2 11,
   .pi e true 40 2 10, .pi e true 40 2 11, .intg e false 40 2 11, .intg e true 40 2 10, .intg e true 40 2 11, .diff e false 40 2 11,
   .diff e true 40 30 10, .diff e true 40 2 11, .clarke e false 40 0, .clarke e true 40 0, .park e 40 0 2, .ipark e 40 0 2,
   .sincos e 40 0, .svm e 40 0 4, .obs e 40 0 11, .obs e 40 29 11, .hold e 40 1 11, .hold e 40 30 11, .share e 40 0 1, .share e 40 0 2,
   .share e 40 0 3, .inp e 40 0x100, .out e 0 0x1000, .endp e]

/-- The state in which a law instruction is fetched. -/
def fetchOf (i : Instr) : State := sLaw ((encodeLaw i).getD 0)

theorem fetches_intro {s : State} {c : Instr} (h : (lawRunning s && !s.law.due.isEmpty && !s.law.progBad.contains s.law.pc &&
    decide (decodeLaw (progWord s s.law.pc) = some c)) = true) : s.fetches c := by
  simp only [Bool.and_eq_true, Bool.not_eq_true', decide_eq_true_eq] at h
  exact ⟨h.1.1.1, fun e => by simp [e] at h, h.1.2, h.2⟩

set_option maxRecDepth 100000 in
theorem lawTests_fetched : (lawTests.all fun i => lawRunning (fetchOf i) && !(fetchOf i).law.due.isEmpty &&
    !(fetchOf i).law.progBad.contains (fetchOf i).law.pc &&
    decide (decodeLaw (progWord (fetchOf i) (fetchOf i).law.pc) = some i)) = true := by
  decide +kernel

/-- Each instruction of the list is fetched in its state. -/
theorem witness_LawPlainInstructions : (∀ i ∈ lawTests, (fetchOf i).fetches i) ∧ LawExec.clean.fetchBad = false ∧
    LawExec.clean.differ = false :=
  ⟨fun i h => fetches_intro (List.all_eq_true.mp lawTests_fetched i h), rfl, rfl⟩

set_option maxRecDepth 100000 in
theorem witness_LawPlainInstructions_index :
    Fp.finite (opd (sLaw 0) 3).v = true ∧ ((0 : Nat) : Int) = clampI 0 255 (Fp.trunc (opd (sLaw 0) 3).v) ∧
    255 < Fp.trunc (opd (sLaw 0) 4).v ∧ Fp.trunc (opd (sLaw 0) 1).v < 0 ∧
    decodeLaw (progWord (sLaw 0) (sLaw 0).law.pc) ≠ some (.add LawExec.clean 0 0 0) ∧
    (sLaw 0).law.progBad.contains (sLaw 0).law.pc = false := by
  decide +kernel

theorem witness_LawBlockAndTransformInstructions :
    (fetchOf (.lim LawExec.clean true 40 0 11)).fetches (.lim LawExec.clean true 40 0 11) ∧
    (fetchOf (.svm LawExec.clean 40 0 4)).fetches (.svm LawExec.clean 40 0 4) :=
  ⟨witness_LawPlainInstructions.1 _ (by decide), witness_LawPlainInstructions.1 _ (by decide)⟩

theorem witness_LawPlainInstructions_tables : (sLaw 0).canonical ∧ (sLast 0).canonical := by
  unfold State.canonical
  decide +kernel

set_option maxRecDepth 100000 in
theorem witness_LawPortsSupervisionAndTraps :
    ((fetchOf (.obs LawExec.clean 40 0 11)).fetches (.obs LawExec.clean 40 0 11) ∧
     (fetchOf (.hold LawExec.clean 40 30 11)).fetches (.hold LawExec.clean 40 30 11)) ∧
    anyStale (sLaw 0) [30] = true ∧ anyStale (sLaw 0) [1] = false ∧ (opd (sLaw 0) 20).zero = true ∧ (opd (sLaw 0) 21).zero = false ∧
    (sLaw 0).law.shareIn.lookup 1 = some (0x3F800000, false) ∧ (sLaw 0).law.shareIn.lookup 2 = some (0x3F800000, true) ∧
    (sLaw 0).law.shareIn.lookup 3 = none ∧ ((sLaw 0).law.latched.find? fun y => y.port = 0x100).isSome = true ∧
    (sLaw 0).law.due = 0 :: [1] ∧ (sLast 0).law.due = [1] ∧ (sLast 0).ramp.active = false ∧ lawRunning (sLaw 0) = true ∧
    collectorOn (sLaw 0) = true ∧ Instr.isLaw (.endp LawExec.clean) = true ∧
    (∀ i ∈ linkReads (lawUpsets LawExec.clean (sLaw 0)) ((sLaw 0).law.due.headD 0), (dget (lawUpsets LawExec.clean (sLaw 0)) i).bad = false) :=
  ⟨⟨witness_LawPlainInstructions.1 _ (by decide), witness_LawPlainInstructions.1 _ (by decide)⟩, by decide +kernel⟩

/-- One program, entry 0, every sample; a restart or a link update waits, or neither. -/
def sSample (st : EngState) (restart bad : Bool) (links : List LinkRun) : State :=
  { sIn st with
    boot := { sIdle.boot with sections := [{ ty := 7, bytes := bytes 656 [(0, 25), (4, 3), (16, 0), (20, 1)] },
                                           { ty := 5, bytes := bytes 496 [(112, 1), (114, 1), (115, 0)] },
                                           { ty := 1, bytes := bytes 8 [(2, 3)] }] }
    law := { sIdle.law with begun := true, started := true, restart := restart, halted := restart, prog := [0x7F00000000000000],
                            progBad := if bad then [0] else [], links := links }
    stage := sIdle.stage.map fun l => { l with up := true } }

/-- Step 2 of 4 of a ramp link from 1.0 to 3.0. -/
def rampLink : LinkRun := { link := 0, dest := 9, x := 0x40400000, stale := true, v := 0x3F800000, i := 1, steps := 4 }

def sStopLaw (stop good : Bool) : State :=
  { sSample .idle false false [] with law := { (sSample .idle false false []).law with
      stop := stop, prog := [if good then 0x5000000000090000 else 0, 0x5000000000190000, 0x7F00000000000000] } }

/-- A ramp stop in which axis 1 is OFF or not. -/
def sRamp (off : Bool) : State :=
  { sSample .belay false false [] with
    eng := { (sIn .belay).eng with stop := .ramp, stopOpen := true, time := 30000000 }
    ramp := { active := true, start := some 5, sign := each 16 1, off := (each 16 false).set 1 off } }

theorem witness_LawSample_tables : (sSample .down false false []).canonical ∧ (sSample .run false false [rampLink]).canonical ∧
    (sSample .run true true []).canonical ∧ (sStopLaw true true).canonical ∧ (sRamp true).canonical := by
  unfold State.canonical
  decide +kernel

set_option maxRecDepth 100000 in
theorem witness_LawSample :
    (sSample .down false false []).eng.state = .down ∧ tab (sSample .down false false []).pwr.domain 0 6 = 2 ∧
    tab { sSample .down false false [] with pwr := Power.reset }.pwr.domain 0 6 ≠ 2 ∧ (sLast 0).law.due ≠ [] ∧
    (sSample .run false false []).law.due = [] ∧ rampOver (sRamp true) 0 = true ∧ rampOver (sRamp false) 0 = true ∧
    rampOver (sSample .run false false []) 0 = false ∧ (sSample .run true false []).eng.state ≠ .down ∧
    (sSample .run false false []).img.linkUse 0 ≠ 0 ∧ (sSample .run false false [rampLink]).host.paramWait = none ∧
    (sSample .run false false [rampLink]).host.modifyWait = [] ∧ (sSample .run false false [rampLink]).law.links = [rampLink] ∧
    ((sSample .run false false [rampLink]).law.data.all fun x => !x.2.bad) = true ∧ (sSample .run true false []).law.restart = true ∧
    (sSample .run true true []).law.progBad ≠ [] ∧ lawRunning (sSample .run false false []) = true ∧
    lawRunning (sSample .run true false []) = false ∧ (sLaw 0).law.due ≠ [] ∧ lawRunning (sLaw 0) = true ∧
    regOpen 2 (sStopLaw true true) = true ∧ programRamOk (sStopLaw true true) = true ∧ programRamOk (sStopLaw true false) = false ∧
    (sStopLaw false true).law.stop = false ∧ (sRamp true).ramp.active = true ∧ (sRamp true).eng.state = .belay ∧
    (sRamp true).eng.stop = .ramp ∧ (∀ b ∈ enabledAxes (sRamp true).img, b ≠ 0 → tab (sRamp true).ramp.off true b = true) ∧
    (∃ b ∈ enabledAxes (sRamp false).img, b ≠ 0 ∧ tab (sRamp false).ramp.off true b = false) := by
  decide +kernel

theorem witness_WordsSpellTheirCommands :
    Instr.isLaw (.biq LawExec.clean true 32767 5 32760) = true ∧ (Instr.biq LawExec.clean true 32767 5 32760).wf = true ∧
    (DmaOp.move true false 1 2 (2 ^ 44 - 1) 5 1048576).wf = true := by
  decide

/-- Exact results within the range of normal numbers, past it, and halfway between two values. -/
theorem witness_LawArithmeticIsRounded :
    Fp.finite 0x3F800001 = true ∧ 2 ^ 23 * 2 ^ 0 ≤ (Fp.val 0x3F800001 + Fp.val 0x33800000).natAbs ∧
    ((Fp.val 0x3F800001 + Fp.val 0x33800000).natAbs : Int) ≤ (2 ^ 24 - 1) * 2 ^ 253 * 2 ^ 0 ∧
    (2 ^ 24 - 1) * 2 ^ 253 * 2 ^ 0 < Fp.val 0x7F7FFFFF + Fp.val 0x7F7FFFFF ∧
    Fp.val 0xFF7FFFFF + Fp.val 0xFF7FFFFF < -((2 ^ 24 - 1) * 2 ^ 253 * 2 ^ 0) ∧
    (2 ^ 24 - 1) * 2 ^ 253 * 2 ^ 149 < Fp.val 0x7F7FFFFF * Fp.val 0x7F7FFFFF := by
  decide

/-- Link 0 carries axis 0 and a chopper of bus 0; rope 3 is a press-domain rope of splice signal 1; the controller is in a run group. -/
def imgStage : List Section :=
  [{ ty := 5, bytes := bytes 496 [(0, 196), (1, 9), (8, 4), (112, 1), (114, 1), (116, 2)] },
   { ty := 6, bytes := bytes 3088 [(1232, 2), (1236, 2)] },
   { ty := 4, bytes := bytes 16 [(1, 0)] }]

/-- An upstream frame of link `l` that echoes `sample`, with ALIVE of slot 0, and a good CRC or not. -/
def upFrame (l sample alive : Nat) (good : Bool) : List Byte :=
  let b := bytes 36 [(0, 0x10 + l), (1, sample), (4, 7), (10, 200), (12, 9), (16, alive), (26, 210)]
  let c := Poly.ccitt.crc b
  b ++ [BitVec.ofNat 8 (if good then c else c + 1), BitVec.ofNat 8 (c / 256)]

/-- Link 0 is up; its chopper has failed or not; bus 0 has been `over` samples above its trip level. -/
def sStage (st : EngState) (failed still : Bool) (ovr : Nat) : State :=
  { sIn st with
    boot := { sIdle.boot with sections := imgStage }, anch := { Anchor.reset with still := still }
    stage := sIdle.stage.map fun l => { l with up := true, sample := 5, flags1 := if failed then 1 else 0 }
    bus := each 4 { DcBus.reset with ovr := ovr }
    rope := each 32 { Rope.reset with tens := ovr, shareMiss := ovr } }

/-- The links are in training. -/
def sTraining : State :=
  { sStage .idle false false 0 with stage := (sStage .idle false false 0).stage.map fun l => { l with up := false, training := true } }

/-- Slot 0 of every link has had no fresh frame for `n` samples. -/
def sMissing (n : Nat) : State :=
  { sStage .run false false 0 with
    stage := (sStage .run false false 0).stage.map fun l => { l with slot := each 2 { StageSlot.reset with missing := n, alive := some true } } }

/-- BELAY with stop kind `k`. -/
def sBelay (k : Stop) : State := { sStage .belay false false 0 with eng := { (sIn .belay).eng with stop := k } }

set_option maxRecDepth 100000 in
theorem witness_StageLinksAndBuses :
    (sStage .idle false false 0).stage[(0 : Fin 8)].up = true ∧ sIdle.stage[(0 : Fin 8)].up = false ∧
    (upFrame 0 5 1 false).length = 38 ∧ u16 (upFrame 0 5 1 false) 36 ≠ Poly.ccitt.crc ((upFrame 0 5 1 false).take 36) ∧
    collectorOn (sStage .idle false false 0) = true ∧ (upFrame 0 5 1 true).length = 38 ∧
    u16 (upFrame 0 5 1 true) 36 = Poly.ccitt.crc ((upFrame 0 5 1 true).take 36) ∧
    u16 (upFrame 1 5 1 true) 36 = Poly.ccitt.crc ((upFrame 1 5 1 true).take 36) ∧ byteAt (upFrame 1 5 1 true) 0 ≠ 0x10 ∧
    byteAt (upFrame 0 5 1 true) 0 = 0x10 ∧ 2499 < (sStage .idle false false 0).img.tIn ∧ (sStage .idle false false 0).img.tIn ≤ 2500 ∧
    (sStage .idle false false 0).img.linkUse 0 ≠ 0 ∧ (sStage .idle false false 0).stage[(0 : Fin 8)].training = false ∧
    sTraining.img.linkUse 0 ≠ 0 ∧ sTraining.stage[(0 : Fin 8)].training = true ∧
    u16 (upFrame 0 5 1 true) 1 = sTraining.stage[(0 : Fin 8)].sample ∧
    (sStage .idle false false 0).img.linkUse 1 = 0 ∧
    u16 (upFrame 0 5 1 true) 1 = (sStage .idle false false 0).stage[(0 : Fin 8)].sample ∧
    (∀ k : Fin 2, u16 (upFrame 0 5 1 true) (18 + 16 * k) % 64 = 0) ∧ (sStage .idle false false 0).img.slotKind 0 0 = 1 ∧
    (sStage .idle false false 0).img.slotKind 0 1 = 2 ∧ (sStage .idle false false 0).img.slotKind 1 0 = 0 ∧
    (sStage .idle false false 0).stage[(0 : Fin 8)].slot[(0 : Fin 2)].alive ≠ some (bit (byteAt (upFrame 0 5 1 true) 16) 0) ∧
    (sMissing 4).stage[(0 : Fin 8)].slot[(0 : Fin 2)].alive = some (bit (byteAt (upFrame 0 5 1 true) 16) 0) ∧
    (sMissing 3).stage[(0 : Fin 8)].slot[(0 : Fin 2)].missing < 4 ∧ 4 ≤ (sMissing 4).stage[(0 : Fin 8)].slot[(0 : Fin 2)].missing ∧
    (sMissing 4).stage[(0 : Fin 8)].slot[(0 : Fin 2)].lostEp = false ∧ (sMissing 4).stage[(0 : Fin 8)].up = true ∧
    (sMissing 4).img.slotKind 0 0 ≠ 0 ∧ chopperFailed (sStage .idle true true 2) 0 = true ∧
    (sStage .idle true true 2).bus[(0 : Fin 4)].absorbLost = false ∧ (sStage .idle true true 2).anch.still = true ∧
    (sStage .idle true true 2).eng.state ≠ .down ∧ chopperFailed (sStage .idle false true 1) 0 = false ∧
    2 ≤ (sStage .idle true true 2).bus[(0 : Fin 4)].ovr ∧ (sStage .idle false true 1).bus[(0 : Fin 4)].ovr < 2 := by
  decide +kernel

set_option maxRecDepth 100000 in
theorem witness_RopesAndRemoteStops :
    8 ≤ (sStage .run false false 8).rope[(3 : Fin 32)].tens ∧ (sStage .run false false 8).rope[(3 : Fin 32)].tensEp = false ∧
    (sStage .run false false 3).rope[(3 : Fin 32)].tens < 8 ∧
    (sStage .run false false 8).img.shareMiss ≤ (sStage .run false false 8).rope[(3 : Fin 32)].shareMiss ∧
    (sStage .run false false 3).rope[(3 : Fin 32)].shareMiss < (sStage .run false false 3).img.shareMiss ∧
    (sStage .run false false 3).rope[(3 : Fin 32)].backMiss < (sStage .run false false 3).img.shareMiss ∧
    (sBelay .belay).eng.state = .belay ∧ (sBelay .belay).eng.stop = .belay ∧ (sBelay .coast).eng.stop = .coast ∧
    (sBelay .coast).eng.stop ≠ .belay ∧ collectorOn (sBelay .belay) = true ∧ (sStage .run false false 0).eng.state ≠ .belay ∧
    (sStage .run false false 0).eng.state = .run ∧ (sStage .run false false 0).anch.still = false ∧
    inPressRope (sStage .run false false 0).img = true ∧ (sStage .run false false 0).img.group.isSome = true ∧
    inPressRope sIdle.img = false ∧ sIdle.img.group = none := by
  decide +kernel

/-- Axis 0 to 3 are enabled; axis 0 has no fault input, 1 a limit, 2 an alarm, 3 an S-curve. -/
def imgAux : List Section :=
  [{ ty := 1, bytes := bytes 8 [(4, 15)] },
   { ty := 18, bytes := bytes 256 [(17, 1), (33, 2), (48, 1), (8, 10), (24, 10), (40, 10), (56, 10)] }]

/-- Every axis in a state at position 10 with held target 40 and AUXp_TARGET `target`, `ramp` steps up its ramp. -/
def sAux (st : EngState) (a : AuxState) (target : Int) (ramp : Nat) (flt abort : Bool) : State :=
  { sIn st with
    boot := { sIdle.boot with sections := imgAux }
    aux := each 16 { Aux.reset with target := target, held := 40, pos := 10, speed := 500, accel := 20, state := a,
                                    rampSteps := ramp, fltIn := flt, dir := true, limitDir := true, abort := abort } }

set_option maxRecDepth 100000 in
theorem witness_AuxiliaryAxes :
    regOpen 1 (sAux .idle .suspended 3 0 true false) = true ∧ auxBarred (sAux .idle .suspended 3 0 true false) 1 3 = false ∧
    auxBarred (sAux .idle .suspended 3 0 true false) 1 40 = true ∧ auxBarred (sAux .idle .suspended 3 0 false false) 1 40 = false ∧
    (sAux .idle .suspended 3 0 false false).aux[(2 : Fin 16)].fltIn = false ∧ auxBarred (sAux .safe .idle 3 0 false false) 0 3 = true ∧
    (sAux .idle .suspended 3 0 true false).img.auxEn 4 = false ∧ 0 < (sAux .run .moving 3 7 false false).aux[(0 : Fin 16)].rampSteps ∧
    accelRefused (sAux .run .moving 3 7 false false).img 0 (sAux .run .moving 3 7 false false).aux[(0 : Fin 16)] 1 = true ∧
    (sAux .idle .fault 3 0 true false).aux[(0 : Fin 16)].state = .fault ∧ (sAux .idle .idle 10 0 true false).aux[(0 : Fin 16)].target = 10 ∧
    (sAux .run .stopping 3 1 false true).aux[(0 : Fin 16)].abort = true ∧ (sAux .run .moving 3 7 false false).img.auxEn 1 = true ∧
    (sAux .run .moving 3 7 false false).img.auxFltMode 1 = 1 ∧ (sAux .run .moving 3 7 false false).img.auxFltMode 2 = 2 ∧
    collectorOn (sAux .run .moving 3 7 false false) = true := by
  decide +kernel

/-- Thermistor 0 (R25 10 kΩ, B 3435, R_SER 10 kΩ) serves heaters 0 (MODE 0) and 1 (MODE 1) with HTR_MAX 50.0 °C; HV channel 2 has a node. -/
def imgTherm : List Section :=
  [{ ty := 13, bytes := bytes 304 [(0, 0xE8), (1, 3), (2, 0x1A), (3, 4), (4, 0x4C), (5, 4), (6, 0x7E), (7, 4), (8, 30),
      (17, 0x40), (18, 0x1C), (19, 0x46), (21, 0xB0), (22, 0x56), (23, 0x45), (25, 0x40), (26, 0x1C), (27, 0x46),
      (240, 1), (244, 0xF4), (245, 1), (246, 0xE8), (247, 3), (256, 1), (258, 1), (260, 0xF4), (261, 1), (262, 0xE8), (263, 3)] },
   { ty := 19, bytes := bytes 16 [(0, 4)] ++ bytes 944 [(112, 5)] },
   { ty := 17, bytes := bytes 528 [(0, 60), (48, 1), (49, 7), (50, 1)] }]

/-- Level `lvl`, inputs broken or not after `n` conversions the other way, and heaters with `acc` at duty 0.5. -/
def sTherm (st : EngState) (lvl n : Nat) (broken zc : Bool) (acc : Nat) : State :=
  { sIn st with
    boot := { sIdle.boot with sections := imgTherm }
    therm := { sIdle.therm with level := lvl, broken := each 26 broken, run := each 26 n }
    law := { sIdle.law with started := true, begun := true, outPorts := [(0x1400, 0x3F000000), (0x1401, 0x3F000000)] }
    htr := { sIdle.htr with zcOk := zc, good := 7, acc := each 4 acc, on := each 4 true }
    hv := { sIdle.hv with missing := each 24 n } }

/-- Readings with thermistor 0 at ρ = `rho` ÷ 65,536 and die sensors near `die`. -/
def readings (rho : Nat) (die : Int) : SensorReadings :=
  { ntc := [rho], diode := [], die := [die, die - 10, die - 20, die - 30, die - 5, die - 7] }

set_option maxRecDepth 100000 in
theorem witness_TemperaturesAndSupplies :
    collectorOn (sTherm .run 0 2 false true 0) = true ∧ (sTherm .run 0 2 false true 0).eng.state ≠ .down ∧
    sensorUse (sTherm .run 0 2 false true 0).img 0 = true ∧ sensorUse (sTherm .run 0 2 false true 0).img 1 = false ∧
    sensorOut (readings 65535 300) 0 = true ∧ sensorOut (readings 32768 300) 0 = false ∧ sensorOut (readings 32768 300) 20 = false ∧
    ntcTemp (sTherm .run 0 2 false true 0).img 0 32768 = some 0x41C80000 ∧ (sTherm .run 0 2 true true 0).therm.broken[(3 : Fin 26)] = true ∧
    (sTherm .run 0 1 true true 0).therm.run[(0 : Fin 26)] < 2 ∧ levelOf (sTherm .run 0 2 false true 0) 1060 = 2 ∧
    levelOf (sTherm .run 2 2 false true 0) 900 ≤ 2 ∧ (900 : Int) < (sTherm .run 2 2 false true 0).img.thr 1 - (sTherm .run 2 2 false true 0).img.tHyst ∧
    (sTherm .run 2 2 false true 0).img.thr 1 - (sTherm .run 2 2 false true 0).img.tHyst ≤ 1040 ∧ (sTherm .run 2 2 false true 0).img.thr 3 ≤ 1200 ∧
    (sTherm .run 2 2 false true 0).img.htrUse 0 = true ∧ (sTherm .run 2 2 false true 0).img.htrUse 2 = false ∧
    (sTherm .run 2 2 false true 0).img.htrMax 0 = 500 ∧ (sTherm .run 0 2 false true 0).htr.zcOk = true ∧
    lawOutputsOff (sTherm .run 0 2 false true 0) = false ∧ lawOutputsOff (sTherm .safe 0 2 false true 0) = true ∧
    (sTherm .run 2 2 false true 0).img.htrMode 0 = 0 ∧ heaterDuty (sTherm .run 0 2 false true 0) 0 = 2 ^ 148 ∧
    2 ^ 149 ≤ (sTherm .run 0 2 false true (2 ^ 148)).htr.acc[(0 : Fin 4)] + heaterDuty (sTherm .run 0 2 false true (2 ^ 148)) 0 ∧
    7 ≤ (sTherm .run 0 2 false false 0).htr.good ∧ (sTherm .run 0 4 false true 0).img.hvUsed.contains 2 = true ∧
    (sTherm .run 0 4 false true 0).img.hvLost ≤ (sTherm .run 0 4 false true 0).hv.missing[(2 : Fin 24)] ∧
    (sTherm .run 0 2 false true 0).hv.missing[(2 : Fin 24)] < (sTherm .run 0 2 false true 0).img.hvLost := by
  decide +kernel

def tagHeader : List Byte := bytes 16 [(0, 9), (8, 7), (12, 100)]

/-- Tag 2 with ID 9 has 30 mm pending and, or not, TXN 5 with 20 mm in flight; region 6 is valid and locked or not. -/
def sTag (st : EngState) (root flight : Bool) (sync : Option (List Nat)) (queue : List Nat) (cur : Option Exchange) : State :=
  let x : Tag := { Tag.reset with id := tagHeader.take 8, present := true, confirmed := 100, pending := 30, txn := 5,
                                  flight := if flight then some (5, 20) else none }
  { sIn st with
    boot := { sIdle.boot with sections := imgTherm }
    otp := { sIdle.otp with valid := if root then 64 else 0, wlock := 64, rlock := 64 }
    host := { sIdle.host with syncReq := sync.map fun l => ({ q := 0, tag := 9, epoch := 0 }, l, 0) }
    cons := { sIdle.cons with queue := queue, cur := cur, tag := sIdle.cons.tag.set 2 x } }

/-- The exchange of tag 2 that waits for its response. -/
def exchange2 (tries polls : Nat) (periodic : Bool) : Exchange :=
  { tag := 2, tries := tries, header := tagHeader, nonce := bytes 16 [(3, 1)], key := bytes 16 [(0, 7)], polls := polls, periodic := periodic }

/-- The response of tag 2 to TXN 5 with a count, whose MAC is right or wrong. -/
def response (count : Nat) (good : Bool) : List Byte :=
  let m := Crypto.cmac (exchange2 1 0 true).key (macInput sIdle (exchange2 1 0 true) 5 20 count)
  [0, 0, 0, 0] ++ toLE 4 count ++ (if good then m else m.map (· + 1))

set_option maxRecDepth 100000 in
theorem witness_Consumables :
    (sTag .idle true false none [] none).takes (hdr 0) ∧ syncState (sTag .idle true false none [] none) = true ∧
    maskTags (sTag .idle true false none [] none) 0 = [2] ∧ maskTags sIdle 0 = [] ∧
    (sTag .idle true false (some [2]) [] none).host.syncReq.isSome = true ∧ (sTag .idle true false none [] none).cons.queue = [] ∧
    (syncList (sTag .idle true false none [2] none)).head? = some 2 ∧ (syncList (sTag .idle true false (some [2]) [] none)).head? = some 2 ∧
    rootUsable (sTag .idle true false none [2] none) = true ∧ rootUsable (sTag .idle false false none [2] none) = false ∧
    tagHeader.take 8 = (sTag .idle true false none [2] none).cons.tag[(2 : Fin 32)].id ∧
    (sTag .idle true false none [2] none).img.tagKind 2 = byteAt tagHeader 8 ∧ (exchange2 1 0 true).header ≠ [] ∧
    byteAt (response 120 true) 0 = 0 ∧ Crypto.cmac (exchange2 1 0 true).key (macInput (sTag .idle true true none [2] (some (exchange2 1 0 true)))
      (exchange2 1 0 true) 5 20 (u32 (response 120 true) 4)) = ((response 120 true).drop 8).take 16 ∧ 100 ≤ u32 (response 120 true) 4 ∧
    (tagHeader.set 0 8).take 8 ≠ (sTag .idle true false none [2] none).cons.tag[(2 : Fin 32)].id ∧
    (sTag .idle true false none [2] none).img.tagKind 2 = byteAt (tagHeader.set 0 8) 8 ∧
    (chargeHeaters (sTag .idle true false none [2] none)).cons.tag[(2 : Fin 32)].pending = 30 ∧
    (exchange2 1 0 true).polls < 9 ∧ 3 ≤ (exchange2 3 0 true).tries :=
  ⟨takes_hdr 0 _ (by decide), by decide +kernel⟩

/-- Controller `i` of three, controllers 1 required and 2 optional; eyelet 1 required of kind 0, eyelet 2 optional of kind 2, node 3 an alias of node 5 of controller 1. -/
def imgRing (group : Nat) : List Section :=
  [{ ty := 4, bytes := bytes 2480 [(0, 3), (1, group), (3, 1), (6, 4), (64, 1), (68, 1), (72, 2), (448, 1), (452, 1), (464, 2), (465, 2), (480, 3), (482, 133)] }]

/-- Enumerated, with ports 0 and 1 up or not, every node live and silent for `miss` cycles, and exchanges waiting for TS_FUP. -/
def sRing (st : EngState) (i : Nat) (up east : Bool) (miss beyond : Nat) : State :=
  let port : RingPort := { RingPort.reset with up := up, forwards := up, t1 := some 640, t2 := some 1000, t4 := some 1152 }
  let node : RingNode := { RingNode.reset with present := true, live := true, missing := miss }
  { sIn st with
    boot := { sIdle.boot with sections := imgRing 0, step := 8 }
    clk := { sIdle.clk with pll := sIdle.clk.pll.map fun x => { x with locked := true } }
    ring := { sIdle.ring with index := i, port := (each 4 port).set 1 { port with up := east, forwards := east }
                              ctrl := each 32 node, node := each 128 node, enumDone := true, beyond := beyond, within := 63 } }

/-- A slot with a good CRC, or a bad one, of the CYCLE `k`. -/
def ringSlot (src hops k : Nat) (words : List Nat) (good : Bool) : Slot :=
  let x : Slot := { src := src, words := words, hops := hops, cycle := k, crc := 0, fwdStale := [] }
  { x with crc := if good then slotCrc x else slotCrc x + 1 }

set_option maxRecDepth 100000 in
theorem witness_RingPortsAndSlots :
    ringOn (sRing .idle 0 false true 0 0) = true ∧ ringOn sIdle = false ∧ (sRing .idle 0 false true 0 0).ring.port[(0 : Fin 4)].up = false ∧
    portTrains (sRing .idle 0 false true 0 0) 0 = true ∧ portTrains (sRing .idle 0 true true 0 0) 0 = false ∧
    slotsRun (sRing .idle 0 true true 0 0) = true ∧ slotsRun sIdle = false ∧ (0x085#12).toNat / 128 ≠ (sRing .idle 0 true true 4 0).ring.index ∧
    (sRing .idle 0 true true 4 0).img.nodeUse 3 = 3 ∧ (sRing .idle 0 true true 4 0).img.nodeType 3 = (0x085#12).toNat ∧
    (sRing .idle 0 true true 4 0).img.lostCyc ≤ (sRing .idle 0 true true 4 0).ring.node[(3 : Fin 128)].missing ∧
    helloAgrees (sRing .idle 0 false true 0 0) 0 0 2 1 = true ∧ helloAgrees (sRing .idle 0 false true 0 0) 0 1 2 1 = false ∧
    (ringPort (sRing .idle 0 true true 0 0) 1).up = true ∧ (ringPort (sRing .idle 0 true false 0 0) 1).up = false ∧
    (sRing .idle 0 true true 0 0).ring.port[(0 : Fin 4)].up = true ∧ portUsed (sRing .idle 0 false true 0 0) 0 = true ∧
    (ringSlot 0 0 0 [] true).src = 128 * (sRing .idle 0 true true 0 0).ring.index ∧ 0 + 1 < nodeCount (sRing .idle 0 true true 0 0) 0 ∧
    (ringPort (sRing .idle 0 true true 0 0) 1).forwards = true ∧ nodeCount (sRing .idle 0 true true 0 0) 0 ≤ 2 + 1 ∧
    slotCrc (ringSlot 128 0 0 [5, 6] true) = (ringSlot 128 0 0 [5, 6] true).crc ∧ slotCrc (ringSlot 128 0 0 [5] false) ≠ (ringSlot 128 0 0 [5] false).crc ∧
    dueCycle (sRing .idle 0 true true 0 0) = 1 ∧ (sRing .idle 0 true true 0 0).ring.lateCycle ≠ some 1 ∧
    (otherControllers (sRing .idle 0 true true 0 0)).contains 1 = true ∧ (ctrlNode (sRing .idle 0 true true 0 0) 1).delivered = false ∧
    (sRing .idle 0 true true 0 0).img.eyelets.contains 1 = true ∧ (eyelet (sRing .idle 0 true true 0 0) 1).delivered = false ∧
    (sRing .idle 0 true true 0 0).img.nodeKind 1 ≠ 3 ∧ bit 2 1 = true ∧ (eyelet (sRing .idle 0 true true 0 0) 1).faultEp = false ∧
    (sRing .idle 0 true true 0 0).ring.port[(0 : Fin 4)].t1 = some 640 ∧ (0 : Int) ≤ ((1152 : Int) - 640 - ((1064 : Int) - 1000)) / 2 ∧
    (sRing .idle 1 true true 0 0).ring.timeMaster = false ∧ steeringPort (sRing .idle 1 true true 0 0) = 0 ∧
    collectorOn (sRing .idle 0 true true 0 0) = true ∧ (sRing .idle 0 true true 0 0).ring.enumDone = true ∧ sIdle.ring.enumDone = false ∧
    (sRing .idle 0 true true 4 0).img.lostCyc ≤ (sRing .idle 0 true true 4 0).ring.ctrl[(1 : Fin 32)].missing ∧
    (sRing .idle 0 true true 3 0).ring.ctrl[(1 : Fin 32)].missing < (sRing .idle 0 true true 3 0).img.lostCyc ∧
    (sRing .idle 0 true true 4 0).ring.node[(1 : Fin 128)].live = true ∧ (sRing .idle 0 true true 4 0).ring.index < 32 ∧
    16 ≤ (sRing .idle 0 true true 0 16).ring.beyond ∧ (sRing .idle 0 true true 0 15).ring.beyond < 16 := by
  decide +kernel

/-- Controller `i` with the ports of the upper ring up, and a power-up slot or a shut-down sequence under way or none. -/
def sSeq (st : EngState) (i : Nat) (up : Option PowerUp) (down : Option ShutDown) : State :=
  { sRing st i true true 0 0 with
    boot := { (sRing st i true true 0 0).boot with sections := imgRing 0 ++ [{ ty := 3, bytes := bytes 600 [(16, 1), (18, 4)] }] }
    pwr := { sIdle.pwr with up := up, down := down } }

/-- A slave in step 8 whose master waits for it, at a VCP. -/
def sSlave (vcp : Nat) : State :=
  { sSeq .boot 1 none none with pwr := { sIdle.pwr with domain := (each 10 2).set 4 0, vcp := vcp } }

def slot4 (acks : BitVec 32) : PowerUp := { slot := 4, compared := true, enabled := true, acks := acks, owed := none }
def off4 (acks : BitVec 32) : ShutDown := { ShutDown.start .host false with slot := 4, begun := true, acks := acks }

def seq (command target source : Nat) : SeqBlock := { command := command, railSlot := 4, source := source, target := target, number := 7 }

/-- In a run group led by controller 0, with a run message that waits, READY sent or not, and the halts held. -/
def sGroup (st : EngState) (i : Nat) (ready : Bool) (halts : List Int) : State :=
  let s := sEntering false
  { s with
    eng := { s.eng with state := st }
    boot := { s.boot with sections := imgPrint ++ imgRing 0 }
    ring := { s.ring with index := i, group := { s.ring.group with msg := if ready then .ready else .none, halts := halts } } }

/-- RUN in the group, the follower at line 10. -/
def sGroupRun (halts : List Int) : State :=
  { sStarting 2 10 with
    boot := { (sStarting 2 10).boot with sections := imgWeb ++ imgRing 0 }
    ring := { (sStarting 2 10).ring with group := { (sStarting 2 10).ring.group with halts := halts } } }

set_option maxRecDepth 100000 in
theorem witness_SequencingAndRunGroups :
    ringOn (sSeq .run 1 none none) = true ∧ ringOn sIdle = false ∧ (ringPort (sSeq .run 1 none none) 0).up = true ∧
    (sSeq .boot 1 none none).eng.state = .boot ∧ tab (sSeq .boot 1 none none).pwr.domain 0 4 = 2 ∧
    tab (sSlave 0).pwr.domain 0 4 ≠ 2 ∧ isSlave (sSlave 0) = true ∧ (sSlave 0).boot.step = 8 ∧ slotsReady (sSlave 0) = false ∧
    slotsReady (sSlave 120) = true ∧ tab (sSlave 120).pwr.domain 0 4 ≠ 2 ∧ isSlave (sSlave 120) = true ∧ ringOn (sSlave 120) = true ∧
    (ringPort (sSlave 120) 0).up = true ∧ (seq 1 1 5).target = (sSlave 120).ring.index ∧ (seq 1 1 5).command = 1 ∧
    (seq 3 0xFF 5).source ≠ (sSeq .run 1 none none).ring.index ∧ (seq 3 0xFF 1).source = (sSeq .run 1 none none).ring.index ∧
    (sSeq .run 1 none none).ring.seqSeen.contains (5, 7) = false ∧ (ringPort (sSeq .run 1 none none) (otherPort 0)).up = true ∧
    (seq 3 2 5).target ≠ 0xFF ∧ (seq 3 2 5).target ≠ (sSeq .run 1 none none).ring.index ∧ (sSeq .run 1 none none).eng.state ≠ .boot ∧
    (sSeq .run 1 none none).eng.state ≠ .down ∧ (sSeq .boot 1 none none).eng.state = .boot ∧ collectorOn (sSeq .boot 1 none none) = true ∧
    isSlave (sSeq .idle 1 none none) = true ∧ isSlave (sSeq .idle 0 none none) = false ∧ (sSeq .idle 1 none none).pwr.down = none ∧
    (sSeq .boot 1 none none).boot.step = 8 ∧ isMaster (sSeq .boot 0 (some (slot4 0)) none) = true ∧
    (sSeq .boot 1 none none).pwr.up = none ∧ (requiredSlaves (sSeq .boot 0 (some (slot4 2)) none)).all (fun i => (2 : BitVec 32).getLsbD i) = true ∧
    (requiredSlaves (sSeq .boot 0 (some (slot4 0)) none)).find? (fun i => !(0 : BitVec 32).getLsbD i) = some 1 ∧
    (sSeq .down 0 none (some (off4 0))).pwr.down = some (off4 0) ∧ (off4 0).cause = .host ∧ (off4 0).begun = true ∧ (off4 0).done = false ∧
    groupLeader (sGroup .armed 0 true []) = true ∧ groupLeader (sGroup .armed 1 true []) = false ∧
    groupMember (sGroup .armed 1 true []) = true ∧ (sGroup .armed 1 true []).host.runWait.isSome = true ∧
    (∀ w ∈ (sGroup .armed 1 true []).host.runWait, (sGroup .armed 1 true []).job? w.job = some job1 ∧
      waitStale w (sGroup .armed 1 true []) = false ∧ entryReady w job1 (sGroup .armed 1 true []) = true) ∧
    (sGroup .armed 1 true []).ring.group.msg = .ready ∧ (sGroup .armed 1 true []).img.group.isSome = true ∧
    (sGroupRun []).eng.state = .run ∧ (sGroupRun []).img.group.isSome = true ∧ (sGroupRun []).line = 10 ∧
    (sGroupRun []).ring.group.halts = [] ∧ (sGroupRun [12, 20]).ring.group.halts ≠ [] ∧ (sGroupRun [12, 9]).ring.group.halts = [12, 9] := by
  decide +kernel

/-- SERVICE at 25.0 °C with VCP good, OTP_ADDR `a` and OTP_DATA `d`; word 0x400 holds 5 in every copy, word 0x401 in two. -/
def sOtp (st : EngState) (a : Nat) (d : Word) (lock : BitVec 16) (job : Option OtpJob) : State :=
  { sIn st with
    therm := { sIdle.therm with tj := 250 }
    pwr := { sIdle.pwr with vcpGood := true, vcp := 120 }
    otp := { sIdle.otp with
      addr := a, data := d, wlock := lock, rlock := lock &&& 0x80, job := job
      cells := [(0x400, { n0 := 5, n1 := 5, n2 := 5, m0 := 5, m1 := 5, m2 := 5 }),
                (0x401, { n0 := 5, n1 := 5, n2 := 4, m0 := 5, m1 := 4, m2 := 4 })] } }

/-- The check word of region 9 is right: every other word is 0. -/
def sOtpRegion (fuse : Bool) (lock : BitVec 16) : State :=
  let c : Word := BitVec.ofNat 32 (crc32c (List.replicate 1020 0))
  { sOtp .service 0x900 1 lock none with
    otp := { (sOtp .service 0x900 1 lock none).otp with
      cells := [(0x9FF, { n0 := c, n1 := c, n2 := c, m0 := c, m1 := c, m2 := c })]
      wFuse := (each 16 OtpCell.blank).set 9 (if fuse then { n0 := 1, n1 := 1, n2 := 0, m0 := 1, m1 := 1, m2 := 0 } else OtpCell.blank) } }

/-- BOOT in step 2, with two words programmed. -/
def sShadow : State :=
  { State.reset with boot := { Boot.reset with step := 2 }, otp := { Otp.reset with cells := (sOtp .service 0x400 7 0 none).otp.cells } }

def otpJob (copy pulses verified : Nat) : OtpJob :=
  { kind := .program, addr := 0x400, data := 7, copy := copy, pulses := pulses, verified := verified, extra := 0 }

set_option maxRecDepth 100000 in
theorem witness_ProgrammingNeverChangesTheShadow :
    sIdle.willReset .otpShadowLoad = false ∧ sIdle.pwr.writing = none ∧ (sShadow.canonical ∧ sShadow.eng.state = .boot ∧ sShadow.boot.step = 2) ∧
    regOpen 0 (sOtp .service 0x400 7 0 none) = true ∧ (sOtp .service 0x400 7 0 (some (otpJob 0 0 0))).otp.job.isSome = true ∧
    (sOtp .idle 0x400 7 0 none).eng.state ≠ .service ∧ (0x10 : BitVec 16).getLsbD (0x400 / 256) = true ∧
    otpConditions (sOtp .service 0x400 7 0 none) = true ∧
    otpConditions { sOtp .service 0x400 7 0 none with therm := { sIdle.therm with tj := 851 } } = false ∧
    freshWord (sOtp .service 0x400 7 0 none) 0x400 &&& ~~~(7 : Word) = 0 ∧ (7 : Word) &&& ~~~(otpCell (sOtp .service 0x400 7 0 none) 0x400).n0 ≠ 0 ∧
    freshWord (sOtp .service 0x400 2 0 none) 0x400 &&& ~~~(2 : Word) ≠ 0 ∧ (sOtp .service 0x700 2 0x80 none).otp.rlock.getLsbD (0x700 / 256) = true ∧
    (otpJob 0 0 0).copy < 3 ∧ (otpJob 2 0 1).copy = 2 ∧ (7 : Word) &&& ~~~(7 : Word) = 0 ∧ (otpJob 0 0 0).pulses < 7 ∧
    (7 : Word) &&& ~~~((jobCell (sOtp .idle 0x400 7 0 (some (otpJob 0 0 0))) (otpJob 0 0 0)).copy 0).2 ≠ 0 := by
  refine ⟨rfl, rfl, ⟨by unfold State.canonical; decide, rfl, rfl⟩, ?_⟩
  decide +kernel

set_option maxRecDepth 100000 in
theorem witness_ProgrammingNeverChangesTheShadow_locks :
    freshMarginal (sOtpRegion false 0) 9 = false ∧ wordsValid (freshRegion (sOtpRegion false 0) 9) = true ∧
    freshMarginal (sOtp .service 0x400 7 0 none) 4 = true ∧ (sOtpRegion false 0).otp.wFuse[(9 : Fin 16)] = OtpCell.blank ∧
    (sOtpRegion true 0).otp.wFuse[(9 : Fin 16)].nominal.getLsbD 0 = true ∧ (sOtpRegion true 0x200).otp.rFuse[(9 : Fin 16)] = OtpCell.blank ∧
    (sOtpRegion true 0x200).otp.wlock.getLsbD 9 = true := by
  decide +kernel

/-- Channel 1 in a state at slot 4, which holds the instruction `o`; the words after it hold bytes; channel 0 is at rest. -/
def sDma (st : ChState) (o : DmaOp) (f : Chan → Chan) : State :=
  let w := encodeDma o
  { sIdle with dma := { sIdle.dma with
      ram := [(8, w.1), (9, w.2), (64, 0x1122334455667788), (65, 0xFFEEDDCCBBAA9988)].filter fun x => x.2 != 0
      ch := sIdle.dma.ch.set 1 (f { Chan.reset with state := st, pc := 4, entry := 9, endAt := 6, vector := 3, irqEn := true }) } }

/-- Channel 1 executes `o`, whose bursts are issued or whose wait goes on. -/
def sAt (st : ChState) (o : DmaOp) (f : Chan → Chan) : State :=
  sDma st o fun c => f { c with cur := some (encodeDma o), issued := decide (st = .running) }

set_option maxRecDepth 100000 in
theorem witness_DmaChannelsAndPrograms :
    dmaWritable (sDma .idle .nop id) = true ∧ (sDma .idle .nop id).dma.ch[(1 : Fin 16)].state = .idle ∧
    (sDma .running .nop id).dma.ch[(1 : Fin 16)].cur = none ∧ (sAt .running .nop id).dma.ch[(1 : Fin 16)].cur.isSome = true ∧
    (sDma .idle .nop id).dma.cu[(2 : Fin 4)].busy = false ∧ dmaOn (sDma .running .nop id) = true ∧ slotBad (sDma .running .nop id) 4 = false ∧
    decodeDma (dmaSlot (sDma .running .nop id) 4) = some .nop ∧ decodeDma (dmaSlot (sDma .running (.jump 7) id) 4) = some (.jump 7) ∧
    decodeDma (dmaSlot (sDma .running .done id) 4) = some .done ∧ decodeDma (dmaSlot (sDma .running (.loop 3 2) id) 4) = some (.loop 3 2) ∧
    decodeDma (dmaSlot (sDma .running (.wait 2 20 0) id) 4) = some (.wait 2 20 0) ∧
    decodeDma (dmaSlot (sDma .running (.signal true false true true 5) id) 4) = some (.signal true false true true 5) ∧
    decodeDma (dmaSlot (sDma .running (.move false true 4 0 512 64 16) id) 4) = some (.move false true 4 0 512 64 16) ∧
    decodeDma (dmaSlot (sDma .running (.move false true 5 0 512 64 16) id) 4) = some (.move false true 5 0 512 64 16) ∧
    decodeDma (dmaSlot (sDma .running (.move false true 0 4 512 64 16) id) 4) = some (.move false true 0 4 512 64 16) ∧
    decodeDma (dmaSlot (sDma .running (.scan true true false 2 4 512 16) id) 4) = some (.scan true true false 2 4 512 16) ∧
    loopOnTop (sDma .running (.loop 3 2) id).dma.ch[(1 : Fin 16)] = false ∧ lowerScan (sDma .running (.scan true true false 2 4 512 16) id) 1 2 = false ∧
    (sDma .running .nop id).dma.ramBad = [] ∧ (sDma .running .nop id).host.msixMask.getLsbD 3 = false ∧
    (sAt .waiting (.wait 0 0 0) fun c => { c with dbPend := true }).dma.ch[(1 : Fin 16)].dbPend = true ∧
    lowerWaits (sAt .waiting (.wait 2 3 0) id) 1 3 = false ∧ (sAt .running .nop id).dma.ch[(1 : Fin 16)].issued = true ∧
    (sAt .running .nop fun c => { c with hostOut := some 5 }).dma.ch[(1 : Fin 16)].hostOut.isSome = true ∧
    (∀ j : Fin 16, (sDma .running .nop id).dma.ch[j].work = none) ∧ dmaAlone (sDma .running .nop id) 1 = true ∧
    dmaAlone (sDma .running (.move false true 4 0 512 64 16) id) 1 = true ∧ dmaAlone (sDma .running (.scan true true false 2 4 512 16) id) 1 = true ∧
    (sDma .running .nop id).dma.ch[(1 : Fin 16)].failed = none ∧ (sDma .running .nop id).dma.ch[(1 : Fin 16)].hostOut = none ∧
    decodeDma (chanWords { sIdle with dma := { sIdle.dma with ram := [] } } Chan.reset) = none := by
  decide +kernel

/-- The test controller at work, 100 s after power-on, with a lap limit of 2 s: whether each lap has failed, the limit raised for it, its
start and the parts that have passed. -/
def sTest (st : EngState) (failed raised : Bool) (start : Nat) (done : List Nat) : State :=
  { sIn st with
    eng := { (sIn st).eng with sincePor := 10000000000 }
    ist := { sIdle.ist with
             en := 0x7E, lapLim := 2, tdc := each 8 65435
             ring := (each 4 none).set 1 (some (0, 0, 16))
             test := each 7 { IstTest.fresh with failed := failed, lapRaised := raised, laps := 4, running := true, start := start
                                                 passed := done } }
    law := { sIdle.law with budget := 64 }
    ring := { sIdle.ring with port := sIdle.ring.port.map fun p => { p with up := true } } }

def sTested (failed : Bool) : State := sTest .run failed false 9800000000 []

set_option maxRecDepth 100000 in
theorem witness_InServiceTestAndBoundaryScan :
    istOn (sTested false) = true ∧ (sTested false).ist.en.getLsbD 1 = true ∧ (sTested false).ist.en.getLsbD 0 = false ∧
    istFree (sTested false) (.lane 3 true true) = true ∧ istFree (sTested false) (.march 8191 5 .clean .clean) = true ∧
    istFree (sTested false) (.word false 60000 true true) = true ∧ istFree (sTested false) (.cell [0, 2000, -2000, 2001]) = true ∧
    istFree (sTested false) (.tdc 0 100 511 9500) = true ∧ istFree (sTested false) (.gate 7 6 (some 2000)) = true ∧
    istFree (sTested false) (.port 1 0) = true ∧ istFree (sTested false) (.word false 65536 true true) = false ∧
    istFree (sTested false) (.march 8192 0 .clean .clean) = false ∧ (sTested false).ist.lapLim * 100000000 = 10000000000 - 9800000000 ∧
    (sTest .run false false 9799999999 []).ist.lapLim * 100000000 < 10000000000 - 9799999999 ∧ mergeOf (sTested false) 0 = none ∧
    (∀ r : Fin 8, (sTested false).store.remap[r] = none) ∧ istItem (sTested false) (.cell []) = 0 ∧
    trefNear 0 [0, 2000, -2000, 2001] = true ∧ trefNear 0 [0, 2000, -2001, 2001] = false ∧
    (sTested false).ist.tdc[(0 : Fin 8)] + 100 = 65535 ∧ (sTested true).ist.test[(3 : Fin 7)].failed = true ∧
    (sTested false).ist.berLim = 16 ∧ (sTested false).ring.port[(1 : Fin 4)].endBad = 0 ∧ (8 * 10 ^ 12 ≤ 825 * (10000000000 - 0)) ∧
    (sTest .safe false false 0 []).eng.state = .safe ∧ (sTested false).eng.state ≠ .down ∧
    (sTested false).flt.active.has 0x000 = false ∧ collectorOn (sTested false) = true := by
  decide +kernel

set_option maxRecDepth 100000 in
theorem witness_InServiceTestAndBoundaryScan_lap :
    lapDone (sTest .run false false 0 (List.range 64)) 0 = true ∧ lapDone (sTest .run false false 0 (List.range 63)) 0 = false ∧
    lapDone (sTested false) 3 = false ∧
    (let s := sTest .idle false false 9800000000 []
     s.pending = [] ∧ istOn s = true ∧ s.eng.state = .idle ∧ s.flt.rearm = false ∧ s.flt.evtTick = none ∧
       (∀ n : Fin 8, s.sp[n].turn = none) ∧ s.anch.eyeOn = false ∧ s.clk.returnReady = false ∧
       s.ist.test[(6 : Fin 7)].running = true ∧ s.ist.test[(6 : Fin 7)].lapRaised = false ∧
       s.ist.lapLim * 100000000 < s.eng.sincePor + 1 - s.ist.test[(6 : Fin 7)].start) := by
  decide +kernel

theorem witness_InServiceTestAndBoundaryScan_tables : (sTested false).canonical ∧ (sTested true).canonical ∧
    (sDma .idle .nop id).canonical ∧ (sDma .running (.scan true true false 2 4 512 16) id).canonical ∧ (sAt .running .nop id).canonical ∧
    (sOtp .idle 0x400 7 0 (some (otpJob 0 0 0))).canonical := by
  unfold State.canonical
  decide +kernel


-- Chapter 01: general statements

theorem witness_IdleStepLetsTickPass : sIdle.pending = [] ∧ sIdle.flt.rearm = false ∧ sIdle.flt.evtTick = none ∧
    (∀ n : Fin 8, sIdle.sp[n].turn = none) ∧ (∀ k : Fin 7, sIdle.ist.test[k].running = false) ∧ istOn State.reset = false ∧
    sIdle.anch.eyeOn = false := by decide

/-- DOWN. -/
def sDown : State := { sIdle with eng := { sIdle.eng with state := .down } }

theorem witness_CommandsAnswerAndKeepQueue :
    sDown.eng.state = .down ∧ movedNow sDown = false ∧ sDown.willReset .holdupLow = false ∧
    Instr.sparesFaults .powerFailArming = true ∧ Instr.sparesEngine .powerFailArming = true ∧
    (∃ t, exec .powerFailArming sIdle = .next t ∧ t.eng.state = .idle ∧ sIdle.eng.state = .idle) :=
  ⟨rfl, by decide, rfl, rfl, rfl, ⟨_, rfl, rfl, rfl⟩⟩

/-- IDLE with a tick to pass. -/
theorem witness_CanonicalKept : sIdle.canonical ∧ step sIdle = .next (tick sIdle) :=
  ⟨by unfold State.canonical; decide, rfl⟩

theorem witness_StoreAndLawDataFrame :
    (∃ t, exec .powerFailArming sIdle = .next t) ∧ Instr.mayChangeStore .powerFailArming = false ∧
    Instr.mayChangeLawData .powerFailArming = false :=
  ⟨⟨_, rfl⟩, rfl, rfl⟩

theorem witness_WebPositionFrame :
    sIdle.willReset .holdupLow = false ∧ (∀ o w v, Instr.holdupLow ≠ .registerWrite o w v) ∧
    (∀ h p x, Instr.holdupLow ≠ .sectionLoad h p x) ∧ (∃ t, exec .holdupLow sIdle = .next t) ∧
    (∀ n a b, Instr.holdupLow ≠ .anchorCount n a b) ∧ (∀ k u, Instr.holdupLow ≠ .eyeletAnchorReport k u) ∧
    Instr.holdupLow ≠ .anchorStale ∧ (∀ n, Instr.holdupLow ≠ .anchorZPulse n) ∧ Instr.holdupLow ≠ .webStandstill ∧
    Instr.holdupLow ≠ .facetReferencePulse ∧ (∀ n f a x, Instr.holdupLow ≠ .cameraMarkReport n f a x) ∧
    (∀ q e r, Instr.holdupLow ≠ .entryTakeUp q e r) ∧ Instr.holdupLow ≠ .otpShadowLoad ∧
    (∀ i, Instr.holdupLow ≠ .pllUnlock i) := by
  refine ⟨rfl, ?_, ?_, ⟨_, rfl⟩, ?_⟩ <;> simp

theorem witness_DmaDriveAndServiceFrame :
    sIdle.willReset .holdupLow = false ∧ (∀ o w v, Instr.holdupLow ≠ .registerWrite o w v) ∧
    (∃ t, exec .holdupLow sIdle = .next t) ∧ Instr.isDma .holdupLow = false ∧ (∀ k, Instr.holdupLow ≠ .hostLinkReset k) ∧
    (∀ i, Instr.holdupLow ≠ .pllUnlock i) ∧ Instr.holdupLow ≠ .baseSampleBoundary ∧ Instr.holdupLow ≠ .inputWindowClose ∧
    (∀ n m, Instr.holdupLow ≠ .pwmPeriod n m) ∧ (∀ k x, Instr.holdupLow ≠ .istTestStep k x) ∧
    (∀ r, Instr.holdupLow ≠ .sensorConversion r) ∧ (∀ h p x, Instr.holdupLow ≠ .sectionLoad h p x) ∧
    (∀ i a, Instr.holdupLow ≠ .tagSynchronisation i a) := by
  refine ⟨rfl, ?_, ⟨_, rfl⟩, rfl, ?_⟩ <;> simp

-- Chapter 02: the boot

/-- BOOT in step `k`, with PD1 operating and the sections given. -/
def sBoot (k : Nat) (l : List Section) : State :=
  { State.reset with boot := { Boot.reset with step := k, sections := l }
                     pwr := { Power.reset with domain := each 10 2 } }

/-- A shut-down sequence in slot `slot`. -/
def seqDown (cause : ShutCause) (slot : Nat) (begun done : Bool) (wait : BitVec 12) : ShutDown :=
  { cause := cause, origin := cause, slot := slot, begun := begun, wait := wait, owed := none, acks := 0, done := done, endTick := 0,
    returned := false, cutUp := false, early := 0, noDis := 0 }

/-- Power failed, and the sequence ended 100 ms ago. -/
def sPowerBack : State :=
  { sBoot 12 [] with eng := { Engine.reset with state := .down, time := 10000000 }
                     pwr := { Power.reset with down := some (seqDown .powerFail 1 true true 0), vcp := 120, vcpSince := some 9000000 } }

theorem witness_PowerOnStartsBoot :
    sIdle.pwr.writing = none ∧ sPowerBack.pwr.down = some (seqDown .powerFail 1 true true 0) ∧
    (seqDown .powerFail 1 true true 0).done = true ∧ (seqDown .powerFail 1 true true 0).origin = .powerFail ∧
    sPowerBack.pwr.vcpSince = some 9000000 ∧ 9000000 + 1000000 ≤ sPowerBack.eng.time ∧
    (seqDown .powerFail 1 true true 0).endTick + 10000000 ≤ sPowerBack.eng.time := by
  decide

/-- Slot headers of an image of 16,000 bytes with SEQUENCE 3 and 2. -/
def slotHeaderA : List Byte := bytes 64 [(0, 72), (1, 71), (2, 83), (3, 73), (4, 1), (6, 64), (8, 128), (9, 62), (12, 4), (14, 1), (24, 80), (25, 129), (28, 3), (60, 152), (61, 171), (62, 5), (63, 103)]
def slotHeaderB : List Byte := bytes 64 [(0, 72), (1, 71), (2, 83), (3, 73), (4, 1), (6, 64), (8, 128), (9, 62), (12, 4), (14, 1), (24, 80), (25, 129), (28, 2), (60, 83), (61, 123), (62, 163), (63, 90)]

/-- BOOT in step 5 with region 5 valid and SECURE_BOOT_EN set. -/
def sSecure : State :=
  { sBoot 5 [] with otp := { Otp.reset with valid := 0x20, shadow := [(1288, 1)] } }

set_option maxRecDepth 100000 in
theorem witness_EarlyBootSteps :
    (sBoot 2 []).eng.state = .boot ∧ (sBoot 2 []).boot.step = 2 ∧ (sBoot 3 []).boot.step = 3 ∧ (sBoot 4 []).boot.step = 4 ∧
    (sBoot 4 []).clk.pll[0].locked = false ∧ (sBoot 4 []).clk.pll[0].attempts < 2 ∧
    (bandSearch [250, 260, 255, 256, 270, 256]).2 = false ∧ sSecure.eng.state = .boot ∧ sSecure.boot.step = 5 ∧
    bit (overrides sSecure) 2 = false ∧ headerOk slotHeaderA = true ∧ headerOk slotHeaderB = true ∧
    regionInvalid sSecure 5 = false ∧ secureBoot sSecure = true := by
  decide +kernel

/-- An image of three empty sections, signed under the key 7·G (its signature computed outside the model). -/
def signedPart : List Byte :=
  bytes 64 [(0, 72), (1, 71), (2, 83), (3, 73), (4, 1), (6, 64), (8, 16), (9, 1), (12, 4), (14, 1), (24, 80), (25, 129), (28, 1), (60, 176), (61, 35), (62, 200), (63, 161)] ++
  bytes 48 [(0, 1), (1, 1), (12, 172), (13, 150), (14, 96), (15, 141), (16, 2), (17, 1), (28, 252), (29, 234), (30, 242), (31, 222), (32, 3), (33, 1), (44, 204), (45, 62), (46, 131), (47, 239)]
def signedImage : List Byte :=
  signedPart ++
  bytes 16 [(0, 127), (1, 1), (4, 132), (8, 237), (9, 175), (10, 225), (11, 225), (12, 153), (13, 101), (14, 131), (15, 223)] ++
  [4] ++ Crypto.toBE 32 0x8e533b6fa0bf7b4625bb30667c01fb607ef9f8b8a80fef5b300628703187b2a3 ++
  Crypto.toBE 32 0x73eb1dbde03318366d069f83a6f5900053c73633cb041b21c55e1a86c1f400b4 ++ [0, 0, 0] ++
  Crypto.toBE 32 0x3ed113b7883b4c590638379db0c21cda16742ed0255048bf433391d374bc21d1 ++
  Crypto.toBE 32 0xa491ce3cea093cabd7967792f8e5c7f6ada0096833e7544437f71bc89daf439a ++ List.replicate 12 0

/-- BOOT in step 6 with the header of that image and the key's hash in region 5. -/
def sSigned : State :=
  { sBoot 6 [] with
    boot := { (sBoot 6 []).boot with hdr0 := signedPart.take 64 }
    otp := { Otp.reset with valid := 0x20, shadow := [(1280, 0x1c4d3eb3), (1281, 0x8927df20), (1282, 0x31e72512), (1283, 0x4b2350ac), (1284, 0xc42e202a), (1285, 0xbf272444), (1286, 0xa62ce6ba), (1287, 0xb493f3a6), (1288, 1)] } }

/-- A DEVICE section with one station enabled, and BOOT in step 7 at its place. -/
def deviceHeader : List Byte := bytes 16 [(0, 1), (1, 1), (4, 32), (8, 132), (9, 125), (10, 231), (11, 160), (12, 3), (13, 166), (14, 214), (15, 95)]
def devicePayload : List Byte := bytes 32 [(0, 1), (8, 232), (9, 3), (10, 184), (11, 11)]
def sWalk : State := { sBoot 7 [] with boot := { (sBoot 7 []).boot with hdr0 := slotHeaderA, walkPos := 64 } }

set_option maxRecDepth 100000 in
theorem witness_ImageStepsLoad :
    sSigned.eng.state = .boot ∧ sSigned.boot.step = 6 ∧
    findSignature signedImage (imageLen sSigned) 262144 64 0 [] = .inl 112 ∧
    checkSignature sSigned signedImage 112 = .inl 0x5a8c529e54c684ee17ed9e00dc90cda428303a64f248891ace943f07a7734052 ∧
    sWalk.eng.state = .boot ∧ sWalk.boot.step = 7 ∧
    sectionHeader deviceHeader sWalk.boot.walkPos sWalk.boot.walkCount (imageLen sWalk) sWalk.boot.seen = none ∧
    imageChanged sWalk deviceHeader = false ∧ sectionBody sWalk deviceHeader devicePayload [] = none ∧
    sWalk.boot.walkPos + 16 + padded devicePayload.length ≠ imageLen sWalk := by
  decide +kernel


/-- Measurements of step 9 that every limit admits: 128 cells of 8,192 hits, and pairs and references without an error. -/
def goodMeas : CalibMeas :=
  { tdc := List.replicate 8 (List.replicate 128 8192 ++ List.replicate 32 0, 10), isense := List.replicate 8 [(5, 20)], tref := [0, 1, 2, 3] }

/-- An enumeration by a press of one controller without eyelets. -/
def soloReport : EnumReport :=
  { masterTime := 5, controllers := [], eyelets := [], aliases := [], upperDelays := [], subDelays := [] }

/-- Stage link 0 in use; training or down. -/
def sLink (st : EngState) (training : Bool) : State :=
  { sIn st with
    boot := { sIdle.boot with sections := [{ ty := 5, bytes := bytes 496 [(0, 196), (1, 9), (112, 1)] }] }
    stage := (each 8 StageLink.reset).set 0 { StageLink.reset with training := training } }

/-- A ring of two controllers whose other one is not used yet. -/
def imgPair : List Section := [{ ty := 4, bytes := bytes 2480 [(0, 2), (3, 1), (6, 4), (64, 1)] }]

/-- BOOT in step 10, `n` cycles after ring time was set, on the time master or not, synchronised or not. -/
def sTimed (n : Nat) (master synced : Bool) : State :=
  { sBoot 10 (imgRing 0) with ring := { (sBoot 10 []).ring with timeSet := some n, timeMaster := master, synced := synced } }

theorem goodMeas_passes : ∀ i < 17, (calibFresh goodMeas i).isSome = true := by decide +kernel

set_option maxRecDepth 100000 in
theorem witness_LateBootSteps :
    (sBoot 9 []).eng.state = .boot ∧ (sBoot 9 []).boot.step = 9 ∧ (sBoot 10 []).boot.step = 10 ∧
    enumFails (setRingTime soloReport (sBoot 10 [])) soloReport = none ∧
    enumMissing (noteSerials soloReport (noteNodes soloReport (setRingTime soloReport (sBoot 10 [])))) soloReport = false ∧
    enumFails (setRingTime soloReport (sBoot 10 imgPair)) soloReport = none ∧
    enumMissing (noteSerials soloReport (noteNodes soloReport (setRingTime soloReport (sBoot 10 imgPair)))) soloReport = false ∧
    1 < (sBoot 10 imgPair).img.controllers ∧ (sBoot 10 imgPair).ring.timeSet = none ∧
    (sBoot 10 []).ring.timeSet = none ∧ (sBoot 10 []).img.controllers ≤ 1 ∧ 1 < (sBoot 10 (imgRing 0)).img.controllers ∧
    (sTimed 63 true true).eng.state = .boot ∧ (sTimed 63 true true).boot.step = 10 ∧ (sTimed 63 true true).ring.timeSet = some 63 ∧
    (sTimed 64 true true).ring.timeMaster = true ∧ (sTimed 64 false true).ring.synced = true ∧
    (sTimed 64 false false).ring.timeMaster = false ∧ (sTimed 64 false false).ring.synced = false ∧ collectorOn (sTimed 64 false false) = true ∧
    (sLink .idle true).eng.state ≠ .boot ∧ (sLink .idle true).stage[(0 : Fin 8)].training = true ∧
    2400 + 100 ≤ (sLink .idle true).img.tIn ∧ (sLink .armed false).eng.state = .armed ∧ (sLink .armed false).img.linkUse 0 ≠ 0 ∧
    (sLink .armed false).stage[(0 : Fin 8)].up = false ∧ (sLink .armed false).stage[(0 : Fin 8)].training = false := by
  decide +kernel

/-- A POWER_SEQ section of two slots: rail 0 in on-slot 0 and off-slot 1, rail 1 in on-slot 1 and off-slot 0, their power-good pins
in use. -/
def imgRails : List Section :=
  [{ ty := 3, bytes := bytes 600 [(0, 2), (4, 100), (32, 1), (34, 1), (35, 2), (64, 1), (65, 1), (67, 2)] }]

/-- The same with rail 0 of mode 0. -/
def imgBlind : List Section := [{ ty := 3, bytes := bytes 600 [(0, 2), (4, 100), (32, 1), (34, 1), (64, 1), (65, 1), (67, 2)] }]

/-- BOOT in step 8 with on-slot `slot` enabled and the rails that `good` names on and good. -/
def sPowering (up : Option PowerUp) (en good : BitVec 12) : State :=
  { sBoot 8 imgRails with
    boot := { (sBoot 8 imgRails).boot with linkTrained := true }
    clk := { Clock.reset with pll := Clock.reset.pll.map fun p => { p with locked := true } }
    pwr := { (sBoot 8 imgRails).pwr with up := up, en := en, good := good, vcpGood := true, vcp := 120, cMeas := 200
                                         domain := (each 10 2).set 4 0 } }

def upSlot (slot : Nat) : PowerUp := { slot := slot, compared := true, enabled := true, acks := 0, owed := none }

/-- The same on a slave whose ports are up, and with rail 0 of mode 0. -/
def sSlavePowering : State :=
  { sPowering none 0 0 with boot := { (sPowering none 0 0).boot with sections := imgRails ++ imgRing 0 }
                            ring := { sIdle.ring with index := 1, port := (each 4 RingPort.reset).map fun p => { p with up := true } } }
def sBlind : State := { sPowering (some (upSlot 0)) 1 0 with boot := { (sPowering none 0 0).boot with sections := imgBlind } }

/-- A shut-down sequence under way in IDLE. -/
def sDowning (d : ShutDown) (en good : BitVec 12) : State :=
  { sIdle with boot := { sIdle.boot with sections := imgRails }, pwr := { sIdle.pwr with down := some d, en := en, good := good } }

set_option maxRecDepth 100000 in
theorem witness_BootFailureEntersSafe :
    (sPowering (some (upSlot 0)) 1 0).eng.state = .boot ∧ collectorOn (sPowering (some (upSlot 0)) 1 0) = true ∧
    (sPowering (some (upSlot 0)) 1 0).pwr.en ≠ 0 ∧ (sBoot 3 []).boot.step = 3 ∧ collectorOn (sBoot 3 []) = true ∧
    (sPowering (some (upSlot 0)) 1 0).pwr.up = some (upSlot 0) ∧ (upSlot 0).enabled = true ∧
    (sPowering (some (upSlot 0)) 1 0).img.onSlot 0 = (upSlot 0).slot ∧ (sPowering (some (upSlot 0)) 1 0).img.railUse 0 = true ∧
    (sPowering (some (upSlot 0)) 1 0).img.pgMode 0 ≠ 0 ∧
    (sPowering (some (upSlot 0)) 1 0).pwr.en.getLsbD 0 = true ∧ (sPowering (some (upSlot 0)) 1 0).pwr.good.getLsbD 0 = false := by
  decide +kernel

set_option maxRecDepth 100000 in
theorem witness_RailSequence :
    (sPowering none 0 0).eng.state = .boot ∧ (sPowering none 0 0).boot.step = 8 ∧ isSlave (sPowering none 0 0) = false ∧
    (sPowering none 0 0).pwr.up = none ∧ slotsReady (sPowering none 0 0) = true ∧ slotsReady (sBoot 8 imgRails) = false ∧
    sSlavePowering.eng.state = .boot ∧ sSlavePowering.boot.step = 8 ∧ sSlavePowering.pwr.up = none ∧ slotsReady sSlavePowering = true ∧
    isSlave sSlavePowering = true ∧ tab sSlavePowering.pwr.domain 0 4 ≠ 2 ∧ sSlavePowering.img.holdCMin ≤ sSlavePowering.pwr.cMeas ∧
    sBlind.eng.state = .boot ∧ sBlind.pwr.up = some (upSlot 0) ∧ (upSlot 0).enabled = true ∧ (upSlot 0).owed = none ∧
    sBlind.img.onSlot 0 = (upSlot 0).slot ∧ sBlind.img.railUse 0 = true ∧ sBlind.pwr.en.getLsbD 0 = true ∧
    sBlind.pwr.good.getLsbD 0 = false ∧ sBlind.img.pgMode 0 = 0 ∧ railAfter sBlind 0 (sBlind.img.pgTmo 0) = true ∧
    railAfter sBlind 0 (sBlind.img.disTmo 0) = true ∧
    (sPowering (some (upSlot 0)) 1 0).img.pgMode 0 ≠ 0 ∧ railSensed (sPowering (some (upSlot 0)) 1 0) 0 = true ∧
    tab (sPowering none 0 0).pwr.domain 0 4 ≠ 2 ∧ (sPowering none 0 0).img.holdCMin ≤ (sPowering none 0 0).pwr.cMeas ∧
    upSlotDone (sPowering (some (upSlot 0)) 1 1) (upSlot 0) = true ∧ (upSlot 0).slot + 1 < (sPowering (some (upSlot 0)) 1 1).img.slots ∧
    upSlotDone (sPowering (some (upSlot 1)) 3 3) (upSlot 1) = true ∧ (sPowering (some (upSlot 1)) 3 3).img.slots ≤ (upSlot 1).slot + 1 ∧
    (sPowering (some (upSlot 0)) 1 0).img.railUse 0 = true ∧ (sPowering (some (upSlot 0)) 1 0).pwr.en.getLsbD 0 = true := by
  decide +kernel

set_option maxRecDepth 100000 in
theorem witness_RailSequence_down :
    (sDowning (seqDown .critical 0 false false 0) 3 3).pwr.down = some (seqDown .critical 0 false false 0) ∧
    (seqDown .critical 0 false false 0).done = false ∧ (sDowning (seqDown .critical 0 false false 0) 3 3).pwr.writing = none ∧
    (seqDown .critical 0 false false 0).cause ≠ .masterStep ∧ (seqDown .critical 0 false false 0).begun = false ∧
    (seqDown .critical 0 false false 0).slot < (sDowning (seqDown .critical 0 false false 0) 3 3).img.slots ∧
    downSlotDone (sDowning (seqDown .critical 1 true false 0) 0 0) (seqDown .critical 1 true false 0) = true ∧
    (sDowning (seqDown .critical 1 true false 0) 0 0).img.slots ≤ (seqDown .critical 1 true false 0).slot + 1 ∧
    (seqDown .critical 1 true false 0).cause ≠ .bootFail ∧ (sDowning (seqDown .critical 0 true false 2) 1 3).pwr.en.getLsbD 1 = false := by
  decide +kernel

set_option maxRecDepth 100000 in
theorem witness_PowerFaults :
    collectorOn (sDowning (seqDown .critical 0 true false 2) 1 3) = true ∧
    (sDowning (seqDown .critical 0 true false 2) 1 3).pwr.down = some (seqDown .critical 0 true false 2) ∧
    (seqDown .critical 0 true false 2).done = false ∧ (seqDown .critical 0 true false 2).begun = true ∧
    (seqDown .critical 0 true false 2).wait.getLsbD 1 = true ∧
    (sDowning (seqDown .critical 0 true false 2) 1 3).img.offSlot 1 ≤ (seqDown .critical 0 true false 2).slot ∧
    (sDowning (seqDown .critical 0 true false 2) 1 3).img.railUse 1 = true ∧
    (sDowning (seqDown .critical 0 true false 2) 1 3).img.pgMode 1 = 2 ∧
    (let s : State := { sDowning (seqDown .critical 0 true false 2) 3 3 with pwr := { sIdle.pwr with en := 3, good := 3 } }
     collectorOn s = true ∧ s.img.railUse 0 = true ∧ s.pwr.good.getLsbD 0 = true ∧ s.pwr.down = none ∧ s.pwr.up = none ∧
     s.pwr.en.getLsbD 0 = true) := by
  decide +kernel

/-- Power-fail detection is armed; a record is being written or not, and a reset follows it or not. -/
def sRecord (w : Option (List Byte)) (owed : Option (BitVec 5)) : State :=
  { sIdle with pwr := { sIdle.pwr with armed := true, vcpGood := true, vcp := 120, writing := w, resetOwed := owed } }

theorem witness_PowerFailureEndsInDown :
    collectorOn (sRecord none none) = true ∧ (sRecord none none).pwr.armed = true ∧ (sRecord none none).pwr.writing = none ∧
    (sRecord none none).eng.state ≠ .down ∧ (sRecord none none).pwr.vcpGood = true ∧
    (sRecord (some [1]) none).pwr.writing = some [1] ∧ (sRecord (some [1]) none).pwr.resetOwed = none ∧
    (sRecord (some [1]) (some 3)).pwr.writing = some [1] ∧ (sRecord (some [1]) (some 3)).pwr.resetOwed = some 3 := by
  decide

set_option maxRecDepth 100000 in
theorem witness_SupplyRegisters :
    sIdle.pwr.cMeas = 0 ∧ 2 < (sBoot 3 []).boot.step ∧ sIdle.img.pfVcp + 3 < 120 ∧ 98 ≤ sIdle.img.pfVcp + 3 ∧ regOpen 0 sIdle = true ∧ sIdle.eng.state = .idle := by
  decide +kernel


-- Instruction words written out from the encoding tables of chapters 10 and 17

theorem test_dma_words_of_the_worked_example :
    decodeDma (0x0000000000180203, 0) = some (.wait 2 24 0) ∧
    decodeDma (0x0000000800003201, 0x0040000012340000) = some (.move false true 3 0 0x8000 0x12340000 1024) ∧
    decodeDma (0x0000000000040002, 2) = some (.loop 4 2) ∧ decodeDma (0x0304, 0) = some (.signal true true false false 0) ∧
    decodeDma (0x0504, 0) = some (.signal true false true false 0) ∧ decodeDma (6, 0) = some (.jump 0) ∧
    decodeDma (0x07, 5) = some .done ∧ decodeDma (0x0F, 5) = some .nop ∧
    decodeDma (0x0000000010023105, 0) = some (.scan true false false 3 2 0x100 1048576) := by decide

theorem test_dma_illegal_words :
    decodeDma (0, 0) = none ∧ decodeDma (0x08, 0) = none ∧ decodeDma (0x0401, 0) = none ∧ decodeDma (0x02, 2) = none ∧
    decodeDma (0x00010002, 0) = none ∧ decodeDma (0x0303, 0) = none ∧ decodeDma (0x1D0203, 0) = none ∧ decodeDma (0x0103, 0) = none ∧
    decodeDma (0x100004, 0) = none ∧ decodeDma (0x4005, 1) = none ∧ decodeDma (0x0106, 0) = none ∧ decodeDma (6, 16384) = none ∧
    decodeDma (0x0107, 0) = none := by decide

theorem test_law_words :
    decodeLaw 0x0100002800000003 = some (.ld LawExec.clean 0x28 0 3) ∧ decodeLaw 0x0301002A3F800000 = some (.mov LawExec.clean true 0x2A 0x3F80 0) ∧
    decodeLaw 0x0C0300050006000A = some (.cmp LawExec.clean 3 5 6 10) ∧ decodeLaw 0x0D01000000070003 = some (.brf LawExec.clean true 7 3) ∧
    decodeLaw 0x2301000120002100 = some (.biq LawExec.clean true 1 0x2000 0x2100) ∧
    decodeLaw 0x3001001000200000 = some (.clarke LawExec.clean true 0x10 0x20) ∧
    decodeLaw 0x42000001000200FF = some (.share LawExec.clean 1 2 255) ∧ decodeLaw 0x5000000101000000 = some (.inp LawExec.clean 1 0x100) ∧
    decodeLaw 0x5100000000041203 = some (.out LawExec.clean 4 0x1203) ∧ decodeLaw 0x7F00000000000000 = some (.endp LawExec.clean) := by
  decide

theorem test_law_illegal_words :
    decodeLaw 0 = none ∧ decodeLaw 0x0E00000000000000 = none ∧ decodeLaw 0x0401000000000000 = none ∧ decodeLaw 0x0400800000000000 = none ∧
    decodeLaw 0x0C06000000000000 = none ∧ decodeLaw 0x0D00000000000000 = none ∧ decodeLaw 0x010000007F010000 = none ∧
    decodeLaw 0x0301000000007F80 = some (.mov LawExec.clean true 0 0 0x7F80) ∧ decodeLaw 0x030100007F800000 = none ∧
    decodeLaw 0x23010000 = none ∧ decodeLaw 0x2301000000007FF8 = some (.biq LawExec.clean true 0 0 0x7FF8) ∧
    decodeLaw 0x2301000000007FF9 = none ∧ decodeLaw 0x50000001000B0000 = none ∧ decodeLaw 0x5100000000040100 = none := by
  decide

-- Sums, products and roundings computed by hand from R296

theorem test_law_arithmetic :
    ((Fp.FNum.of 0x3FC00000).add (Fp.FNum.of 0xC0100000)).v = 0xBF400000 ∧ ((Fp.FNum.of 0x3FC00000).mul (Fp.FNum.of 0xC0100000)).v = 0xC0580000 ∧
    ((Fp.FNum.of 0x3F800000).mac (Fp.FNum.of 0x3F800001) (Fp.FNum.of 0x3F800001)).v = 0x40000001 ∧
    ((Fp.FNum.of 0x7F7FFFFF).add (Fp.FNum.of 0x7F7FFFFF)).v = 0x7F7FFFFF ∧ ((Fp.FNum.of 0x00000001).add (Fp.FNum.of 0x00000001)).v = 0 ∧
    ((Fp.FNum.of 0x00800000).mul (Fp.FNum.of 0x3F000000)).v = 0 ∧ ((Fp.FNum.of 0x3F800000).add (Fp.FNum.of 0x33800000)).v = 0x3F800000 ∧
    ((Fp.FNum.of 0x3F800001).add (Fp.FNum.of 0x33800000)).v = 0x3F800002 := by
  decide +kernel

/-- The data word that a step leaves at an index. -/
def dataAfter (i : Instr) (n : Nat) : Option F32 :=
  match exec i (fetchOf i) with
  | .next t => some (dget t n).v
  | _ => none

set_option maxRecDepth 100000 in
theorem test_law_results :
    dataAfter (.sub LawExec.clean 40 0 1) 40 = some 0x40700000 ∧ dataAfter (.abs LawExec.clean 40 1) 40 = some 0x40100000 ∧
    dataAfter (.lim LawExec.clean false 40 2 12) 40 = some 0x3F800000 ∧ dataAfter (.cmp LawExec.clean 4 40 1 0) 40 = some 0x3F800000 ∧
    dataAfter (.ld LawExec.clean 40 2 1) 40 = some 0x42C80000 ∧ dataAfter (.slew LawExec.clean false 40 2 12) 40 = some 0x40200000 := by
  decide +kernel

-- The CRCs of chapter 20 on the bytes "123456789"

theorem test_crc_check_values :
    Bits.crc32c [0x31, 0x32, 0x33, 0x34, 0x35, 0x36, 0x37, 0x38, 0x39] = 0xE3069283 := by decide +kernel

-- One ill-formed term per check

theorem smoke_headers_and_fields :
    (Instr.stateSet { hdr 0 with tag := 65536 } 1).wf = false ∧ (Instr.stateSet { hdr 0 with job := 2 ^ 32 } 1).wf = false ∧
    (Instr.stateSet (hdr 0) 256).wf = false ∧ (Instr.ident (hdr 0) (2 ^ 64) 0).wf = false ∧ (Instr.ident (hdr 0) 0 (2 ^ 32)).wf = false ∧
    (Instr.paramSet (hdr 0) 256 0 0).wf = false ∧ (Instr.paramGet (hdr 0) 0 65536).wf = false ∧
    (Instr.jobOpen (hdr 1) 256 0 0 0).wf = false ∧ (Instr.jobOpen (hdr 1) 0 256 0 0).wf = false ∧ (Instr.runStart (hdr 0) 0 65536 0).wf = false ∧
    (Instr.runStart (hdr 0) (2 ^ 32) 0 0).wf = false ∧ (Instr.quotaSet (hdr 1) (2 ^ 32)).wf = false ∧ (Instr.pageRetire (hdr 0) 65536).wf = false ∧
    (Instr.framePut (hdr 1) (2 ^ 64) 0 0 0 0 0).wf = false ∧ (Instr.framePutRaw (hdr 1) 0 0 0 0 65536 0).wf = false ∧
    (Instr.compress (hdr 0) { src := 0, srcLen := 0, dst := 0, dstLen := 0, width := 0, noGrow := false, overlay := false, firstLine := 2 ^ 24 }).wf = false := by
  decide

theorem smoke_lists_and_ranges :
    (Instr.slotHeaderRead [0] []).wf = false ∧ (Instr.entryTakeUp 0 [] .ok).wf = false ∧ (Instr.powerUpCalibration { tdc := [], isense := [], tref := [] }).wf = false ∧
    (Instr.ringEnumeration { soloReport with controllers := [{ index := 32, serial := 0, group := 32, baseUs := 0, tableCrc := 0, ropes := [] }] }).wf = false ∧
    (Instr.sensorConversion { ntc := [], diode := [], die := [] }).wf = false ∧
    (Instr.slotReceive 0 { src := 4096, words := [], hops := 0, cycle := 0, crc := 0, fwdStale := [] }).wf = false ∧
    (Instr.seq 0 { command := 256, railSlot := 0, source := 0, target := 0, number := 0 }).wf = false ∧
    (Instr.upstreamFrame 0 [] 0).wf = false ∧ (Instr.backLaneStatusFrame 0 []).wf = false ∧ (Instr.bar2Read 0 0 []).wf = false ∧
    (Instr.bar2Write 0 []).wf = false ∧ (Instr.sosPulse 0 0 160 0).wf = false ∧ (Instr.holdUpMeasurement 0).wf = false ∧
    (Instr.cameraMarkReport 0 (2 ^ 24) 0 0).wf = false ∧ (Instr.frameCommit (2 ^ 32) [] .ok).wf = false ∧
    (Instr.ringPortTraining 0 256 0 0 0).wf = false := by
  decide

theorem smoke_law_instructions :
    (Instr.ld LawExec.clean 32768 0 0).wf = false ∧ (Instr.ld LawExec.clean 0 32513 0).wf = false ∧ (Instr.st LawExec.clean 32513 0 0).wf = false ∧
    (Instr.mov LawExec.clean true 0 0x7F80 0).wf = false ∧ (Instr.mov LawExec.clean false 0 0 1).wf = false ∧ (Instr.brf LawExec.clean false 0 0).wf = false ∧
    (Instr.lim LawExec.clean true 0 0 32766).wf = false ∧ (Instr.clarke LawExec.clean true 0 32766).wf = false ∧
    (Instr.share LawExec.clean 0 0 256).wf = false ∧ (Instr.inp LawExec.clean 0 0xB).wf = false ∧ (Instr.out LawExec.clean 0 0x100).wf = false ∧
    (DmaOp.move false false 16 0 0 0 1).wf = false ∧ (DmaOp.loop 0 1).wf = false ∧ (DmaOp.wait 3 0 0).wf = false ∧ (DmaOp.signal true true true true 16).wf = false ∧
    (DmaOp.scan true true true 4 0 0 1).wf = false ∧ (DmaOp.jump 16384).wf = false := by
  decide

/-- A power failure has been detected in this tick. -/
def failing (s : State) : State := { s with eng := { s.eng with pfTick := some s.eng.time } }

theorem witness_powerFails :
    [sTimed 64 false false, sPowering (some (upSlot 0)) 1 0, sBoot 3 [], sClosed, sClosedIn .run, sLevel,
     sStop .belay .belay true true, sStarting 2 10, sClk .boot true false false, sStage .run false false 0,
     sTherm .idle 0 2 false true 0, sSeq .run 1 none none, sSeq .boot 1 none none, sSeq .idle 1 none none].all (fun s =>
      !powerFails s && powerFails (failing s)) = true := by
  decide +kernel

end Sys2Proof.Tests
end

section
/-! PROOFS. The BAR2 aperture: a read that consumes stored poison raises STORE_UE, whose reaction may move the engine. -/

namespace Sys2Proof.Machine

open Sys2Proof.Bits

section

variable {s : State}

/-- The 64 bytes from a line's first address are that line. -/
theorem linesOf_line (l : Nat) : linesOf (64 * l) 64 = [l] := by
  have hfirst : lineOf (64 * l) = l := Nat.mul_div_cancel_left l (by decide)
  have hlast : lineOf (64 * l + 64 - 1) = l := by simp only [lineOf]; omega
  have hcount : l + 1 - l = 1 := by omega
  rw [linesOf, if_neg (by decide), hlast, hfirst, hcount]
  rfl

/-- Stored poison of a line that the merge buffer does not hold is logged and delivered (R96, R108). -/
theorem readMerged_poison {l : Nat} (hheld : mergeOf s l = none) (hpoison : isPoison s l = true) (g : Agent) (e : EccRead) :
    readMerged g l e s = (logStore (64 * l) 0xFF .poison g s, true) := by
  simp only [readMerged, hheld, readLine, hpoison, if_true]

/-- A poisoned line that is consumed raises STORE_UE, once (R109). -/
theorem consume_poison {l : Nat} (hheld : mergeOf s l = none) (hpoison : isPoison s l = true) (g : Agent)
    (ecc : List (Nat × EccRead)) :
    consume g ecc [l] s = (raise 0x1C0 (logStore (64 * l) 0xFF .poison g s), [l]) := by
  simp only [consume, readLines, readMerged_poison hheld hpoison, if_true, List.length_cons,
    List.length_nil, Nat.zero_add, raiseUe]

/-- A BAR2 read of one poisoned line leaves the engine as the reaction of STORE_UE does (R109, R125). -/
theorem bar2Read_poison_eng {l : Nat} {x : BitVec 28} (hopen : barOpen s = true) (hboot : s.eng.state ≠ .boot)
    (hon : storeOn s = true) (haddr : s.store.bar2Base * pageBytes + x.toNat = 64 * l) (hend : 64 ≤ 2 ^ 28 - x.toNat)
    (hretired : linePage l ∉ s.store.retired) (hheld : mergeOf s l = none) (hpoison : isPoison s l = true)
    (ecc : List (Nat × EccRead)) :
    ∃ t, exec (.bar2Read x 64 ecc) s = .next t ∧ t.eng = (raise 0x1C0 (logStore (64 * l) 0xFF .poison .host s)).eng := by
  have hrun : exec (.bar2Read x 64 ecc) s = execBar2Read x 64 ecc s := rfl
  have hlines : ((linesOf (64 * l) 64).filter fun l => !s.store.retired.contains (linePage l)) = [l] := by
    simp only [linesOf_line, List.contains_eq_mem, hretired, decide_false, Bool.not_false, List.filter_cons_of_pos,
      List.filter_nil]
  rw [hrun]
  simp only [execBar2Read, haddr, Nat.min_eq_left hend, hopen, hboot, hon, hlines, consume_poison hheld hpoison,
    Bool.not_true, Bool.false_eq_true, decide_false, Bool.or_self, if_false, if_true]
  exact ⟨_, rfl, rfl⟩

end

/-- A FAULT_TABLE with the reaction LOG for every source but STORE_UE, which has SAFE, and a PIN_WIDTH of
1 µs. -/
def storeUeSafeTable : List Byte := (List.range 2064).map fun i => if i = 0 then 1 else if i = 16 + 4 * 0x1C0 then 8 else 0

theorem storeUeSafeTable_length : storeUeSafeTable.length = 2064 := by
  rw [storeUeSafeTable, List.length_map, List.length_range]

theorem byteAt_storeUeSafeTable (i : Nat) :
    byteAt storeUeSafeTable i = if i = 0 then 1 else if i = 16 + 4 * 0x1C0 then 8 else 0 := by
  rw [byteAt, List.getD_eq_getElem?_getD, storeUeSafeTable, List.getElem?_map]
  by_cases hi : i < 2064
  · rw [List.getElem?_range hi, Option.map_some, Option.getD_some]
    split
    · rfl
    · split <;> rfl
  · rw [List.getElem?_eq_none (by rw [List.length_range]; omega), if_neg (by omega), if_neg (by omega)]
    rfl

/-- Bytes that read 0 are zeros. -/
theorem zeros_of_byteAt {bs : List Byte} {i n : Nat} (h : ∀ k < n, byteAt bs (i + k) = 0) : zeros bs i n = true := by
  rw [zeros, List.all_eq_true]
  intro b hb
  obtain ⟨k, hk, rfl⟩ := List.getElem_of_mem hb
  rw [List.length_take, List.length_drop, Nat.lt_min] at hk
  have hzero := h k hk.1
  rw [byteAt, List.getD_eq_getElem?_getD, List.getElem?_eq_getElem (by omega), Option.getD_some] at hzero
  rw [List.getElem_take, List.getElem_drop, beq_iff_eq]
  exact BitVec.eq_of_toNat_eq hzero

/-- The table passes its content check: R425 leaves the reaction of STORE_UE to the image. -/
theorem faultTableOk_storeUeSafeTable : faultTableOk storeUeSafeTable = true := by
  have hwidth : u32 storeUeSafeTable 0 = 1 := by
    simp only [u32, le, byteAt_storeUeSafeTable, Nat.zero_add, Nat.reduceAdd, Nat.reduceMul, Nat.reduceEqDiff, reduceCtorEq,
      Nat.succ_ne_self, if_true, if_false]
  have hheader : zeros storeUeSafeTable 4 12 = true :=
    zeros_of_byteAt fun k hk => by rw [byteAt_storeUeSafeTable, if_neg (by omega), if_neg (by omega)]
  have hreaction (src : Nat) : byteAt storeUeSafeTable (16 + 4 * src) = if src = 0x1C0 then 8 else 0 := by
    rw [byteAt_storeUeSafeTable, if_neg (by omega)]
    by_cases hsrc : src = 0x1C0
    · rw [if_pos hsrc, if_pos (by omega)]
    · rw [if_neg hsrc, if_neg (by omega)]
  have hflag (src k : Nat) (hk : k % 4 ≠ 0) : byteAt storeUeSafeTable (16 + 4 * src + k) = 0 := by
    rw [byteAt_storeUeSafeTable, if_neg (by omega), if_neg (by omega)]
  have hrest (src : Nat) : zeros storeUeSafeTable (16 + 4 * src + 3) 1 = true :=
    zeros_of_byteAt fun k hk => by
      obtain rfl : k = 0 := by omega
      exact hflag src 3 (by decide)
  have hunlisted (src : Nat) (h : src ≠ 0x1C0) : zeros storeUeSafeTable (16 + 4 * src) 4 = true :=
    zeros_of_byteAt fun k hk => by rw [byteAt_storeUeSafeTable, if_neg (by omega), if_neg (by omega)]
  rw [faultTableOk, storeUeSafeTable_length, hwidth, hheader, Bool.and_eq_true]
  refine ⟨rfl, List.all_eq_true.mpr fun src _ => ?_⟩
  dsimp only
  have hdomain := hflag src 1 (by decide)
  have hbits := hflag src 2 (by decide)
  by_cases hsrc : src = 0x1C0
  · have hlisted : sourceListed src = true := by rw [hsrc]; decide
    have hlocal : sourceLocal src = false := by rw [hsrc]; decide
    rw [if_pos hlisted, hreaction, if_pos hsrc, hdomain, hbits, hrest, hlocal]
    exact Bool.or_true _
  · have hlocal : (sourceLocal src || !(decide (0 = 2) || decide (0 = 3))) = true := Bool.or_true _
    rw [hreaction, if_neg hsrc, hdomain, hbits, hrest, hunlisted src hsrc, hlocal]
    split
    · exact Bool.or_true _
    · rfl

/-- SERVICE with that FAULT_TABLE, every domain operating, the link trained, and stored poison in line 0. -/
def poisonedInService : State :=
  { State.reset with
    eng := { Engine.reset with state := .service }
    boot := { Boot.reset with linkTrained := true, sections := [{ ty := 0x0E, bytes := storeUeSafeTable }] }
    pwr := { Power.reset with domain := each 10 2 }
    store := { Store.reset with poison := [0] } }

/-- STORE_UE enters SAFE there, as the table says. -/
theorem storeUe_enters_safe :
    (raise 0x1C0 (logStore (64 * 0) 0xFF .poison .host poisonedInService)).eng.state = .safe := by
  decide +kernel

/-- A BAR2 read of line 0 there ends in SAFE. -/
theorem bar2Read_enters_safe :
    ∃ t, exec (.bar2Read 0 64 []) poisonedInService = .next t ∧ t.eng.state = .safe := by
  obtain ⟨t, hrun, heng⟩ := bar2Read_poison_eng (s := poisonedInService) (l := 0) (x := 0) rfl (by decide +kernel)
    rfl rfl (by decide) (by decide) rfl rfl []
  exact ⟨t, hrun, (congrArg Engine.state heng).trans storeUe_enters_safe⟩

/-- Refutes O41: the read clause keeps the engine as it was in every state but BOOT, yet a read of a poisoned line raises
STORE_UE (R109), whose reaction stands in FAULT_TABLE (R425): with SAFE there, the read takes SERVICE to SAFE. -/
theorem not_bar2Aperture : ¬ Obligations.Bar2Aperture := by
  unfold Obligations.Bar2Aperture
  intro h
  obtain ⟨-, -, hread, -, -⟩ := h poisonedInService rfl rfl
  obtain ⟨t, hrun, heng, -⟩ := hread 0 64 (by decide +kernel)
  obtain ⟨u, hrun', hsafe⟩ := bar2Read_enters_safe
  obtain rfl : t = u := Host.Outcome.next.inj (hrun.symm.trans hrun')
  have hservice : t.eng.state = .service := congrArg Engine.state heng
  exact absurd (hsafe.symm.trans hservice) (by decide)

end Sys2Proof.Machine
end

section
/-! PROOFS. The OTP unit: what every command leaves of its array, shadow and locks, the load of the shadow, the programming
commands with their checks, and the end of a pulse. -/

namespace Sys2Proof.Machine

/-! ### The power supervisor under a transition -/

section

/-- What every operation of a fold leaves alone, the fold leaves alone. -/
theorem foldl_unchanged {α β : Type} (p : State → β) (g : State → α → State) (h : ∀ s a, p (g s a) = p s) (l : List α)
    (s : State) : p (l.foldl g s) = p s := by
  induction l generalizing s with
  | nil => rfl
  | cons a l ih => exact (ih _).trans (h s a)

/-- A fold of operations that leave the state as it is. -/
theorem foldl_fixed {α : Type} {g : State → α → State} {s : State} (h : ∀ a, g s a = s) (l : List α) : l.foldl g s = s := by
  induction l with
  | nil => rfl
  | cons a l ih => rw [List.foldl_cons, h, ih]

theorem pwr_ite (c : Prop) [Decidable c] (a b : State) : (if c then a else b).pwr = if c then a.pwr else b.pwr :=
  apply_ite _ _ _ _

variable (s : State)

@[simp] theorem putCompletion_pwr (n : Fin 8) (c : Completion) : (putCompletion n c s).pwr = s.pwr := by
  simp only [putCompletion, hostWrite, sendMsix, pwr_ite, State.modHost_pwr, ite_self]

@[simp] theorem completeWith_pwr (r : MsgRef) (st : Status) (n : Nat) (more rep : Bool) :
    (completeWith r st n more rep s).pwr = s.pwr := by
  simp only [completeWith, queueCompletion, pwr_ite, putCompletion_pwr, State.modHost_pwr, ite_self]

@[simp] theorem postEvent_pwr (k : EventKind) (n : Nat) : (postEvent k n s).pwr = s.pwr := by
  simp only [postEvent, pwr_ite, putCompletion_pwr, State.modHost_pwr, ite_self]

@[simp] theorem engineInterrupt_pwr (b : Nat) : (engineInterrupt b s).pwr = s.pwr := by
  simp only [engineInterrupt, sendMsix, pwr_ite, State.modHost_pwr, State.modEng_pwr, ite_self]

@[simp] theorem setStateChg_pwr : (setStateChg s).pwr = s.pwr := by
  simp only [setStateChg, setsBit, pwr_ite, engineInterrupt_pwr, State.modEng_pwr, State.modW1c_pwr, ite_self]

@[simp] theorem finishSet_pwr (x : EngState) : (finishSet x s).pwr = s.pwr := by
  rw [finishSet]
  split
  · rfl
  · rw [complete, completeWith_pwr, State.modEng_pwr]

/-- A transition leaves the power supervisor alone. -/
@[simp] theorem enterState_pwr (sev : Nat) (x : EngState) (cause : Nat) : (enterState sev x cause s).pwr = s.pwr := by
  simp only [enterState, updateInh, returnPins, postEvent_pwr, setStateChg_pwr, State.modStage_pwr, finishSet_pwr,
    pwr_ite, State.modTap_pwr, State.modEng_pwr, ite_self]

@[simp] theorem blankNow_pwr (n : Nat) (k : BlankKind) (cause src : Nat) : (blankNow n k cause src s).pwr = s.pwr := rfl

@[simp] theorem dropChannel_pwr (n : Nat) (x : SpState) (src : Nat) : (dropChannel n x src s).pwr = s.pwr := by
  have hleave : (leaveLock n src s).pwr = s.pwr := by
    rw [leaveLock, pwr_ite, blankNow_pwr, ite_self]
    rfl
  exact hleave

@[simp] theorem inhibitChannel_pwr (src n : Nat) : (inhibitChannel src n s).pwr = s.pwr := by
  simp only [inhibitChannel, State.atSp, pwr_ite, dropChannel_pwr, State.modSp_pwr, ite_self]

@[simp] theorem safeHard_pwr (src : Nat) : (safeHard src s).pwr = s.pwr := by
  have hlaser (n : Nat) (s : State) : (laserLow .laser 0x06 src n s).pwr = s.pwr := rfl
  rw [safeHard, allLasersLow, each8, foldl_unchanged State.pwr _ fun s n => hlaser n s, coastHard, assertInh,
    State.modStage_pwr, allGatesLow, each8, foldl_unchanged State.pwr _ fun s n => inhibitChannel_pwr s src n]

@[simp] theorem safeEffects_pwr (src : Nat) : (safeEffects src s).pwr = s.pwr := by
  have hheater (s : State) (n : Nat) : (heaterLow n s).pwr = s.pwr := rfl
  rw [safeEffects, stopRampUnit, State.modRamp_pwr, suspendAux, State.modAux_pwr, hvOff, State.modHv_pwr, allHeatersLow,
    foldl_unchanged State.pwr _ hheater, safeHard_pwr]
  rfl

/-- Outputs made safe leave a reset held back as it was. -/
theorem outputsSafe_resetOwed (src : Nat) : (outputsSafe src s).pwr.resetOwed = s.pwr.resetOwed := by
  have hsend (s : State) (n : Nat) : (pmbSend n 0x01 (some 0x80) s).pwr.resetOwed = s.pwr.resetOwed := by
    simp only [pmbSend, pwr_ite, apply_ite Power.resetOwed, State.modPwr_pwr, ite_self]
  rw [outputsSafe, marginsNominal, State.modPwr_pwr, foldl_unchanged (fun s => s.pwr.resetOwed) _ hsend, safeEffects_pwr]

variable {s}

/-- A record that ends with no reset held back leaves every part as it was (R447). -/
theorem keep_execCairnRecordWritten_of_no_reset {m : Part → Bool} (h : s.pwr.resetOwed = none) :
    keepOut m (execCairnRecordWritten s) = some (s.keep m) := by
  have howed (r : List Byte) (s : State) : (writeCairn r s).pwr = s.pwr := rfl
  have hbegin (p : Power) (c : ShutCause) : (p.beginSequence c).resetOwed = p.resetOwed := by
    rw [Power.beginSequence]
  rw [execCairnRecordWritten]
  split
  · rfl
  · simp only [beginSequence, domainsOff, State.modPwr_pwr, hbegin, enterState_pwr, outputsSafe_resetOwed,
      State.modPers_pwr, howed, h, keepOut_next, keep_modPwr, keep_enterState, keep_outputsSafe, keep_modPers, keep_writeCairn]

end

/-! ### Frames -/

/-- Commands that write the registers, the array or the shadow of the OTP unit, besides the resets. -/
def Instr.writesOtp (c : Instr) : Bool :=
  match c with
  | .otpShadowLoad | .otpPulseEnd _ | .program _ | .read _ | .lockW _ _ | .lockR _ _ | .registerWrite _ _ _ => true
  | _ => false

/-- A command that does not reset keeps every part that `m` leaves in, where `m` takes out the OTP unit for the commands that write
it, and the array for the end of a pulse. -/
theorem keep_exec {m : Part → Bool} (hm : ∀ p, p ≠ .otp → p ≠ .array → m p = true) {c : Instr} {s : State}
    (hreset : s.willReset c = false) (hotp : Instr.writesOtp c = true → m .otp = true)
    (harray : ∀ v, c = .otpPulseEnd v → m .array = true) : keepOut m (exec c s) = some (s.keep m) := by
  cases c with
  | aonPowerOnReset _ _ _ => cases hreset
  | powerReturnReset _ _ => cases hreset
  | cairnRecordWritten =>
    exact keep_execCairnRecordWritten_of_no_reset (Option.isNone_iff_eq_none.mp (Option.isSome_eq_false_iff.mp hreset))
  | otpShadowLoad =>
    exact keep_execOtpShadowLoad (hm .clk (by decide) (by decide)) (hotp rfl) (hm .shadow (by decide) (by decide)) s
  | otpPulseEnd v => exact keep_execOtpPulseEnd (hotp rfl) (harray v rfl) s v
  | program key => exact keep_execProgram (hotp rfl) s key
  | read key => exact keep_execRead (hotp rfl) s key
  | lockW key r => exact keep_execLockW (hotp rfl) s key r
  | lockR key r => exact keep_execLockR (hotp rfl) s key r
  | registerWrite o w v =>
    have h := hotp rfl
    simp only [exec, keep_execRegisterWrite, hm, h, ne_eq, reduceCtorEq, not_false_eq_true]
  | _ =>
    simp only [exec, keep_execCrystalStart, keep_execPllLockDeclared, keep_execPllLockAttemptTimeout,
      keep_execSlotHeaderRead, keep_execSignatureVerification, keep_execSectionLoad, keep_execPowerUpSlot,
      keep_execRailPowerGood, keep_execPowerSeqTimeout, keep_execPowerUpCalibration, keep_execRingEnumeration,
      keep_execStageLinkTraining, keep_execStageLinkRetrainTimer, keep_execBootStepTimeout,
      keep_execSubmissionQueueTailWrite, keep_execCompletionQueueHeadWrite, keep_execQueueControlWrite,
      keep_execEntryTakeUp, keep_execCompletionWriteResumed, keep_execCoalesceTimerExpiry, keep_execEventFifoDrain,
      keep_execHostLinkReset, keep_execD3hotEntry, keep_execIdent, keep_execStateSet, keep_execArmingComplete,
      keep_execArmTimeout, keep_execJobOpen, keep_execJobClose, keep_execFramePut, keep_execFramePutRaw,
      keep_execFrameCommit, keep_execQuotaSet, keep_execRunStart, keep_execRunResume, keep_execRunEntry,
      keep_execRunModify, keep_execRunStop, keep_execParamSet, keep_execParamGet, keep_execResultGet,
      keep_execResultAck, keep_execCompress, keep_execCompressRun, keep_execDecompress, keep_execDecompressRun,
      keep_execPageRetire, keep_execMigrationComplete, keep_execLogRead, keep_execCalibRead, keep_execCalibWrite,
      keep_execConsumableSync, keep_execFaultClear, keep_execFaultPinRelease, keep_execFaultPinPulseEnd,
      keep_execStoInput, keep_execEstopInput, keep_execPairWireFault, keep_execPairReturnNormal,
      keep_execFltPairChange, keep_execEngineEventInterruptWrite, keep_execBar0UnsupportedAccess,
      keep_execAnchorCount, keep_execAnchorZPulse, keep_execEyeletAnchorReport, keep_execAnchorStale,
      keep_execAnchorOverspeed, keep_execWebStandstill, keep_execRopeStandstill, keep_execFacetReferencePulse,
      keep_execFrameStart, keep_execFrameStarved, keep_execCameraMarkReport, keep_execRegBaseWrite,
      keep_execRegOffsetWrite, keep_execSosPulse, keep_execSosWindowExpiry, keep_execScanCrossWrite, keep_execRefLost,
      keep_execClockMonitorWindow, keep_execRefReturn, keep_execPllUnlock, keep_execTemperatureCompensationUpdate,
      keep_execDecodeLine, keep_execScrubBurst, keep_execScrubWriteBack, keep_execMergeBufferFlush, keep_execBar2Read,
      keep_execBar2Write, keep_execBar2BaseWrite, keep_execSpoilRecordPost, keep_execWasteMarker,
      keep_execWasteMinExpiry, keep_execBackLaneStatusFrame, keep_execExpoLinkLost, keep_execLaserEchoMismatch,
      keep_execEmitterTempStale, keep_execExpoLinkTraining, keep_execInterlockOpen, keep_execLaserEnableRise,
      keep_execToneEntryWrite, keep_execToneHoldWrite, keep_execDeadMaskWrite, keep_execPartnerConfigWrite,
      keep_execSpindleRunCommand, keep_execSpindleSenseTimeout, keep_execAlignTimeout, keep_execZeroCrossing,
      keep_execZeroCrossingTimeout, keep_execPwmPeriod, keep_execShortTimeout, keep_execStopTimeout,
      keep_execCatchTimeout, keep_execCoastBackEmfTimeout, keep_execSpindleCommandSample, keep_execSpindleCommandEdge,
      keep_execSpindleCommandTimeout, keep_execSpDesat, keep_execSpOvercurrent, keep_execSpBootUv, keep_execVcpUv,
      keep_execVbusSpUv, keep_execVbusSpOv, keep_execRpsBlock, keep_execBaseSampleBoundary, keep_execRampAxisTimeout,
      keep_execInputWindowClose, keep_execOutputReserveStart, keep_execLd, keep_execSt, keep_execMov, keep_execAdd,
      keep_execSub, keep_execMul, keep_execMac, keep_execAbs, keep_execMin, keep_execMax, keep_execSel, keep_execCmp,
      keep_execBrf, keep_execLim, keep_execSlew, keep_execLpf, keep_execBiq, keep_execPi, keep_execIntg,
      keep_execDiff, keep_execClarke, keep_execPark, keep_execIpark, keep_execSincos, keep_execSvm, keep_execObs,
      keep_execHold, keep_execShare, keep_execInp, keep_execOut, keep_execEndp, keep_execLawControlWrite,
      keep_execUpstreamFrame, keep_execStageLost, keep_execBusAbsorbLost, keep_execBusTrip, keep_execTensionLimit,
      keep_execShareStale, keep_execSpliceEdge, keep_execSpliceWindowExpiry, keep_execBelaySlow,
      keep_execCoastTimeout, keep_execRopeRemoteStop, keep_execGroupRemoteStop, keep_execAuxStart, keep_execAuxStop,
      keep_execAuxResume, keep_execAuxAbort, keep_execAuxStep, keep_execAuxFltInput, keep_execAuxProfileWrite,
      keep_execSensorConversion, keep_execZeroCrossEdge, keep_execZeroCrossLost, keep_execHvNodeLost,
      keep_execRingPortTraining, keep_execRingPortDown, keep_execRingPortRetrainTimer, keep_execSlotLaunch,
      keep_execSlotReceive, keep_execNodeLost, keep_execTsReq, keep_execTsRsp, keep_execTsFup, keep_execRingTime,
      keep_execSeq, keep_execSeqStepTimeout, keep_execGroupReady, keep_execGroupStart, keep_execGroupHalt,
      keep_execGroupHaltPosition, keep_execGroupTimeout, keep_execPowerFail, keep_execShutDownSlot,
      keep_execRailDischarged, keep_execRailDischargeTimeout, keep_execRailPowerGoodLoss, keep_execHoldUpMeasurement,
      keep_execHoldupLow, keep_execPowerFailArming, keep_execMarginWrite, keep_execTrimStep, keep_execPmbusError,
      keep_execConsumableSyncTimer, keep_execTagSynchronisation, keep_execTagPoll, keep_execUsageMirrorPersist,
      keep_execLifetimeCounterPersist, keep_execDmaStart, keep_execDmaStop, keep_execDmaResume, keep_execDmaReset,
      keep_execDmaTailWrite, keep_execDmaConfigWrite, keep_execMove, keep_execLoop, keep_execWait,
      keep_execWaitComplete, keep_execSignal, keep_execScan, keep_execJump, keep_execDmaEnd, keep_execNop,
      keep_execDmaInstructionComplete, keep_execCheckUnitRunWrite, keep_execIstTestStep, keep_execBypass,
      keep_execIdcode, keep_execSamplePreload, keep_execExtest, keep_execExtestPulse, keep_execExtestTrain,
      keep_execClamp, keep_execHighz, keep_execInterlockClose, keep_execVcpUvRelease, keep_execVbusSpInhibitRelease,
      keep_execVcpGood, keep_execD3hotExit, keep_execPmbAlertFall, keep_execMsixVectorUnmask, keep_execAuxFltRelease,
      hm, ne_eq, reduceCtorEq, not_false_eq_true]

/-- Every part but this one is taken out. -/
def onlyPart (p q : Part) : Bool := q != p

section

variable {s t : State}

theorem otp_of_keep (h : t.keep (onlyPart .otp) = s.keep (onlyPart .otp)) : t.otp = s.otp :=
  Option.some.inj (congrArg Kept.otp h)

theorem array_of_keep (h : t.keep (onlyPart .array) = s.keep (onlyPart .array)) :
    t.otp.cells = s.otp.cells ∧ t.otp.wFuse = s.otp.wFuse ∧ t.otp.rFuse = s.otp.rFuse := by
  simpa only [Prod.mk.injEq] using Option.some.inj (congrArg Kept.array h)

/-- What the shadow load sets: the shadow, the validity of the regions and the locks in force (R450 to R453). -/
def State.loaded (s : State) : List (Nat × Word) × BitVec 16 × BitVec 16 × BitVec 16 × BitVec 16 :=
  (s.otp.shadow, s.otp.valid, s.otp.blank, s.otp.wlock, s.otp.rlock)

theorem loaded_of_keep (h : t.keep (onlyPart .otp) = s.keep (onlyPart .otp)) : t.loaded = s.loaded := by
  rw [State.loaded, otp_of_keep h, State.loaded]

theorem loaded_ite {c : Prop} [Decidable c] {a b : State} (ha : a.loaded = s.loaded) (hb : b.loaded = s.loaded) :
    (if c then a else b).loaded = s.loaded := by
  split
  · exact ha
  · exact hb

theorem loaded_otpEnd (st : Status) (s : State) : (otpEnd st s).loaded = s.loaded := rfl

theorem loaded_otpCopy (fuel : Nat) (j : OtpJob) (s : State) : (otpCopy fuel j s).loaded = s.loaded := by
  induction fuel generalizing j with
  | zero => rfl
  | succ fuel ih => exact loaded_ite rfl (loaded_ite rfl (ih _))

theorem loaded_otpGoOn (j : OtpJob) (s : State) : (otpGoOn j s).loaded = s.loaded :=
  loaded_ite rfl (loaded_ite rfl rfl)

theorem loaded_putJobCell (j : OtpJob) (c : OtpCell) (s : State) : (putJobCell j c s).loaded = s.loaded := by
  rw [putJobCell]
  split <;> rfl

theorem loaded_otpRun (k : OtpKind) (r : Nat) (s : State) : (otpRun k r s).loaded = s.loaded := by
  cases k with
  | program => exact loaded_otpCopy _ _ s
  | read => rfl
  | lockW | lockR => exact loaded_ite rfl (loaded_otpCopy _ _ s)

/-- No command of OTP_CMD changes the shadow or a lock in force (R453). -/
theorem loaded_otpCommand (k : OtpKind) (key : BitVec 8) (r : Nat) (s : State) : (otpCommand k key r s).loaded = s.loaded := by
  refine loaded_ite rfl (loaded_ite rfl ?_)
  dsimp only
  split
  · rw [otpRejected, loaded_otpEnd]
    exact loaded_ite rfl rfl
  · exact loaded_otpRun _ _ s

theorem loaded_otpPulseEnd (seen : Word) (s : State) : (otpPulseEnd seen s).loaded = s.loaded := by
  rw [otpPulseEnd]
  split
  · rfl
  · refine loaded_ite ?_ ?_
    · dsimp only
      split
      · rw [loaded_otpGoOn, otpNext, loaded_otpCopy, loaded_putJobCell]
        rfl
      · rw [otpNext, loaded_otpCopy, loaded_putJobCell]
        rfl
    · rw [loaded_otpGoOn, loaded_putJobCell]
      rfl

theorem loaded_writeOtp (o v : Nat) (s : State) : (writeOtp o v s).loaded = s.loaded := by
  have hcmd : (writeOtpCmd v s).loaded = s.loaded := by
    unfold writeOtpCmd
    dsimp only
    split
    case h_5 => exact loaded_ite rfl rfl
    all_goals exact loaded_otpCommand ..
  unfold writeOtp
  split
  case h_3 => exact hcmd
  all_goals rfl

theorem loaded_inDomain {d : Nat} {f : State → State} (h : ∀ s, (f s).loaded = s.loaded) (s : State) :
    (inDomain d f s).loaded = s.loaded := loaded_ite (h s) rfl

theorem loaded_block {c : Prop} [Decidable c] {d : Nat} {f : State → State} {b : State}
    (hf : ∀ s, (f s).loaded = s.loaded) (hb : b.loaded = s.loaded) : (if c then inDomain d f s else b).loaded = s.loaded :=
  loaded_ite (loaded_inDomain hf s) hb

/-- Of the blocks of BAR0, only the OTP block reaches the OTP unit, and none of its registers the shadow. -/
theorem loaded_write32 (o v : Nat) (s : State) : (write32 o v s).loaded = s.loaded := by
  rw [write32, writeAt]
  refine loaded_block (fun s => loaded_of_keep (keep_writeEng s _ _)) ?_
  refine loaded_block (fun s => loaded_of_keep (keep_writeHost s _ _)) ?_
  refine loaded_block (fun s => loaded_of_keep (keep_writeStore rfl s _ _)) ?_
  refine loaded_block (fun s => loaded_of_keep (keep_writeWeb rfl rfl rfl s _ _)) ?_
  refine loaded_block (fun s => loaded_of_keep (keep_writeClk rfl s _ _)) ?_
  refine loaded_block (fun s => loaded_of_keep (keep_writeScan s _ _ _)) ?_
  refine loaded_block (fun s => loaded_of_keep (keep_writeExpo s _ _ _)) ?_
  refine loaded_block (fun s => loaded_of_keep (keep_writeSp s _ _ _)) ?_
  refine loaded_block (fun s => loaded_of_keep (keep_writeLaw s _ _)) ?_
  refine loaded_block (fun s => loaded_of_keep (keep_writeStage rfl s _ _)) ?_
  refine loaded_block (fun s => loaded_of_keep (keep_modDrawLim s _ rfl)) ?_
  refine loaded_block (fun s => loaded_of_keep (keep_writeAux s _ _ _)) ?_
  refine loaded_block (fun s => loaded_of_keep (keep_State_atPort s _ _)) ?_
  refine loaded_block (fun s => loaded_of_keep (keep_writeFlt s _ _)) ?_
  refine loaded_block (fun s => loaded_of_keep (keep_writePwr s _ _)) ?_
  refine loaded_block (loaded_writeOtp _ _) ?_
  refine loaded_block (fun s => loaded_of_keep (keep_writeDma rfl s _ _)) ?_
  refine loaded_block (fun s => loaded_of_keep (keep_writeIst rfl s _ _)) ?_
  refine loaded_block (fun s => loaded_of_keep (keep_writeRamHalf rfl rfl s _ _)) ?_
  refine loaded_block (fun s => loaded_of_keep (keep_writeMsix s _ _)) ?_
  rfl

theorem loaded_writeReg (o : Nat) (wide : Bool) (v : Nat) (s : State) : (writeReg o wide v s).loaded = s.loaded := by
  have hram (i w : Nat) (s : State) : (putRamWord false i w s).loaded = s.loaded := rfl
  refine loaded_ite rfl (loaded_ite rfl (loaded_ite ?_ (loaded_write32 _ _ s)))
  refine loaded_ite (loaded_inDomain (hram _ _) s) ?_
  rw [loaded_write32, loaded_write32]

variable {c : Instr}

/-- A command that neither resets nor loads the shadow leaves what the load has set (R453). -/
theorem loaded_of_exec (hreset : s.willReset c = false) (hload : c ≠ .otpShadowLoad) (hrun : exec c s = .next t) :
    t.loaded = s.loaded := by
  cases hotp : Instr.writesOtp c with
  | false =>
    have hkeep := keep_exec (m := onlyPart .otp) (fun _ h _ => bne_iff_ne.mpr h) hreset
      (fun h => absurd (hotp.symm.trans h) Bool.false_ne_true) (fun _ _ => rfl)
    rw [hrun, keepOut_next] at hkeep
    exact loaded_of_keep (Option.some.inj hkeep)
  | true =>
    have hnext {u : State} (h : exec c s = .next u) (hu : u.loaded = s.loaded) : t.loaded = s.loaded := by
      obtain rfl : t = u := Host.Outcome.next.inj (hrun.symm.trans h)
      exact hu
    cases c with
    | otpShadowLoad => exact absurd rfl hload
    | program key | read key => exact hnext rfl (loaded_ite (loaded_otpCommand ..) rfl)
    | lockW key r | lockR key r => exact hnext rfl (loaded_ite (loaded_otpCommand ..) rfl)
    | registerWrite o w v => exact hnext rfl (loaded_writeReg ..)
    | otpPulseEnd seen => exact hnext rfl (loaded_otpPulseEnd seen s)
    | _ => cases hotp

/-- A command that neither resets nor ends a pulse leaves the array and the lock fuses. -/
theorem array_of_exec (hreset : s.willReset c = false) (hpulse : ∀ v, c ≠ .otpPulseEnd v) (hrun : exec c s = .next t) :
    t.otp.cells = s.otp.cells ∧ t.otp.wFuse = s.otp.wFuse ∧ t.otp.rFuse = s.otp.rFuse := by
  have hkeep := keep_exec (m := onlyPart .array) (fun _ _ h => bne_iff_ne.mpr h) hreset (fun _ => rfl)
    (fun v h => absurd h (hpulse v))
  rw [hrun, keepOut_next] at hkeep
  exact array_of_keep (Option.some.inj hkeep)

end

/-! ### The load of the shadow, and AON power-on reset -/

section

/-- A sparse table mapped through a function that takes default to default reads, at each key, as that function of what the table
reads. -/
theorem sget_map_filter {α β : Type} [DecidableEq α] [DecidableEq β] {d : α} {e : β} (f : α → β) (hf : f d = e)
    {l : List (Nat × α)} (h : swf d l = true) (a : Nat) :
    sget e ((l.map fun x => (x.1, f x.2)).filter fun x => x.2 != e) a = f (sget d l a) := by
  induction l with
  | nil => exact hf.symm
  | cons p l ih =>
    obtain ⟨k, v⟩ := p
    obtain ⟨-, habove, hl⟩ := (swf_cons k v l).mp h
    have ih := ih hl
    rw [List.map_cons, List.filter_cons, sget]
    by_cases hv : f v = e
    · rw [if_neg (by simpa using hv), ih]
      split
      · next hk => rw [sget_above habove (Nat.le_of_eq hk.symm), hf, hv]
      · rfl
    · rw [if_pos (by simpa using hv), sget, ih, apply_ite f]

/-- The sum of `2 ^ r` over the numbers `r` below `n` that `f` selects: its bits, and its bound. -/
theorem maskSum_spec (f : Nat → Bool) (n : Nat) :
    (∀ r, (((List.range n).filter f).foldl (fun m r => m + 2 ^ r) 0).testBit r = (decide (r < n) && f r)) ∧
      ((List.range n).filter f).foldl (fun m r => m + 2 ^ r) 0 < 2 ^ n := by
  induction n with
  | zero => simp
  | succ n ih =>
    rw [List.range_succ, List.filter_append, List.foldl_append]
    generalize ((List.range n).filter f).foldl (fun m r => m + 2 ^ r) 0 = x at ih ⊢
    obtain ⟨hbit, hlt⟩ := ih
    cases hf : f n with
    | false =>
      rw [List.filter_cons_of_neg (by simp [hf])]
      refine ⟨fun r => ?_, Nat.lt_of_lt_of_le hlt (Nat.pow_le_pow_right Nat.two_pos n.le_succ)⟩
      rw [List.filter_nil, List.foldl_nil, hbit]
      grind
    | true =>
      have hor : x + 2 ^ n = 2 ^ n ||| x := by
        simpa [Nat.add_comm] using Nat.two_pow_add_eq_or_of_lt hlt 1
      rw [List.filter_cons_of_pos hf]
      refine ⟨fun r => ?_, ?_⟩
      · rw [List.filter_nil, List.foldl_cons, List.foldl_nil, hor, Nat.testBit_or, Nat.testBit_two_pow, hbit]
        grind
      · rw [List.filter_nil, List.foldl_cons, List.foldl_nil, Nat.pow_succ]
        omega

theorem getLsbD_regionMask (f : Nat → Bool) (r : Fin 16) : (regionMask f).getLsbD r = f r := by
  rw [regionMask, BitVec.getLsbD_ofNat, (maskSum_spec f 16).1]
  simp

theorem tab_fin {α : Type} {n : Nat} (v : Vector α n) (d : α) (i : Fin n) : tab v d i = v[i] := by
  simp [tab]

theorem tab_of_le {α : Type} {n : Nat} (v : Vector α n) (d : α) {i : Nat} (h : n ≤ i) : tab v d i = d := by
  simp [tab, h]

variable {s : State}

/-- The shadow that is loaded reads, at every address, as the nominal majority of the array (R452). -/
theorem shadow_loadShadow (h : s.canonical) (a : Nat) : shadow (loadShadow s) a = (otpCell s a).nominal := by
  obtain ⟨-, hcells, -⟩ := h
  exact sget_map_filter OtpCell.nominal (by decide) hcells a

theorem regionWords_loadShadow (h : s.canonical) (r : Nat) :
    regionWords (loadShadow s).otp.shadow r = freshRegion s r :=
  List.map_congr_left fun w _ => shadow_loadShadow h (256 * r + w)

theorem loadShadow_wlock (r : Fin 16) : (loadShadow s).otp.wlock.getLsbD r = s.otp.wFuse[r].nominal.getLsbD 0 := by
  simp only [loadShadow, State.modOtp_otp, getLsbD_regionMask, tab_fin, fuseSet]

theorem loadShadow_rlock (r : Fin 16) : (loadShadow s).otp.rlock.getLsbD r = s.otp.rFuse[r].nominal.getLsbD 0 := by
  simp only [loadShadow, State.modOtp_otp, getLsbD_regionMask, tab_fin, fuseSet]

/-- A region is valid where its words in the array are not blank and match their check word (R450, R453). -/
theorem loadShadow_valid (h : s.canonical) (r : Fin 16) :
    (loadShadow s).otp.valid.getLsbD r = (!wordsBlank (freshRegion s r) && wordsValid (freshRegion s r)) := by
  rw [← regionWords_loadShadow h]
  simp only [loadShadow, State.modOtp_otp, getLsbD_regionMask]

/-- OTP_SHADOW_LOAD in step 2 leaves the OTP unit as the load of the shadow does (R452). -/
theorem exec_otpShadowLoad (hstate : s.eng.state = .boot) (hstep : s.boot.step = 2) :
    ∃ t, exec .otpShadowLoad s = .next t ∧ t.otp = (loadShadow s).otp := by
  have hin : inStep s 2 = true := by simp [inStep, hstate, hstep]
  have hclk : onlyPart .otp .clk = true := by decide
  have hrun : exec .otpShadowLoad s = execOtpShadowLoad s := rfl
  rw [hrun, execOtpShadowLoad, if_neg (by simp [hin])]
  refine ⟨_, rfl, otp_of_keep ?_⟩
  simp only [keep_setOperate, keep_endStep, keep_ite, keep_raise, keep_modBoot, keep_ringOverride, keep_applyTrims, hclk,
    ite_self]

/-- The levels of `normalPins`, as the first sample finds them (R527), raise nothing. -/
theorem sampleRaises_firstSample_normalPins : sampleRaises (firstSample normalPins s) = firstSample normalPins s := by
  generalize hx : firstSample normalPins s = x
  have hpairs : x.flt.sto.active = false ∧ x.flt.estop.active = false := by subst hx; exact ⟨rfl, rfl⟩
  have hdoors : x.il.web = false ∧ x.il.jam = false := by subst hx; exact ⟨rfl, rfl⟩
  have hcover (n : Fin 8) : x.il.cover[n] = false := by
    subst hx
    simp only [firstSample, State.modIl_il, Vector.getElem_ofFn, Fin.getElem_fin]
    revert n
    decide
  have hpair (n : Fin 8) : x.stage[n].pair.active = false := by
    subst hx
    simp only [firstSample, State.modIl_stage, State.modStage_stage, Vector.getElem_ofFn, Fin.getElem_fin]
    revert n
    decide
  have hflt (n : Nat) : fltCheck n x = x := by
    have hactive : (tab x.stage StageLink.reset n).pair.active = false := by
      by_cases hn : n < 8
      · rw [tab_fin _ _ (⟨n, hn⟩ : Fin 8), hpair]
      · rw [tab_of_le _ _ (Nat.le_of_not_lt hn)]
        rfl
    rw [fltCheck, hactive]
    rfl
  have hcovers : (List.finRange 8).foldl (fun s n => if s.il.cover[n] then interlockOpened (.cover n) s else s) x = x :=
    foldl_fixed (fun n => by rw [hcover, if_neg Bool.false_ne_true]) _
  obtain ⟨hsto, hestop⟩ := hpairs
  obtain ⟨hweb, hjam⟩ := hdoors
  simp only [sampleRaises, stoCheck, estopCheck, hsto, hestop, hweb, hjam, Bool.false_eq_true, if_false, hcovers]
  exact foldl_fixed hflt _

/-- The release of AON power-on reset with every input normal, and no record being written: BOOT in step 2, with the OTP array and
the lock fuses as they were (R504, R511). -/
theorem exec_aonPowerOnReset_normal (straps : BitVec 5) (hw : s.pwr.writing = none) :
    ∃ t, exec (.aonPowerOnReset true straps normalPins) s = .next t ∧ t.eng.state = .boot ∧ t.boot.step = 2 ∧
      t.otp.cells = s.otp.cells ∧ t.otp.wFuse = s.otp.wFuse ∧ t.otp.rFuse = s.otp.rFuse := by
  have hrun : exec (.aonPowerOnReset true straps normalPins) s = .next (powerOn straps normalPins s) := by
    change execAonPowerOnReset true straps normalPins s = _
    rw [execAonPowerOnReset, hw]
    rfl
  refine ⟨_, hrun, ?_⟩
  rw [powerOn, sampleRaises_firstSample_normalPins]
  exact ⟨rfl, rfl, rfl, rfl, rfl⟩

end

/-! ### The programming commands -/

section

variable {s : State} {k : OtpKind} {key : BitVec 8} {r : Nat}

/-- A command with another KEY, or while BUSY is 1, is discarded (R455). -/
theorem otpCommand_discarded (h : key ≠ 0x5A ∨ s.otp.job.isSome = true) : otpCommand k key r s = s := by
  rw [otpCommand, if_pos]
  rwa [Bool.or_eq_true, bne_iff_ne]

theorem otpCommand_outside_service (hjob : s.otp.job = none) (h : s.eng.state ≠ .service) :
    otpCommand k 0x5A r s = otpEnd .state s := by
  rw [otpCommand, hjob, if_neg (by decide), if_pos (bne_iff_ne.mpr h)]

/-- In SERVICE, the first check that applies ends the command (R455). -/
theorem otpCommand_rejected (hjob : s.otp.job = none) (hstate : s.eng.state = .service) {st : Status}
    (h : otpChecks k (k.region s.otp.addr r) s = some st) : otpCommand k 0x5A r s = otpRejected k st s := by
  rw [otpCommand, hjob, hstate, if_neg (by decide), if_neg (by decide)]
  dsimp only
  rw [h]

theorem otpCommand_runs (hjob : s.otp.job = none) (hstate : s.eng.state = .service)
    (h : otpChecks k (k.region s.otp.addr r) s = none) : otpCommand k 0x5A r s = otpRun k (k.region s.otp.addr r) s := by
  rw [otpCommand, hjob, hstate, if_neg (by decide), if_neg (by decide)]
  dsimp only
  rw [h]

theorem otpRejected_of_ne_read (hk : k ≠ .read) (st : Status) : otpRejected k st s = otpEnd st s := by
  rw [otpRejected, if_neg (by simp [hk])]

/-- The checks that concern PROGRAM. -/
theorem otpChecks_program : otpChecks .program r s =
    if s.otp.wlock.getLsbD r then some .locked else if !otpConditions s then some .range
    else if clearsBit s then some .field else none := by
  simp [otpChecks, barred]

theorem otpChecks_read : otpChecks .read r s = if s.otp.rlock.getLsbD r then some .locked else none := by
  simp [otpChecks, barred]

theorem otpChecks_lockW : otpChecks .lockW r s =
    if s.otp.wlock.getLsbD r then some .locked else if !otpConditions s then some .range
    else if freshMarginal s r then some .verify else if !wordsValid (freshRegion s r) then some .otpCrc else none := by
  simp [otpChecks, barred]

theorem otpChecks_lockR : otpChecks .lockR r s =
    if !otpConditions s then some .range else if !s.otp.wlock.getLsbD r then some .state
    else if freshMarginal s r then some .verify else if !wordsValid (freshRegion s r) then some .otpCrc else none := by
  simp [otpChecks, barred]

theorem otpCopy_succ (fuel : Nat) (j : OtpJob) : otpCopy (fuel + 1) j s =
    if j.data &&& ~~~((jobCell s j).copy j.copy).1 != 0 then s.modOtp fun o => { o with job := some { j with pulses := 0 } }
    else if j.data &&& ~~~((jobCell s j).copy j.copy).2 != 0 then s.modOtp fun o => { o with job := some { j with pulses := 1 } }
    else otpCopy fuel { j with copy := j.copy + 1, pulses := 0, verified := j.verified + 1 } s := rfl

/-- A command's job as it begins. -/
def freshJob (k : OtpKind) (a : Nat) (d : Word) : OtpJob :=
  { kind := k, addr := a, data := d, copy := 0, pulses := 0, verified := 0, extra := 0 }

/-- A command whose first copy lacks a bit begins with that copy (R456). -/
theorem otpBlow_begins {a : Nat} {d : Word} (h : d &&& ~~~(jobCell s (freshJob k a d)).n0 ≠ 0) :
    (otpBlow k a d s).otp = { s.otp with job := some (freshJob k a d) } := by
  have hcopy : otpBlow k a d s = otpCopy 3 (freshJob k a d) s := rfl
  have hlacks : ((freshJob k a d).data &&& ~~~((jobCell s (freshJob k a d)).copy (freshJob k a d).copy).1 != 0) = true :=
    bne_iff_ne.mpr h
  rw [hcopy, otpCopy_succ, if_pos hlacks]
  rfl

/-- PROGRAM of what all three copies hold already ends with three verified copies and no pulse (R456). -/
theorem otpBlow_programmed {a : Nat} {d : Word} (h : otpCell s a = { n0 := d, n1 := d, n2 := d, m0 := d, m1 := d, m2 := d }) :
    otpBlow .program a d s = otpFinish { freshJob .program a d with copy := 3, verified := 3 } s := by
  have hblown : (d &&& ~~~d != 0) = false := by simp
  have hcell (c p v e : Nat) : (jobCell s ⟨.program, a, d, c, p, v, e⟩).copy c = (d, d) := by
    rw [jobCell, h]
    match c with
    | 0 | 1 | _ + 2 => rfl
  simp only [otpBlow, otpCopy_succ, hcell, hblown, Bool.false_eq_true, if_false]
  rfl

theorem nominal_of_agree (d : Word) : OtpCell.nominal { n0 := d, n1 := d, n2 := d, m0 := d, m1 := d, m2 := d } = d := by
  simp [OtpCell.nominal, maj]

/-- A lock whose fuses have a majority ends OK (R457); any other one is blown. -/
theorem otpRun_lock (hk : k = .lockW ∨ k = .lockR) :
    otpRun k r s = if (lockCell s k r).nominal.getLsbD 0 then otpEnd .ok s else otpBlow k r 1 s := by
  obtain rfl | rfl := hk <;> rfl

/-- A lock whose fuses are all intact begins with the first of them. -/
theorem otpRun_lock_begins (hk : k = .lockW ∨ k = .lockR) (h : lockCell s k r = OtpCell.blank) :
    (otpRun k r s).otp = { s.otp with job := some (freshJob k r 1) } := by
  have hcell : jobCell s (freshJob k r 1) = OtpCell.blank := by
    obtain rfl | rfl := hk <;> exact h
  rw [otpRun_lock hk, h, if_neg (by decide), otpBlow_begins]
  rw [hcell]
  decide

end

section

variable {s : State} {r : Nat} (hcond : otpConditions s = true)
include hcond

/-- PROGRAM to a region that is not locked, under the conditions of check 4: only check 5 is left. -/
theorem otpChecks_program_of_ready (hlock : s.otp.wlock.getLsbD r = false) :
    otpChecks .program r s = if clearsBit s then some .field else none := by
  simp [otpChecks_program, hlock, hcond]

/-- LOCK_W of a region that is not locked, under the conditions of check 4: its fresh read decides (R457). -/
theorem otpChecks_lockW_of_ready (hlock : s.otp.wlock.getLsbD r = false) : otpChecks .lockW r s =
    if freshMarginal s r then some .verify else if !wordsValid (freshRegion s r) then some .otpCrc else none := by
  simp [otpChecks_lockW, hlock, hcond]

theorem otpChecks_lockR_of_unlocked (hlock : s.otp.wlock.getLsbD r = false) : otpChecks .lockR r s = some .state := by
  simp [otpChecks_lockR, hlock, hcond]

theorem otpChecks_lockR_of_ready (hlock : s.otp.wlock.getLsbD r = true) : otpChecks .lockR r s =
    if freshMarginal s r then some .verify else if !wordsValid (freshRegion s r) then some .otpCrc else none := by
  simp [otpChecks_lockR, hlock, hcond]

end

section

/-- The command of a kind with a KEY, on region `r` for a lock. -/
def OtpKind.command (k : OtpKind) (key : BitVec 8) (r : Fin 16) : Instr :=
  match k with
  | .program => .program key
  | .read => .read key
  | .lockW => .lockW key r
  | .lockR => .lockR key r

variable {s : State} (hopen : regOpen 0 s = true)
include hopen

theorem exec_command (k : OtpKind) (key : BitVec 8) (r : Fin 16) :
    exec (k.command key r) s = .next (otpCommand k key r s) := by
  cases k <;> exact congrArg _ (if_pos hopen)

theorem exec_command_discarded {key : BitVec 8} (h : key ≠ 0x5A ∨ s.otp.job.isSome = true) (k : OtpKind) (r : Fin 16) :
    exec (k.command key r) s = .next s := by
  rw [exec_command hopen, otpCommand_discarded h]

variable (hjob : s.otp.job = none)
include hjob

theorem exec_command_outside_service (hstate : s.eng.state ≠ .service) (k : OtpKind) (r : Fin 16) :
    exec (k.command 0x5A r) s = .next (otpEnd .state s) := by
  rw [exec_command hopen, otpCommand_outside_service hjob hstate]

variable (hstate : s.eng.state = .service) (k : OtpKind) (r : Fin 16)
include hstate

theorem exec_command_rejected {st : Status} (h : otpChecks k (k.region s.otp.addr r) s = some st) :
    exec (k.command 0x5A r) s = .next (otpRejected k st s) := by
  rw [exec_command hopen, otpCommand_rejected hjob hstate h]

/-- A command that a check stops ends with its status, and blows nothing (R455). -/
theorem exec_command_stopped (hk : k ≠ .read) {st : Status} (h : otpChecks k (k.region s.otp.addr r) s = some st) :
    exec (k.command 0x5A r) s = .next (otpEnd st s) := by
  rw [exec_command_rejected hopen hjob hstate k r h, otpRejected_of_ne_read hk]

theorem exec_command_runs (h : otpChecks k (k.region s.otp.addr r) s = none) :
    exec (k.command 0x5A r) s = .next (otpRun k (k.region s.otp.addr r) s) := by
  rw [exec_command hopen, otpCommand_runs hjob hstate h]

end

/-! ### The end of a pulse -/

section

/-- Every bit of `x` is one of `y`. -/
theorem and_not_eq_zero_iff {x y : Word} : x &&& ~~~y = 0 ↔ ∀ i < 32, x.getLsbD i = true → y.getLsbD i = true := by
  constructor
  · intro h i hi hx
    have hbit := congrArg (BitVec.getLsbD · i) h
    simpa [hi, hx] using hbit
  · intro h
    refine BitVec.eq_of_getLsbD_eq fun i hi => ?_
    have hbit := h i hi
    simpa [hi] using hbit

variable (c : OtpCell) (k : Nat) (n m : Word)

@[simp] theorem copy_setCopy : (c.setCopy k n m).copy k = (n, m) := by
  match k with
  | 0 | 1 | _ + 2 => rfl

theorem copy_setCopy_of_ne {i : Fin 3} (hk : k < 3) (h : i.val ≠ k) : (c.setCopy k n m).copy i = c.copy i := by
  match k, i with
  | 0, ⟨0, _⟩ | 1, ⟨1, _⟩ | 2, ⟨2, _⟩ => exact absurd rfl h
  | 0, ⟨1, _⟩ | 0, ⟨2, _⟩ | 1, ⟨0, _⟩ | 1, ⟨2, _⟩ | 2, ⟨0, _⟩ | 2, ⟨1, _⟩ => rfl

end

section

variable {s : State} {j : OtpJob} {seen : Word}

/-- The cell of a job after a pulse. -/
def pulsedCell (j : OtpJob) (seen : Word) (s : State) : OtpCell := pulsed j seen s.freeCtr (jobCell s j)

/-- The state with that cell, before the command goes on. -/
def afterPulse (j : OtpJob) (seen : Word) (s : State) : State := putJobCell j (pulsedCell j seen s) s.useFree

/-- What follows a pulse in the same tick leaves the array as the pulse left it. -/
theorem keep_array_otpPulseEnd (hjob : s.otp.job = some j) :
    (otpPulseEnd seen s).keep (onlyPart .array) = (afterPulse j seen s).keep (onlyPart .array) := by
  have hotp : onlyPart .array .otp = true := by decide
  simp only [otpPulseEnd, hjob, afterPulse, pulsedCell, keep_ite, keep_otpGoOn, hotp]
  split
  · split <;> simp only [keep_otpGoOn, keep_otpNext, hotp]
  · rfl

theorem pulsedCell_copy : (pulsedCell j seen s).copy j.copy =
    let x := (jobCell s j).copy j.copy
    let m := x.2 ||| (seen &&& j.data)
    (x.1 ||| m ||| (j.data &&& BitVec.ofNat 32 (Config.freeNat s.freeCtr)), m) :=
  copy_setCopy ..

/-- A margin read that shows every bit to blow verifies the copy. -/
theorem pulsedCell_verifies (h : j.data &&& ~~~seen = 0) : j.data &&& ~~~((pulsedCell j seen s).copy j.copy).2 = 0 := by
  rw [pulsedCell_copy, and_not_eq_zero_iff]
  intro i hi hdata
  simp [and_not_eq_zero_iff.mp h i hi hdata, hdata]

/-- The last copy ends the command (R456). -/
theorem otpPulseEnd_last (hjob : s.otp.job = some j) (hcopy : j.copy = 2) (h : j.data &&& ~~~seen = 0) :
    otpPulseEnd seen s = otpFinish
      { j with copy := j.copy + 1, verified := j.verified + 1, extra := max j.extra (j.pulses + 1 - 1), pulses := 0 }
      (afterPulse j seen s) := by
  have hok : decide (j.data &&& ~~~((pulsed j seen s.freeCtr (jobCell s j)).copy j.copy).2 = 0) = true :=
    decide_eq_true (pulsedCell_verifies h)
  have hfuel : 2 - j.copy = 0 := by rw [hcopy]
  simp only [otpPulseEnd, hjob, hok, Bool.true_or, if_true, otpNext, hfuel]
  rfl

/-- A copy whose margin read shows none of the bits that it lacks is not pulsed again outside SERVICE (R458). -/
theorem otpPulseEnd_outside_service (hjob : s.otp.job = some j) (hp : j.pulses < 7) (hstate : s.eng.state ≠ .service)
    (h : j.data &&& ~~~((jobCell s j).copy j.copy).2 ≠ 0) : otpPulseEnd 0 s = otpEnd .state (afterPulse j 0 s) := by
  have hmargin : ((pulsedCell j 0 s).copy j.copy).2 = ((jobCell s j).copy j.copy).2 := by
    simp [pulsedCell_copy]
  have hagain : (decide (j.data &&& ~~~((pulsed j 0 s.freeCtr (jobCell s j)).copy j.copy).2 = 0) ||
      decide (8 ≤ j.pulses + 1)) = false := by
    rw [← hmargin] at h
    rw [Bool.or_eq_false_iff]
    exact ⟨decide_eq_false h, decide_eq_false (by omega)⟩
  have heng : (afterPulse j 0 s).eng = s.eng := by
    simp only [afterPulse, putJobCell]
    split <;> rfl
  have hgo (j' : OtpJob) : otpGoOn j' (afterPulse j 0 s) = otpEnd .state (afterPulse j 0 s) := by
    rw [otpGoOn, heng, if_pos (bne_iff_ne.mpr hstate)]
  simp only [otpPulseEnd, hjob, hagain, Bool.false_eq_true, if_false]
  exact hgo _

/-- The cells after a pulse of PROGRAM. -/
theorem otpCell_otpPulseEnd (hs : s.canonical) (hjob : s.otp.job = some j) (hkind : j.kind = .program) (a : Nat) :
    otpCell (otpPulseEnd seen s) a = if j.addr = a then pulsedCell j seen s else otpCell s a := by
  obtain ⟨-, hcells, -⟩ := hs
  have hput : (otpPulseEnd seen s).otp.cells = sput OtpCell.blank s.otp.cells j.addr (pulsedCell j seen s) := by
    rw [(array_of_keep (keep_array_otpPulseEnd hjob)).1, afterPulse, putJobCell, hkind]
    rfl
  rw [otpCell, hput, sget_sput _ _ _ _ hcells]
  rfl

/-- A pulse on a copy of a word: the bits that the margin read shows, and only bits to blow or blown before (R456). -/
theorem pulsedCell_bits {x : OtpCell} (hx : jobCell s j = x) :
    let y := pulsedCell j seen s
    (x.copy j.copy).1 &&& ~~~(y.copy j.copy).1 = 0 ∧ (x.copy j.copy).2 &&& ~~~(y.copy j.copy).2 = 0 ∧
      seen &&& j.data &&& ~~~(y.copy j.copy).2 = 0 ∧ seen &&& j.data &&& ~~~(y.copy j.copy).1 = 0 ∧
      (y.copy j.copy).1 &&& ~~~((x.copy j.copy).1 ||| (x.copy j.copy).2 ||| j.data) = 0 := by
  simp only [pulsedCell_copy, hx, and_not_eq_zero_iff, BitVec.getLsbD_or, BitVec.getLsbD_and, Bool.or_eq_true,
    Bool.and_eq_true]
  refine ⟨fun _ _ h => .inl (.inl h), fun _ _ h => .inl h, fun _ _ h => .inr h, fun _ _ h => .inl (.inr (.inr h)), ?_⟩
  rintro i - ((hnom | hmargin | ⟨-, hdata⟩) | ⟨hdata, -⟩)
  · exact .inl (.inl hnom)
  · exact .inl (.inr hmargin)
  · exact .inr hdata
  · exact .inr hdata

theorem pulsedCell_copy_of_ne {k : Fin 3} (hcopy : j.copy < 3) (hk : k.val ≠ j.copy) :
    (pulsedCell j seen s).copy k = (jobCell s j).copy k := copy_setCopy_of_ne _ _ _ _ hcopy hk

end

/-! ### The obligation -/

/-- Settles O58: the shadow and the locks are written by the load alone and the array by pulses alone (`loaded_of_exec`,
`array_of_exec`); the load takes the nominal majorities; and each command ends at the first check that applies or begins with the
first copy that lacks a bit. -/
theorem programmingNeverChangesTheShadow : Obligations.ProgrammingNeverChangesTheShadow := by
  unfold Obligations.ProgrammingNeverChangesTheShadow
  refine ⟨fun c s t hreset hrun => ⟨fun hload => ?_, fun hpulse => array_of_exec hreset hpulse hrun⟩,
    fun straps s hw => exec_aonPowerOnReset_normal straps hw, fun s hs hstate hstep => ?_, fun s hopen => ?_,
    fun s seen hs => ?_⟩
  · simpa only [State.loaded, Prod.mk.injEq] using loaded_of_exec hreset hload hrun
  · obtain ⟨t, hrun, hotp⟩ := exec_otpShadowLoad hstate hstep
    refine ⟨t, hrun, fun a => ?_, fun r => ?_⟩
    · rw [shadow, hotp]
      exact shadow_loadShadow hs a
    · rw [hotp]
      exact ⟨loadShadow_wlock r, loadShadow_rlock r, loadShadow_valid hs r⟩
  · refine ⟨fun key r hkey => ?_, fun hjob hstate r => ?_, fun hjob hstate => ?_⟩
    · have hsame := exec_command_discarded hopen hkey
      exact ⟨hsame .program r, hsame .read r, hsame .lockW r, hsame .lockR r⟩
    · have hends := exec_command_outside_service hopen hjob hstate
      exact ⟨hends .program r, hends .read r, hends .lockW r, hends .lockR r⟩
    have hstops := exec_command_stopped hopen hjob hstate
    have hruns := exec_command_runs hopen hjob hstate
    refine ⟨fun hlock => ?_, fun hlock hcond => ?_, fun hlock hcond => ?_, fun hlock => ?_, fun hlock => ?_, fun r => ?_⟩
    · exact hstops .program 0 (by decide) (otpChecks_program.trans (if_pos hlock))
    · exact hstops .program 0 (by decide) (by simp [otpChecks_program, OtpKind.region, hlock, hcond])
    · have hcheck := otpChecks_program_of_ready hcond hlock
      refine ⟨fun hclears => ?_, fun hclears hlacks => ?_, fun hcell => ?_⟩
      · exact hstops .program 0 (by decide) (hcheck.trans (if_pos (bne_iff_ne.mpr hclears)))
      · exact ⟨_, hruns .program 0 (hcheck.trans (if_neg (by simp [clearsBit, hclears]))), otpBlow_begins hlacks⟩
      · have hclears : freshWord s s.otp.addr &&& ~~~s.otp.data = 0 := by
          rw [freshWord, hcell, nominal_of_agree, BitVec.and_not_self]
        have hrun := hruns .program 0 (hcheck.trans (if_neg (by simp [clearsBit, hclears])))
        exact ⟨_, hrun.trans (congrArg Host.Outcome.next (otpBlow_programmed hcell)), rfl, rfl, rfl, rfl, rfl, rfl⟩
    · have hrun := exec_command_rejected hopen hjob hstate .read 0 (otpChecks_read.trans (if_pos hlock))
      exact ⟨_, hrun, rfl, rfl⟩
    · have hrun := hruns .read 0 (otpChecks_read.trans (if_neg (Bool.eq_false_iff.mp hlock)))
      exact ⟨_, hrun, rfl, rfl, rfl, rfl, rfl, rfl⟩
    · have hwFuse : lockCell s .lockW r = s.otp.wFuse[r] := tab_fin ..
      have hrFuse : lockCell s .lockR r = s.otp.rFuse[r] := tab_fin ..
      refine ⟨fun hlock => ?_, fun hlock hcond hmarg => ?_, fun hlock hcond hmarg hvalid => ?_,
        fun hlock hcond hmarg hvalid => ?_, fun hlock hcond => ?_, fun hlock hcond hmarg hvalid hblank => ?_⟩
      · exact hstops .lockW r (by decide) (otpChecks_lockW.trans (if_pos hlock))
      · exact hstops .lockW r (by decide) ((otpChecks_lockW_of_ready hcond hlock).trans (if_pos hmarg))
      · exact hstops .lockW r (by decide) ((otpChecks_lockW_of_ready hcond hlock).trans (by simp [hmarg, hvalid]))
      · have hrun := hruns .lockW r ((otpChecks_lockW_of_ready hcond hlock).trans (by simp [hmarg, hvalid]))
        refine ⟨fun hset => ?_, fun hblank => ⟨_, hrun, otpRun_lock_begins (.inl rfl) (hwFuse.trans hblank)⟩⟩
        exact hrun.trans (congrArg _ ((otpRun_lock (.inl rfl)).trans (if_pos (by simpa [OtpKind.region, hwFuse] using hset))))
      · exact hstops .lockR r (by decide) (otpChecks_lockR_of_unlocked hcond hlock)
      · have hrun := hruns .lockR r ((otpChecks_lockR_of_ready hcond hlock).trans (by simp [hmarg, hvalid]))
        exact ⟨_, hrun, otpRun_lock_begins (.inr rfl) (hrFuse.trans hblank)⟩
  · have hrun : exec (.otpPulseEnd seen) s = .next (otpPulseEnd seen s) := rfl
    refine ⟨fun hjob => ?_, fun j hjob => ⟨_, hrun, fun hkind hcopy => ?_, fun hcopy hseen => ?_,
      fun _ hpulses hstate hnone hlacks => ?_⟩⟩
    · rw [hrun, otpPulseEnd, hjob]
    · have hcell : jobCell s j = otpCell s j.addr := by rw [jobCell, hkind]
      have hpulsed : otpCell (otpPulseEnd seen s) j.addr = pulsedCell j seen s := by
        rw [otpCell_otpPulseEnd hs hjob hkind, if_pos rfl]
      obtain ⟨hnom, hmarg, hseenM, hseenN, hbound⟩ := pulsedCell_bits (seen := seen) hcell
      rw [hpulsed]
      refine ⟨fun k hk => ?_, hnom, hmarg, hseenM, hseenN, hbound, fun a ha => ?_⟩
      · rw [pulsedCell_copy_of_ne hcopy hk, hcell]
      · rw [otpCell_otpPulseEnd hs hjob hkind, if_neg ha.symm]
    · rw [otpPulseEnd_last hjob hcopy hseen]
      refine ⟨rfl, rfl, rfl, fun hv => ?_, fun hv => ?_, ?_⟩
      · exact congrArg Status.code (if_pos (Nat.succ_le_succ hv))
      · exact congrArg Status.code (if_neg (by simp [hv]))
      · exact decide_eq_true_iff.trans Nat.succ_inj
    · subst hnone
      rw [otpPulseEnd_outside_service hjob hpulses hstate hlacks]
      exact ⟨rfl, rfl⟩

end Sys2Proof.Machine
end
